-- ==== Sys2Proof/Word.lean ====
section
/-! DEFINITION. The word types of the QX-PV9 (R4, R46, R66): 64-bit registers, bytes, and the wide registers of the engine. -/

namespace Sys2Proof

/-- A byte of memory (R4). -/
abbrev Byte := BitVec 8

/-- A 64-bit register or memory word. -/
abbrev W64 := BitVec 64

/-- A vector register of 4,096 bits (R66). -/
abbrev V4096 := BitVec 4096

/-- A mask register of 512 bits, one bit per byte lane (R66). -/
abbrev M512 := BitVec 512

end Sys2Proof
end

