-- ==== Sys2Proof/Config.lean ====
section
/-! DEFINITION. The values the manual leaves open, each an opaque constant with no body: nothing can evaluate one, so a
statement about it holds for every value. Each takes the model's own plain counter (`State.fresh`) or the operands it depends on. -/

namespace Sys2Proof.Config

/-- A byte read from another package, which no state of this package holds (R289, R371): free value by counter, package and
offset. DESIGN CHOICE, see assumption 12. -/
opaque remoteByte (n pkg offset : Nat) : Byte

/-- The value that a gathered element leaves in gq when its reply carries a fault (R214, R297): not given. See assumption 20. -/
opaque lostElement (n : Nat) : BitVec 32

/-- The width in bytes, as a power of two below 8, of a value type code above 0x8 that only FLOAD can bring (R241, R243): not given.
See assumption 22. -/
opaque valueSize (code : Nat) : Fin 3

/-- How many elements a running fibre op has examined when a stop reaches it (R234, R247): not architected. See assumption 13. -/
opaque stopElements (n : Nat) : Nat

/-- Which of the two neighbours a correctly rounded function takes where the interval arithmetic of the model did not decide
(R42). `false` the lower magnitude, `true` the higher. See assumption 14. -/
opaque roundUp (f x : Nat) : Bool

/-- The bytes of a firmware layer (R396), by the firmware epoch and the layer's number: not given. See assumption 15. -/
opaque firmwareLayer (epoch layer : Nat) : List Byte

/-- The unique device secret, and the secret (CDI) that a layer's is derived to from that of the layer below and its measurement (R396): how
is not given. See assumption 15. -/
opaque deviceSecret : List Byte

/-- See `deviceSecret`. -/
opaque deriveSecret (below measured : List Byte) : List Byte

/-- The Ed448 public key that a secret gives, and byte `j` of the Ed448 signature (114 bytes) of a secret's key over the bytes given (R396,
R397). See assumption 15. -/
opaque publicKey (secret : List Byte) : List Byte

/-- See `publicKey`. -/
opaque signature (secret message : List Byte) (j : Nat) : Byte

/-- Where the program of a firmware image begins (R393): not given. See assumption 113. -/
opaque firmwareEntry (image : List Byte) : BitVec 48

/-- A telemetry reading of a sensor (rail power, island temperature), by sensor and read (R398). See assumption 16. -/
opaque sensor (n unit : Nat) : W64

/-- The number of a free physical resource the manual lets firmware choose (a spare core's own number, R391). See assumption 17. -/
opaque spare (n : Nat) : Nat

/-- A line is still in a core's instruction cache when it is fetched again (R46): its replacement is not given. See assumption 19. -/
opaque icacheKeeps (n : Nat) : Bool

/-- A translation is still in a cluster's TLB, or an upper-level entry in a page-walk cache, when it is looked up again (R266): their
replacement is not given. See assumption 96. -/
opaque tlbKeeps (n : Nat) : Bool

/-- The home slice has a free forwarding entry when a line is to move (R258): how many it has is not given. See assumption 5. -/
opaque forwardFree (n : Nat) : Bool

/-- The line of a bay's shadow arena in which a shadow line is kept, and what the arena's bytes then are (R336): their layout is not
given. See assumption 99. -/
opaque shadowSlot (n : Nat) : Nat

/-- A byte of the shadow arena. See `shadowSlot`. -/
opaque shadowByteAt (n i : Nat) : Byte

/-- A byte of a save slot after firmware has saved a context there (R306, R330): its layout is not given. See assumption 54. -/
opaque savedByte (n i : Nat) : Byte

end Sys2Proof.Config
end

