-- ==== Sys2Proof/Machine/Bits.lean ====
section
/-! DEFINITION. Bit fields, sign extension, byte order, and reading and writing one entry of a register file by number. -/

namespace Sys2Proof

/-- Bits [lo + n - 1 : lo] of `w`. -/
def fld (w lo n : Nat) : Nat := w / 2 ^ lo % 2 ^ n

/-- Bits [lo + n - 1 : lo] of `w`, as `n` bits. -/
def fbv (w lo n : Nat) : BitVec n := BitVec.ofNat n (w / 2 ^ lo)

/-- Sign extension to 64 bits. -/
def sx {n : Nat} (b : BitVec n) : W64 := b.signExtend 64

/-- Zero extension to 64 bits. -/
def zx {n : Nat} (b : BitVec n) : W64 := b.setWidth 64

/-- The 64-bit word of a number. -/
def w64 (n : Nat) : W64 := BitVec.ofNat 64 n

/-- Bits [lo + n - 1 : lo] of a register, as a number. -/
def bits {w : Nat} (b : BitVec w) (lo n : Nat) : Nat := b.toNat / 2 ^ lo % 2 ^ n

/-- Bit `i` of a register. -/
def bitAt {w : Nat} (b : BitVec w) (i : Nat) : Bool := b.toNat.testBit i

/-- `b` with bits [lo + n - 1 : lo] replaced by the low `n` bits of `v`. -/
def setBits {w : Nat} (b : BitVec w) (lo n v : Nat) : BitVec w :=
  BitVec.ofNat w (b.toNat - b.toNat / 2 ^ lo % 2 ^ n * 2 ^ lo + v % 2 ^ n * 2 ^ lo)

/-- `b` with bit `i` set or cleared. -/
def setBit {w : Nat} (b : BitVec w) (i : Nat) (v : Bool) : BitVec w := setBits b i 1 (if v then 1 else 0)

/-- The number whose little-endian bytes these are (R4). -/
def ofBytes : List Byte → Nat
  | [] => 0
  | b :: r => b.toNat + 256 * ofBytes r

/-- The `n` low bytes of a number, little-endian (R4). -/
def toBytes : Nat → Nat → List Byte
  | 0, _ => []
  | n + 1, v => BitVec.ofNat 8 v :: toBytes n (v / 256)

/-- The signed value of the low `n` bits of `v`. -/
def signedOf (n v : Nat) : Int :=
  let u := v % 2 ^ n
  if n = 0 then 0 else if u < 2 ^ (n - 1) then Int.ofNat u else Int.ofNat u - Int.ofNat (2 ^ n)

/-- The low `n` bits of an integer. -/
def unsignedOf (n : Nat) (i : Int) : Nat := (i % (2 ^ n : Nat)).toNat

/-- Entry `i` of a register file; `d` outside it. -/
def rd {α : Type} {n : Nat} (v : Vector α n) (i : Nat) (d : α) : α := v.toArray.toList.getD i d

/-- A register file with entry `i` replaced; unchanged when there is no such entry. -/
def wr {α : Type} {n : Nat} (v : Vector α n) (i : Nat) (x : α) : Vector α n :=
  if h : i < n then v.set i x h else v

end Sys2Proof
end

