-- ==== Sys2Proof/Machine/Float.lean ====
section
/-! DEFINITION. The number formats and the rounding of exact values (R9 to R31), the correctly rounded functions (R42) and the
Philox generator (R43). A finite value is a sign, a natural significand and an exponent; every result is rounded once. -/

namespace Sys2Proof.Machine

/-- A value in the decoded form of R9, with the NaN and infinities that do not decode to a triple. -/
inductive Num where
  | nan
  | inf (neg : Bool)
  | fin (neg : Bool) (sig : Nat) (exp : Int)
  deriving DecidableEq, Repr

/-- A floating format: precision, exponent of the lowest bit of a subnormal, width, largest finite code, and the codes of Inf and
of the canonical NaN where the format has them (R10, R12, R13, R15). -/
structure FFmt where
  p : Nat
  qmin : Int
  width : Nat
  maxCode : Nat
  infCode : Option Nat
  nanCode : Option Nat
  deriving DecidableEq, Repr

def fp32 : FFmt := { p := 24, qmin := -149, width := 32, maxCode := 0x7F7FFFFF, infCode := some 0x7F800000, nanCode := some 0x7FC00000 }
def fp16 : FFmt := { p := 11, qmin := -24, width := 16, maxCode := 0x7BFF, infCode := some 0x7C00, nanCode := some 0x7E00 }
def bf16 : FFmt := { p := 8, qmin := -133, width := 16, maxCode := 0x7F7F, infCode := some 0x7F80, nanCode := some 0x7FC0 }
def e4m3 : FFmt := { p := 4, qmin := -9, width := 8, maxCode := 0x7E, infCode := none, nanCode := some 0x7F }
def e5m2 : FFmt := { p := 3, qmin := -16, width := 8, maxCode := 0x7B, infCode := some 0x7C, nanCode := some 0x7E }
def e2m1 : FFmt := { p := 2, qmin := -1, width := 4, maxCode := 7, infCode := none, nanCode := none }
def e2m3 : FFmt := { p := 4, qmin := -3, width := 6, maxCode := 31, infCode := none, nanCode := none }
def e3m2 : FFmt := { p := 3, qmin := -4, width := 6, maxCode := 31, infCode := none, nanCode := none }

/-- Decodes a code of a floating format (R10, R13, R15). -/
def decodeF (f : FFmt) (code : Nat) : Num :=
  let neg := code.testBit (f.width - 1)
  let mag := code % 2 ^ (f.width - 1)
  if f.infCode = some mag then .inf neg
  else if f.nanCode.isSome && decide (f.maxCode < mag) then .nan
  else
    let e := mag / 2 ^ (f.p - 1)
    let m := mag % 2 ^ (f.p - 1)
    if e = 0 then .fin neg m f.qmin else .fin neg (2 ^ (f.p - 1) + m) (f.qmin + e - 1)

/-- How a value is rounded (R25, R27); `sr w` is stochastic with the drawn word `w`. -/
inductive Rnd where
  | rne
  | rtz
  | rdn
  | rup
  | sr (w : Nat)
  deriving DecidableEq, Repr

/-- The rounding mode of an RND field under R25. -/
def rndOf (b : BitVec 2) : Rnd :=
  if b = 0 then .rne else if b = 1 then .rtz else if b = 2 then .rdn else .rup

/-- Number of bits of a significand. -/
def bitlen (n : Nat) : Nat := if n = 0 then 0 else Nat.log2 n + 1

/-- Whether the magnitude `m + r / 2^k` (and a little more when `sticky`) rounds up to `m + 1`. -/
def roundsUp (mode : Rnd) (neg : Bool) (m r k : Nat) (sticky : Bool) : Bool :=
  match mode with
  | .rne =>
    if k = 0 then false
    else decide (2 ^ (k - 1) < r) || (decide (r = 2 ^ (k - 1)) && (sticky || m % 2 == 1))
  | .rtz => false
  | .rdn => neg && (r != 0 || sticky)
  | .rup => !neg && (r != 0 || sticky)
  | .sr w => decide (w < r * 2 ^ 32 / 2 ^ k)

/-- Rounds sig × 2^exp (and a little more when `sticky`) to a multiple of 2^q: the multiplier. -/
def roundAt (mode : Rnd) (neg : Bool) (sig : Nat) (exp q : Int) (sticky : Bool) : Nat :=
  if q ≤ exp then
    let m := sig * 2 ^ (exp - q).toNat
    if roundsUp mode neg m 0 0 sticky then m + 1 else m
  else
    let k := (q - exp).toNat
    let m := sig / 2 ^ k
    if roundsUp mode neg m (sig % 2 ^ k) k sticky then m + 1 else m

/-- The magnitude code of a nonzero exact value rounded onto a format's grid with unbounded exponent (R25, R28). -/
def roundCode (f : FFmt) (mode : Rnd) (neg : Bool) (sig : Nat) (exp : Int) (sticky : Bool) : Nat :=
  let lead := exp + bitlen sig - 1
  let q := max (lead - f.p + 1) f.qmin
  (q - f.qmin).toNat * 2 ^ (f.p - 1) + roundAt mode neg sig exp q sticky

/-- A magnitude code with its sign bit. -/
def withSign (f : FFmt) (neg : Bool) (mag : Nat) : Nat := mag + if neg then 2 ^ (f.width - 1) else 0

/-- What a rounded value beyond the largest finite value becomes (R28). -/
def overflow (f : FFmt) (mode : Rnd) (neg sat : Bool) : Nat :=
  if sat then withSign f neg f.maxCode
  else match f.infCode, f.nanCode with
    | some i, _ =>
      match mode with
      | .rtz => withSign f neg f.maxCode
      | .rdn => withSign f neg (if neg then i else f.maxCode)
      | .rup => withSign f neg (if neg then f.maxCode else i)
      | _ => withSign f neg i
    | none, some n => n
    | none, none => withSign f neg f.maxCode

/-- Rounds an exact finite value, with a sticky part, into a format (R28). -/
def roundTo (f : FFmt) (mode : Rnd) (sat neg : Bool) (sig : Nat) (exp : Int) (sticky : Bool) : Nat :=
  if sig = 0 ∧ !sticky then withSign f neg 0
  else
    let c := roundCode f mode neg sig exp sticky
    if f.maxCode < c then overflow f mode neg sat else withSign f neg c

/-- Conversion of a value into a floating format (R28). -/
def convertFloat (x : Num) (f : FFmt) (mode : Rnd) (sat : Bool) : Nat :=
  match x with
  | .nan => f.nanCode.getD 0
  | .inf neg =>
    if sat then withSign f neg f.maxCode
    else match f.infCode, f.nanCode with
      | some i, _ => withSign f neg i
      | none, some n => n
      | none, none => withSign f neg f.maxCode
  | .fin neg sig exp => roundTo f mode sat neg sig exp false

/-! ### Exact arithmetic -/

/-- The signed multiple of 2^e that a finite value is, for an exponent `e` not above its own. -/
def scaled (neg : Bool) (sig : Nat) (exp e : Int) : Int :=
  let m : Int := Int.ofNat (sig * 2 ^ (exp - e).toNat)
  if neg then -m else m

/-- The exact sum of two values, with the sign of an exact zero as R162 gives it for a mode. -/
def addNum (mode : Rnd) (x y : Num) : Num :=
  match x, y with
  | .nan, _ => .nan
  | _, .nan => .nan
  | .inf a, .inf b => if a = b then .inf a else .nan
  | .inf a, _ => .inf a
  | _, .inf b => .inf b
  | .fin a s e, .fin b t g =>
    let m := min e g
    let v := scaled a s e m + scaled b t g m
    if v = 0 then
      if s = 0 ∧ t = 0 ∧ a = b then .fin a 0 0 else .fin (mode = .rdn) 0 0
    else .fin (decide (v < 0)) v.natAbs m

/-- The exact product of two values. -/
def mulNum (x y : Num) : Num :=
  match x, y with
  | .nan, _ => .nan
  | _, .nan => .nan
  | .inf a, .inf b => .inf (a != b)
  | .inf a, .fin b t _ => if t = 0 then .nan else .inf (a != b)
  | .fin a s _, .inf b => if s = 0 then .nan else .inf (a != b)
  | .fin a s e, .fin b t g => .fin (a != b) (s * t) (e + g)

/-- A value negated. -/
def negNum : Num → Num
  | .nan => .nan
  | .inf a => .inf (!a)
  | .fin a s e => .fin (!a) s e

/-- The magnitude of a value. -/
def absNum : Num → Num
  | .nan => .nan
  | .inf _ => .inf false
  | .fin _ s e => .fin false s e

/-- A quotient rounded once into a format (R162). -/
def divRound (f : FFmt) (mode : Rnd) (x y : Num) : Nat :=
  match x, y with
  | .nan, _ => f.nanCode.getD 0
  | _, .nan => f.nanCode.getD 0
  | .inf _, .inf _ => f.nanCode.getD 0
  | .inf a, .fin b _ _ => convertFloat (.inf (a != b)) f mode false
  | .fin a _ _, .inf b => withSign f (a != b) 0
  | .fin a s e, .fin b t g =>
    if t = 0 then (if s = 0 then f.nanCode.getD 0 else convertFloat (.inf (a != b)) f mode false)
    else
      let k : Nat := 96
      let n := s * 2 ^ k
      roundTo f mode false (a != b) (n / t) (e - g - k) (n % t != 0)

/-- The integer square root, by bits from the top down. -/
def isqrt (n : Nat) : Nat → Nat
  | 0 => if 1 ≤ n then 1 else 0
  | b + 1 =>
    (List.range (b + 2)).foldl (fun r i => let c := r + 2 ^ (b + 1 - i); if c * c ≤ n then c else r) 0

/-- A square root rounded once into a format (R162). -/
def sqrtRound (f : FFmt) (mode : Rnd) (x : Num) : Nat :=
  match x with
  | .nan => f.nanCode.getD 0
  | .inf neg => if neg then f.nanCode.getD 0 else convertFloat (.inf false) f mode false
  | .fin neg s e =>
    if s = 0 then withSign f neg 0
    else if neg then f.nanCode.getD 0
    else
      let k : Nat := if e % 2 = 0 then 96 else 97
      let n := s * 2 ^ k
      let r := isqrt n 64
      roundTo f mode false false r ((e - k) / 2) (r * r != n)

/-! ### Correctly rounded functions (R42) -/

/-- The functions of R42. -/
inductive RFun where
  | rcp
  | rsq
  | exp2
  | log2
  | sin
  | cos
  | tanh
  deriving DecidableEq, Repr

/-- Fraction bits of the fixed-point evaluation. -/
def fixN : Nat := 704

/-- One in fixed point. -/
def fixOne : Nat := 2 ^ fixN

/-- A fixed-point product. -/
def fixMul (a b : Nat) : Nat := a * b / fixOne

/-- The sum of z / 1 + z^3 / 3 + z^5 / 5 + … in fixed point: artanh z. -/
def fixAtanh (z : Nat) : Nat :=
  let z2 := fixMul z z
  ((List.range 240).foldl (fun (p : Nat × Nat) i => (fixMul p.1 z2, p.2 + p.1 / (2 * i + 1))) (z, 0)).2

/-- ln 2 = 2 artanh(1/3) in fixed point. -/
def fixLn2 : Nat := 2 * fixAtanh (fixOne / 3)

/-- arctan(1/n) in fixed point. -/
def fixAtanInv (n : Nat) : Nat :=
  let r := (List.range 340).foldl (fun (p : Nat × Nat × Nat) i =>
    let t := p.1 / (2 * i + 1)
    (p.1 / (n * n), if i % 2 = 0 then p.2.1 + t else p.2.1, if i % 2 = 0 then p.2.2 else p.2.2 + t)) (fixOne / n, 0, 0)
  r.2.1 - r.2.2

/-- π in fixed point, by Machin's formula. -/
def fixPi : Nat := 16 * fixAtanInv 5 - 4 * fixAtanInv 239

/-- e^z in fixed point, for z in [0, 1). -/
def fixExp (z : Nat) : Nat :=
  ((List.range 160).foldl (fun (p : Nat × Nat) i => (fixMul p.1 z / (i + 1), p.2 + p.1)) (fixOne, 0)).2

/-- sin a and cos a in fixed point, for a in [0, 2). -/
def fixSinCos (a : Nat) : Nat × Nat :=
  let r := (List.range 180).foldl (fun (p : Nat × (Nat × Nat) × (Nat × Nat)) i =>
    let t := p.1
    let nx := fixMul t a / (i + 1)
    match i % 4 with
    | 0 => (nx, p.2.1, (p.2.2.1 + t, p.2.2.2))
    | 1 => (nx, (p.2.1.1 + t, p.2.1.2), p.2.2)
    | 2 => (nx, p.2.1, (p.2.2.1, p.2.2.2 + t))
    | _ => (nx, (p.2.1.1, p.2.1.2 + t), p.2.2)) (fixOne, (0, 0), (0, 0))
  (r.2.1.1 - r.2.1.2, r.2.2.1 - r.2.2.2)

/-- The result that lies within 2^64 units of A × 2^exp: the one rounding of both ends where they agree; where they do not, which
of the two it is stays free (assumption 14). -/
def decideRound (f : FFmt) (mode : Rnd) (neg : Bool) (a : Nat) (exp : Int) (fn x : Nat) : Nat :=
  let lo := roundTo f mode false neg (a - 2 ^ 64) exp true
  let hi := roundTo f mode false neg (a + 2 ^ 64) exp true
  if lo = hi then lo else if Config.roundUp fn x then hi else lo

/-- sig × 2^exp in fixed point, for a value whose lowest bit is not below the fixed-point unit. -/
def toFix (sig : Nat) (exp : Int) : Nat := sig * 2 ^ (exp + fixN).toNat

/-- 2^(n + f), for f a fixed-point fraction, rounded. -/
def exp2Round (f : FFmt) (mode : Rnd) (n : Int) (fr : Nat) (x : Nat) : Nat :=
  let n := max (-2000) (min 2000 n)
  decideRound f mode false (fixExp (fixMul fr fixLn2)) (n - fixN) 2 x

/-- 1.0 in a format. -/
def oneCode (f : FFmt) : Nat := roundTo f .rne false false 1 0 false

/-- sin or cos of 2π times a nonzero finite value: the sign and magnitude by quadrant (R42). -/
def trigRound (f : FFmt) (mode : Rnd) (isCos neg : Bool) (sig : Nat) (exp : Int) (x : Nat) : Nat :=
  if 0 ≤ exp then (if isCos then oneCode f else withSign f neg 0)
  else
    let d := (-exp).toNat
    let r4 := 4 * (sig % 2 ^ d)
    let k := r4 / 2 ^ d + if isCos then 1 else 0
    let t := r4 % 2 ^ d
    let k := k % 4
    let sneg := if isCos then decide (2 ≤ k) else (decide (2 ≤ k)) != neg
    if t = 0 then
      if k % 2 = 0 then withSign f (if isCos then false else neg) 0 else roundTo f mode false sneg 1 0 false
    else
      let a := fixMul (toFix t exp) (fixPi / 2)
      let sc := fixSinCos a
      decideRound f mode sneg (if k % 2 = 0 then sc.1 else sc.2) (-(fixN : Int)) (if isCos then 5 else 4) x

/-- log2 of a positive finite value (R42). -/
def log2Round (f : FFmt) (mode : Rnd) (sig : Nat) (exp : Int) (x : Nat) : Nat :=
  let l := bitlen sig - 1
  let e : Int := exp + l
  if sig = 2 ^ l then
    roundTo f mode false (decide (e < 0)) e.natAbs 0 false
  else
    let m := sig * 2 ^ (fixN - l)
    let z := (m - fixOne) * fixOne / (m + fixOne)
    let lg := 2 * fixAtanh z * fixOne / fixLn2
    let v : Int := e * (fixOne : Nat) + lg
    decideRound f mode (decide (v < 0)) v.natAbs (-(fixN : Int)) 3 x

/-- tanh of a nonzero finite value (R42). -/
def tanhRound (f : FFmt) (mode : Rnd) (neg : Bool) (sig : Nat) (exp : Int) (x : Nat) : Nat :=
  if 7 < exp + bitlen sig then roundTo f mode false neg (2 ^ 128 - 1) (-128) true
  else
    let u := 2 * toFix sig exp * fixOne / fixLn2
    let n := u / fixOne
    let fr := u % fixOne
    -- 2^-(n + fr) = 2^(1 - fr) / 2^(n + 1)
    let y := fixExp (fixMul (fixOne - fr) fixLn2) / 2 ^ (n + 1)
    decideRound f mode neg ((fixOne - y) * fixOne / (fixOne + y)) (-(fixN : Int)) 6 x

/-- A correctly rounded function of a code (R42). -/
def rfun (fn : RFun) (f : FFmt) (mode : Rnd) (code : Nat) : Nat :=
  let nan := f.nanCode.getD 0
  let inf (neg : Bool) := convertFloat (.inf neg) f .rne false
  match fn, decodeF f code with
  | _, .nan => nan
  | .rcp, x => divRound f mode (.fin false 1 0) x
  | .rsq, .inf neg => if neg then nan else 0
  | .rsq, .fin neg s e =>
    if s = 0 then inf neg
    else if neg then nan
    else
      let k : Nat := if e % 2 = 0 then 160 else 161
      let n := 2 ^ k
      let r := isqrt (n / s) 100
      roundTo f mode false false r ((-e - k) / 2) (n % s != 0 || r * r != n / s)
  | .exp2, .inf neg => if neg then 0 else inf false
  | .exp2, .fin neg s e =>
    if s = 0 then oneCode f
    else if 0 ≤ e then
      let n : Int := Int.ofNat (min (s * 2 ^ (min e 20).toNat) 100000)
      roundTo f mode false false 1 (max (-2000) (min 2000 (if neg then -n else n))) false
    else
      let d := (-e).toNat
      let q := s / 2 ^ d
      let r := s % 2 ^ d
      if r = 0 then
        let n : Int := Int.ofNat q
        roundTo f mode false false 1 (max (-2000) (min 2000 (if neg then -n else n))) false
      else if neg then exp2Round f mode (-(q : Int) - 1) (fixOne - toFix r e) code
      else exp2Round f mode q (toFix r e) code
  | .log2, .inf neg => if neg then nan else inf false
  | .log2, .fin neg s e => if s = 0 then inf true else if neg then nan else log2Round f mode s e code
  | .sin, .inf _ => nan
  | .sin, .fin neg s e => if s = 0 then withSign f neg 0 else trigRound f mode false neg s e code
  | .cos, .inf _ => nan
  | .cos, .fin neg s e => if s = 0 then oneCode f else trigRound f mode true neg s e code
  | .tanh, .inf neg => withSign f neg (oneCode f)
  | .tanh, .fin neg s e => if s = 0 then withSign f neg 0 else tanhRound f mode neg s e code

/-! ### Comparison (R163, R164) -/

/-- Compares two values that are no NaN: less, equal or greater. -/
def cmpNum (x y : Num) : Ordering :=
  match x, y with
  | .inf a, .inf b => if a = b then .eq else if a then .lt else .gt
  | .inf a, _ => if a then .lt else .gt
  | _, .inf b => if b then .gt else .lt
  | .fin a s e, .fin b t g =>
    let m := min e g
    compare (scaled a s e m) (scaled b t g m)
  | _, _ => .eq

/-- A value is a NaN. -/
def isNan : Num → Bool
  | .nan => true
  | _ => false

/-- The lesser of two codes, −0 below +0, NaN when either is (R163). -/
def minF (f : FFmt) (a b : Nat) : Nat :=
  let x := decodeF f a
  let y := decodeF f b
  if isNan x || isNan y then f.nanCode.getD 0
  else match cmpNum x y with
    | .lt => a
    | .gt => b
    | .eq => if a.testBit (f.width - 1) then a else b

/-- The greater of two codes, −0 below +0, NaN when either is (R163). -/
def maxF (f : FFmt) (a b : Nat) : Nat :=
  let x := decodeF f a
  let y := decodeF f b
  if isNan x || isNan y then f.nanCode.getD 0
  else match cmpNum x y with
    | .lt => b
    | .gt => a
    | .eq => if a.testBit (f.width - 1) then b else a

/-- A sum rounded once into a format (R162). -/
def addRound (f : FFmt) (mode : Rnd) (a b : Nat) : Nat :=
  convertFloat (addNum mode (decodeF f a) (decodeF f b)) f mode false

/-- A product rounded once into a format (R162). -/
def mulRound (f : FFmt) (mode : Rnd) (a b : Nat) : Nat :=
  convertFloat (mulNum (decodeF f a) (decodeF f b)) f mode false

/-- A fused multiply-add rounded once (R162). -/
def fmaRound (f : FFmt) (mode : Rnd) (np nc : Bool) (a b c : Nat) : Nat :=
  let p := mulNum (decodeF f a) (decodeF f b)
  let z := decodeF f c
  convertFloat (addNum mode (if np then negNum p else p) (if nc then negNum z else z)) f mode false

/-! ### Philox (R43) -/

/-- Philox-4x32-10. -/
def philox (c : Nat × Nat × Nat × Nat) (k : Nat × Nat) : Nat × Nat × Nat × Nat :=
  ((List.range 10).foldl (fun (st : (Nat × Nat × Nat × Nat) × (Nat × Nat)) i =>
    let k := if i = 0 then st.2 else ((st.2.1 + 0x9E3779B9) % 2 ^ 32, (st.2.2 + 0xBB67AE85) % 2 ^ 32)
    let c := st.1
    let p0 := 0xD2511F53 * c.1
    let p1 := 0xCD9E8D57 * c.2.2.1
    ((Nat.xor (Nat.xor (p1 / 2 ^ 32) c.2.1) k.1, p1 % 2 ^ 32, Nat.xor (Nat.xor (p0 / 2 ^ 32) c.2.2.2) k.2, p0 % 2 ^ 32), k)) (c, k)).1

/-- Word `j mod 4` of the Philox block of counter word c0 = `j div 4` (R44, R45). -/
def philoxWord (j c1 c2 c3 k0 k1 : Nat) : Nat :=
  let r := philox (j / 4, c1, c2, c3) (k0, k1)
  match j % 4 with
  | 0 => r.1
  | 1 => r.2.1
  | 2 => r.2.2.1
  | _ => r.2.2.2

end Sys2Proof.Machine
end

