-- ==== Sys2Proof/Syntax.lean ====
section
/-! DEFINITION. The syntax: one constructor of `Instr` per row of spec/opcode_table.json. A generator instruction carries the
fields R107 names for it; a slot op carries the fields of its slot field (R77, R78, R80, R81), because R82 gives every value
of an unused field a meaning (a fault at issue); a step that is no instruction word carries what it acts on. -/

namespace Sys2Proof

/-- A generator register number g0 to g31. -/
abbrev Reg := BitVec 5

/-- The two generator contexts of a core (R46). -/
inductive Ctx where
  | user
  | firmware
  deriving DecidableEq, Repr

/-- The six slots, in the order R63, R74 and R295 use. -/
inductive Slot where
  | s | v0 | v1 | m | x0 | x1
  deriving DecidableEq, Repr

/-- The agents whose translation faults are replayable (R269). -/
inductive Agent where
  | copyChannel | fibreStream | spargeChannel
  deriving DecidableEq, Repr

/-- S slot field, RRR form (R77), less its opcode. -/
structure SOp where
  tagw : BitVec 8
  taga : BitVec 4
  pred : BitVec 4
  mod : BitVec 6
  b : BitVec 6
  a : BitVec 6
  dst : BitVec 6
  deriving DecidableEq, Repr

/-- S slot field, RI form (R77), less its opcode. -/
structure SIOp where
  tagw : BitVec 8
  taga : BitVec 4
  pred : BitVec 4
  imm : BitVec 12
  a : BitVec 6
  dst : BitVec 6
  deriving DecidableEq, Repr

/-- V slot field (R78), less its opcode. -/
structure VOp where
  tagw : BitVec 8
  taga : BitVec 4
  xtra : BitVec 6
  beats : BitVec 4
  neg : BitVec 2
  sat : BitVec 1
  rnd : BitVec 2
  etype : BitVec 4
  msk : BitVec 3
  bk : BitVec 2
  c : BitVec 5
  b : BitVec 5
  a : BitVec 5
  dst : BitVec 5
  deriving DecidableEq, Repr

/-- M slot field (R80), less its opcode. -/
structure MOp where
  tagw : BitVec 8
  taga : BitVec 4
  mode : BitVec 2
  bsrc : BitVec 3
  ma : BitVec 3
  fb : BitVec 2
  fa : BitVec 2
  sel : BitVec 3
  beats : BitVec 8
  deriving DecidableEq, Repr

/-- X slot field, memory form (R81), less its opcode. -/
structure XMOp where
  tagw : BitVec 8
  taga : BitVec 4
  pol : BitVec 2
  col : BitVec 3
  ofs : BitVec 20
  base : BitVec 6
  reg : BitVec 6
  deriving DecidableEq, Repr

/-- X slot field, register form (R81), less its opcode; `rsv` is bit 43, which must be zero. -/
structure XROp where
  tagw : BitVec 8
  taga : BitVec 4
  rsv : BitVec 1
  sc : BitVec 3
  q : BitVec 4
  tmo : BitVec 5
  fn : BitVec 6
  c : BitVec 6
  b : BitVec 6
  a : BitVec 6
  deriving DecidableEq, Repr

/-- What a request that arrives over Purlin asks for (R375, R376, R378). -/
inductive RemoteOp where
  | read (len : Nat)
  | write (data : List Byte)
  | atomic (op : BitVec 4) (wide : Bool) (operand comparand : W64)
  | post (barrier bytes : Nat)
  | childArrival (barrier child : Nat)
  | treeCompletion (barrier : Nat)
  /-- the oldest class-2 flits of a link are acknowledged (R374) -/
  | syncAck (link n : Nat)
  /-- data returned for a read -/
  | reply (data : List Byte)
  deriving DecidableEq, Repr

/-- What another package sends (R372, R375): the sending package and group, the package it is for, the HBM offset it addresses, and
what it asks. -/
structure RemoteRequest where
  package : Nat
  group : Nat
  target : Nat
  offset : Nat
  op : RemoteOp
  deriving DecidableEq, Repr

/-- Who met an uncorrectable error (R389, READER). -/
inductive LossReader where
  | access | copyOrStream | scrub | writeBack | host
  deriving DecidableEq, Repr

/-- An uncorrectable error (R389, R390): the unit's class-5 cause, the unit's number, where the lost bytes stand (the address
as the report gives it), their length, who met it, the reading core and access where there is one, and the affected tasks. -/
structure LossReport where
  cause : BitVec 9
  unit : Nat
  base : W64
  len : Nat
  reader : LossReader
  core : Option Nat
  access : Option Nat
  kind : BitVec 3
  address : W64
  tasks : List Nat
  deriving DecidableEq, Repr

/-- The clock steps of R395. -/
inductive ClockStep where
  | full | mhz1050 | mhz900 | mhz600
  deriving DecidableEq, Repr

/-- The memories whose rows or ways are repaired (R387). -/
inductive RepairUnit where
  | thatch | l2
  deriving DecidableEq, Repr

/-- How a row repair ends (R387, R307). -/
inductive RepairOutcome where
  | repaired | noSpare | wayDisabled
  deriving DecidableEq, Repr

/-- The steps of the QX-PV9: one constructor per row of the opcode table. -/
inductive Instr where
  /-- GADD (R108): Writes gD with the 64-bit wrapping sum of gA and gB. -/
  | gadd (d a b : Reg)
  /-- GSUB (R108): Writes gD with gA minus gB, wrapping modulo 2^64. -/
  | gsub (d a b : Reg)
  /-- GMUL (R108): Writes gD with the low 64 bits of gA times gB. -/
  | gmul (d a b : Reg)
  /-- GMULH (R108): Writes gD with the high 64 bits of the signed 128-bit product. -/
  | gmulh (d a b : Reg)
  /-- GMULHN (R108): Writes gD with the high 64 bits of the unsigned 128-bit product. -/
  | gmulhn (d a b : Reg)
  /-- GDIV (R108): Writes gD with the signed quotient truncated toward zero, with defined results for division by zero and overflow. -/
  | gdiv (d a b : Reg)
  /-- GDIVN (R108): Writes gD with the unsigned quotient, or all ones on division by zero. -/
  | gdivn (d a b : Reg)
  /-- GREM (R108): Writes gD with the signed remainder, which takes the sign of the dividend. -/
  | grem (d a b : Reg)
  /-- GREMN (R108): Writes gD with the unsigned remainder, or with the dividend on division by zero. -/
  | gremn (d a b : Reg)
  /-- GAND (R108): Writes gD with the bitwise AND of gA and gB. -/
  | gand (d a b : Reg)
  /-- GOR (R108): Writes gD with the bitwise OR of gA and gB. -/
  | gor (d a b : Reg)
  /-- GXOR (R108): Writes gD with the bitwise XOR of gA and gB. -/
  | gxor (d a b : Reg)
  /-- GSHL (R108): Shifts gA left by gB[5:0] into gD. -/
  | gshl (d a b : Reg)
  /-- GSHR (R108): Shifts gA right by gB[5:0], filling with zeros, into gD. -/
  | gshr (d a b : Reg)
  /-- GSRA (R108): Shifts gA right by gB[5:0], filling with the sign bit, into gD. -/
  | gsra (d a b : Reg)
  /-- GMIN (R108): Writes gD with the signed minimum of gA and gB. -/
  | gmin (d a b : Reg)
  /-- GMAX (R108): Writes gD with the signed maximum of gA and gB. -/
  | gmax (d a b : Reg)
  /-- GADDI (R108): Writes gD with gA plus the sign-extended 15-bit immediate. -/
  | gaddi (d a : Reg) (imm : BitVec 15)
  /-- GANDI (R108): Writes gD with gA AND the sign-extended immediate. -/
  | gandi (d a : Reg) (imm : BitVec 15)
  /-- GORI (R108): Writes gD with gA OR the sign-extended immediate. -/
  | gori (d a : Reg) (imm : BitVec 15)
  /-- GXORI (R108): Writes gD with gA XOR the sign-extended immediate. -/
  | gxori (d a : Reg) (imm : BitVec 15)
  /-- GSHLI (R108): Shifts gA left by an immediate of 0 to 63 into gD. -/
  | gshli (d a : Reg) (sh : BitVec 6)
  /-- GSHRI (R108): Shifts gA right by an immediate, filling with zeros, into gD. -/
  | gshri (d a : Reg) (sh : BitVec 6)
  /-- GSRAI (R108): Shifts gA right by an immediate, filling with the sign bit, into gD. -/
  | gsrai (d a : Reg) (sh : BitVec 6)
  /-- GJALR (R112): Writes PC + 4 to gD and jumps to gA[47:0]. -/
  | gjalr (d a : Reg)
  /-- GLPGET (R114): Reads a field of loop register lpN into gD. -/
  | glpget (d : Reg) (n f : BitVec 2)
  /-- GLPSET (R114): Writes the count, start or end of lpN, or deactivates it. -/
  | glpset (n f : BitVec 2) (a : Reg)
  /-- GAMO (R117): Performs an atomic read-modify-write at gA at the point of coherence and returns the old value in gD. -/
  | gamo (d a b : Reg) (op : BitVec 4) (z : BitVec 1) (col : BitVec 3)
  /-- GMS (R123): Copies step register msN into gD. -/
  | gms (d : Reg) (n : BitVec 4)
  /-- GSYNC (R124): Waits until the selected issue, counter and memory conditions hold together, then writes 1 to gD, or 0 on expiry. -/
  | gsync (d b : Reg) (flags : BitVec 6)
  /-- GCMP (R110): Compares gA with gB under a condition code and writes C of steer register kK. -/
  | gcmp (k : BitVec 4) (cc : BitVec 3) (a b : Reg)
  /-- GBR (R112): Branches to the prepared target of kK when its condition is 1. -/
  | gbr (k : BitVec 4)
  /-- GBRF (R112): Branches to the prepared target of kK when its condition is 0. -/
  | gbrf (k : BitVec 4)
  /-- GFB (R123): Waits for feedback register fbN to be valid, then moves it to gA and clears its valid bit. -/
  | gfb (k : BitVec 4) (n : BitVec 3) (a b : Reg)
  /-- LAUNCH_T (R125): Reads a task record at gA and places it as a child in the pending-launch pool. -/
  | launchT (k : BitVec 4) (a b : Reg)
  /-- LAUNCH_G (R125): Reads a graph descriptor at gA and places the child graph in the pending-launch pool. -/
  | launchG (k : BitVec 4) (a b : Reg)
  /-- JOIN (R126): Waits until every child in the child set has ended, then writes the status words and empties the set. -/
  | join (k : BitVec 4) (a b : Reg)
  /-- QPUSH (R127): Pushes the 64-byte record at gA into a Mash task queue or its spill ring. -/
  | qpush (k : BitVec 4) (n : BitVec 2) (a b : Reg)
  /-- QPOP (R127): Waits for a record in a task queue and writes the head record to gA. -/
  | qpop (k : BitVec 4) (n : BitVec 2) (a b : Reg)
  /-- GBWAIT (R130): Waits for a phase of a Ridge barrier to complete, then invalidates the L1 lines of the spans bound to the barrier. -/
  | gbwait (k : BitVec 4) (a b : Reg)
  /-- CKDECIDE (R131): Waits for earlier probes, then evaluates the Cask skip rule for the task's key and sets C. -/
  | ckdecide (k : BitVec 4) (a : Reg)
  /-- EMIT (R119): Places one emit-queue entry naming a dictionary index. -/
  | emit (idx : BitVec 16)
  /-- EMITP (R119): Places one dictionary entry with patch values from consecutive g registers. -/
  | emitp (idx : BitVec 16) (mask : BitVec 4) (gp : Reg)
  /-- EMITL (R119): Places one literal bundle built from c0–c5, with optional patches. -/
  | emitl (mask : BitVec 4) (a : Reg)
  /-- EMITS (R120): Places one entry per item of a stored index stream, advancing gA and gB. -/
  | emits (a b : Reg)
  /-- CLDD (R121): Reads a dictionary entry from the Loft into c0–c5. -/
  | cldd (idx : BitVec 16)
  /-- CSET (R121): Writes compose register cN from gA. -/
  | cset (n : BitVec 3) (a : Reg)
  /-- CGET (R121): Reads compose register cN into gD. -/
  | cget (d : Reg) (n : BitVec 3)
  /-- TRET (R128): Ends the task with a retire code once its emitted ops have issued and its counters are zero. -/
  | tret (a : Reg)
  /-- GBARR (R129): Arrives at a Ridge barrier once the selected colours' stores are performed, and records the barrier and its phase. -/
  | gbarr (a : Reg) (cols : BitVec 8)
  /-- CKSTORE (R133): Copies the reference and output into the Cask cell and writes the directory entry. -/
  | ckstore (d a b : Reg)
  /-- GTRAP (R134): Raises software trap 0x078 with the immediate in detail word 0. -/
  | gtrap (imm : BitVec 15)
  /-- GERET (R135): Leaves handler mode and resumes the generator and the engine stream at the recorded stopping points. -/
  | geret (st : BitVec 1)
  /-- GCRR (R136): Reads a generator control register into gD; a read of MLT_FBSTAT clears its overrun bits. -/
  | gcrr (d : Reg) (n : BitVec 15)
  /-- GCRW (R136): Writes a generator control register from gA, with privilege and alignment checks. -/
  | gcrw (n : BitVec 15) (a : Reg)
  /-- GLI (R109): Writes gD with the sign-extended 32-bit immediate. -/
  | gli (d : Reg) (w2 : BitVec 32)
  /-- GLIH (R109): Writes the upper 32 bits of gD and keeps its lower half. -/
  | glih (d : Reg) (w2 : BitVec 32)
  /-- GCMPI (R110): Compares gA with a sign-extended 32-bit immediate into kK. -/
  | gcmpi (k : BitVec 4) (cc : BitVec 3) (a : Reg) (w2 : BitVec 32)
  /-- GPREP_PC (R111): Prepares a PC-relative branch target in kK and starts fetch there. -/
  | gprepPc (k : BitVec 4) (w2 : BitVec 32)
  /-- GPREP_REG (R111): Prepares the branch target gA plus an offset in kK. -/
  | gprepReg (k : BitVec 4) (a : Reg) (w2 : BitVec 32)
  /-- GJAL (R112): Writes PC + 8 to gD and jumps PC-relative. -/
  | gjal (d : Reg) (w2 : BitVec 32)
  /-- GLOOP (R113): Activates a hardware loop with explicit start, end and count. -/
  | gloop (n : BitVec 2) (a : Reg) (w2 : BitVec 32)
  /-- GLOOP_RE (R113): Re-arms a hardware loop from its architectural start and end registers. -/
  | gloopRe (n : BitVec 2) (a : Reg)
  /-- GLD (R115): Loads 1 to 8 bytes at gA plus an offset into gD. -/
  | gld (d a : Reg) (t : BitVec 3) (pol : BitVec 2) (w2 : BitVec 32)
  /-- GST (R115): Stores the low bytes of gB at gA plus an offset, with a colour. -/
  | gst (a b : Reg) (t pol : BitVec 2) (col : BitVec 3) (w2 : BitVec 32)
  /-- GPREF (R116): Prefetches a line into L1 or L2 and never faults. -/
  | gpref (a : Reg) (l : BitVec 1) (w2 : BitVec 32)
  /-- EMITN (R119): Places n entries with consecutive dictionary indices and the same patches. -/
  | emitn (idx : BitVec 16) (mask : BitVec 4) (gp : Reg) (n : BitVec 15)
  /-- GEN_LOAD_REPLY (R103): The data of a GLD, a GAMO or a CLDD arrives and is written to its register. -/
  | genLoadReply (core : Nat) (ctx : Ctx) (id : Nat)
  /-- SNOP (R140): S-slot no-op. -/
  | snop (f : SOp)
  /-- SADD (R140): Writes sD with sA plus sB. -/
  | sadd (f : SOp)
  /-- SADDI (R140): Writes sD with sA plus a sign-extended 12-bit immediate. -/
  | saddi (f : SIOp)
  /-- SSUB (R140): Writes sD with sA minus sB. -/
  | ssub (f : SOp)
  /-- SMUL (R140): Writes sD with the low 64 bits of the product. -/
  | smul (f : SOp)
  /-- SAND (R140): Writes sD with the bitwise AND. -/
  | sand (f : SOp)
  /-- SOR (R140): Writes sD with the bitwise OR. -/
  | sor (f : SOp)
  /-- SXOR (R140): Writes sD with the bitwise XOR. -/
  | sxor (f : SOp)
  /-- SSHL (R140): Shifts sA left by sB[5:0]. -/
  | sshl (f : SOp)
  /-- SSHR (R140): Shifts sA right with zero fill. -/
  | sshr (f : SOp)
  /-- SSRA (R140): Shifts sA right with sign fill. -/
  | ssra (f : SOp)
  /-- SMIN (R140): Writes sD with the signed or unsigned minimum. -/
  | smin (f : SOp)
  /-- SMAX (R140): Writes sD with the signed or unsigned maximum. -/
  | smax (f : SOp)
  /-- SLI (R140): Shifts sA left by 12 bits and inserts a 12-bit immediate. -/
  | sli (f : SIOp)
  /-- SCMP (R141): Compares two s registers into a predicate. -/
  | scmp (f : SOp)
  /-- SCMPI (R141): Compares an s register with an immediate into a predicate. -/
  | scmpi (f : SIOp)
  /-- SSEL (R140): Selects sA or sB by a predicate. -/
  | ssel (f : SOp)
  /-- SMS (R144): Reads a step register into sD. -/
  | sms (f : SOp)
  /-- SFB (R144): Sends sA to a feedback register of the emitting context. -/
  | sfb (f : SOp)
  /-- SSETFM (R145): Writes a format register, which becomes visible under the sequence-number rule. -/
  | ssetfm (f : SOp)
  /-- SSETMA (R145): Writes a matrix address register. -/
  | ssetma (f : SOp)
  /-- SSETCH (R147): Writes one field of a copy channel's program. -/
  | ssetch (f : SOp)
  /-- SSETMK (R146): Writes a mask register by prefix, range or 64-bit insert. -/
  | ssetmk (f : SOp)
  /-- SWAIT (R143): Waits until the selected per-class counters are at or below a limit, and writes a predicate. -/
  | swait (f : SOp)
  /-- STIME (R144): Reads the package cycle counter into sD. -/
  | stime (f : SOp)
  /-- SPRED (R142): Combines two predicates into a third. -/
  | spred (f : SOp)
  /-- VNOP (R157): V-slot no-op. -/
  | vnop (f : VOp)
  /-- VADD (R151): Adds integer lanes with wrapping. -/
  | vadd (f : VOp)
  /-- VSUB (R151): Subtracts integer lanes with wrapping. -/
  | vsub (f : VOp)
  /-- VMUL (R151): Multiplies integer lanes, wrapping or saturating. -/
  | vmul (f : VOp)
  /-- VMULH (R151): Takes the high half of each exact integer product. -/
  | vmulh (f : VOp)
  /-- VMAD (R151): Forms a product plus an addend per lane, with negation and saturation. -/
  | vmad (f : VOp)
  /-- VWADD (R152): Adds after widening part of the source lanes. -/
  | vwadd (f : VOp)
  /-- VWMUL (R152): Multiplies after widening part of the source lanes. -/
  | vwmul (f : VOp)
  /-- VSADD (R151): Adds integer lanes with saturation. -/
  | vsadd (f : VOp)
  /-- VSSUB (R151): Subtracts integer lanes with saturation. -/
  | vssub (f : VOp)
  /-- VMIN (R151): Takes the lane-wise integer minimum. -/
  | vmin (f : VOp)
  /-- VMAX (R151): Takes the lane-wise integer maximum. -/
  | vmax (f : VOp)
  /-- VABS (R151): Takes the lane-wise absolute value. -/
  | vabs (f : VOp)
  /-- VAND (R151): Takes the lane-wise bitwise AND. -/
  | vand (f : VOp)
  /-- VOR (R151): Takes the lane-wise bitwise OR. -/
  | vor (f : VOp)
  /-- VXOR (R151): Takes the lane-wise bitwise XOR. -/
  | vxor (f : VOp)
  /-- VSHL (R151): Shifts lanes left, optionally with saturation. -/
  | vshl (f : VOp)
  /-- VSHR (R151): Shifts lanes right with zero fill. -/
  | vshr (f : VOp)
  /-- VSRA (R151): Shifts lanes right with sign fill. -/
  | vsra (f : VOp)
  /-- VCLZ (R151): Counts the leading zeros of each lane. -/
  | vclz (f : VOp)
  /-- VPOPC (R151): Counts the one bits of each lane. -/
  | vpopc (f : VOp)
  /-- VCMP (R153): Compares integer lanes into a mask register. -/
  | vcmp (f : VOp)
  /-- VSEL (R151): Selects lanes of a or b by a mask. -/
  | vsel (f : VOp)
  /-- VMOV (R151): Copies the b operand into the enabled lanes. -/
  | vmov (f : VOp)
  /-- VBCAST (R154): Broadcasts one source lane to the enabled lanes. -/
  | vbcast (f : VOp)
  /-- VIOTA (R154): Writes an arithmetic sequence into the lanes. -/
  | viota (f : VOp)
  /-- VPERM (R154): Permutes lanes by an index vector. -/
  | vperm (f : VOp)
  /-- VROT (R154): Rotates the lanes. -/
  | vrot (f : VOp)
  /-- VCMPRS (R155): Compresses the enabled lanes to the bottom of the destination. -/
  | vcmprs (f : VOp)
  /-- VEXPND (R155): Expands the low lanes into the enabled lanes. -/
  | vexpnd (f : VOp)
  /-- VSCAN (R156): Forms the inclusive integer prefix add, min or max. -/
  | vscan (f : VOp)
  /-- VRED (R156): Reduces the integer lanes into lane 0. -/
  | vred (f : VOp)
  /-- VFADD (R162): Floating add with one rounding. -/
  | vfadd (f : VOp)
  /-- VFSUB (R162): Floating subtract with one rounding. -/
  | vfsub (f : VOp)
  /-- VFMUL (R162): Floating multiply with one rounding. -/
  | vfmul (f : VOp)
  /-- VFMA (R162): Fused multiply-add with negation and one rounding. -/
  | vfma (f : VOp)
  /-- VFMIN (R163): Floating minimum with -0 below +0. -/
  | vfmin (f : VOp)
  /-- VFMAX (R163): Floating maximum with -0 below +0. -/
  | vfmax (f : VOp)
  /-- VFCMP (R164): Compares floating lanes into a mask. -/
  | vfcmp (f : VOp)
  /-- VFDIV (R162): Floating divide with one rounding. -/
  | vfdiv (f : VOp)
  /-- VFSQRT (R162): Floating square root with one rounding. -/
  | vfsqrt (f : VOp)
  /-- VFRCP (R42): Correctly rounded reciprocal. -/
  | vfrcp (f : VOp)
  /-- VFRSQ (R42): Correctly rounded reciprocal square root. -/
  | vfrsq (f : VOp)
  /-- VFEXP2 (R42): Correctly rounded 2^x. -/
  | vfexp2 (f : VOp)
  /-- VFLOG2 (R42): Correctly rounded log2 x. -/
  | vflog2 (f : VOp)
  /-- VFSIN (R42): Correctly rounded sin 2πx. -/
  | vfsin (f : VOp)
  /-- VFCOS (R42): Correctly rounded cos 2πx. -/
  | vfcos (f : VOp)
  /-- VFTANH (R42): Correctly rounded tanh x. -/
  | vftanh (f : VOp)
  /-- VFSCAN (R165): Floating prefix sum, min or max in Hillis–Steele order. -/
  | vfscan (f : VOp)
  /-- VFRED (R165): Floating reduction along the pairwise tree into lane 0. -/
  | vfred (f : VOp)
  /-- VTOPK (R171): Selects the k largest candidate lanes with their indices and count. -/
  | vtopk (f : VOp)
  /-- VCVT (R166): Converts lanes to lanes, packs lanes to narrow elements, or unpacks narrow elements to lanes. -/
  | vcvt (f : VOp)
  /-- VPKGM (R169): Packs lanes into Grist blocks. -/
  | vpkgm (f : VOp)
  /-- VUPGM (R169): Unpacks Grist blocks into lanes. -/
  | vupgm (f : VOp)
  /-- VPKMX (R170): Packs lanes into MX elements and scales. -/
  | vpkmx (f : VOp)
  /-- VUPMX (R170): Unpacks MX elements and scales into lanes. -/
  | vupmx (f : VOp)
  /-- VRAND (R172): Fills the lanes with Philox words. -/
  | vrand (f : VOp)
  /-- CKPROBE (R173): Accumulates the distance to a reference into the probe accumulator. -/
  | ckprobe (f : VOp)
  /-- VPOPQ (R174): Pops one drain-queue row into a vector register. -/
  | vpopq (f : VOp)
  /-- MNOP (R183): M-slot no-op. -/
  | mnop (f : MOp)
  /-- MLDA (R184): Latches one A chunk from the scratchpad. -/
  | mlda (f : MOp)
  /-- MLDAT (R184): Latches one transposed A chunk. -/
  | mldat (f : MOp)
  /-- MACC (R185): Accumulates A times the B plane stream into the active bank under the bundle's profile. -/
  | macc (f : MOp)
  /-- MZERO (R188): Zeroes the selected banks. -/
  | mzero (f : MOp)
  /-- MSWAP (R188): Exchanges the active and draining banks. -/
  | mswap (f : MOp)
  /-- MDRAIN (R189): Drains the masked rows of the draining bank into a drain queue, converted by a format register. -/
  | mdrain (f : MOp)
  /-- MDRAINC (R189): Drains 128 transposed rows of the draining bank. -/
  | mdrainc (f : MOp)
  /-- MACCLD (R190): Loads rows of the draining bank from the scratchpad. -/
  | maccld (f : MOp)
  /-- MMASK (R192): Sets the 256-bit row mask. -/
  | mmask (f : MOp)
  /-- MGANG (R193): Joins or leaves the core's gang of four. -/
  | mgang (f : MOp)
  /-- MWREL (R194): Releases a weight-buffer half for refilling. -/
  | mwrel (f : MOp)
  /-- XNOP (R100): X-slot no-op. -/
  | xnop (f : XROp)
  /-- VLD (R201): Loads 512 bytes into a vector register. -/
  | vld (f : XMOp)
  /-- VST (R201): Stores a vector register with a colour. -/
  | vst (f : XMOp)
  /-- VLDS (R201): Loads 32-bit lanes with a stride. -/
  | vlds (f : XMOp)
  /-- VSTS (R201): Stores 32-bit lanes with a stride. -/
  | vsts (f : XMOp)
  /-- SLD (R201): Loads 8 bytes into an s register. -/
  | sld (f : XMOp)
  /-- SST (R201): Stores 8 bytes of an s register. -/
  | sst (f : XMOp)
  /-- PREF (R205): Prefetches 512 bytes and never faults. -/
  | pref (f : XMOp)
  /-- INVL (R205): Writes back and invalidates the L1 lines of a span. -/
  | invl (f : XROp)
  /-- WBL (R205): Writes back the dirty bytes of the L1 lines of a span. -/
  | wbl (f : XROp)
  /-- AMO (R217): Performs an atomic from the X slot, with the result returned to sA. -/
  | amo (f : XROp)
  /-- COUNTED_REPLY (R297): The reply of a counted load or atomic arrives, writes its register or reports an error, decrements its counter and clears its tag. -/
  | countedReply (core id : Nat)
  /-- STORE_PERFORMED (R199): A counted store is performed at core scope and its S count is released. -/
  | storePerformed (core id : Nat)
  /-- CPGO (R206): Checks and latches a copy program and starts the channel running. -/
  | cpgo (f : XROp)
  /-- CPSTOP (R212): Stops a running channel after the copy in progress. -/
  | cpstop (f : XROp)
  /-- CPDRAIN (R212): Waits until a channel is idle and all its copies are delivered. -/
  | cpdrain (f : XROp)
  /-- CPWP (R212): Reads a channel's write pointer into sA. -/
  | cpwp (f : XROp)
  /-- CPWP_OOB (R212): Reads a channel's out-of-bounds counter into sA. -/
  | cpwpOob (f : XROp)
  /-- COPY_ISSUE (R207): A running channel issues its next copy in its latency class, reading source or fill bytes. -/
  | copyIssue (core ch : Nat)
  /-- CPGO_PHASED_START (R210): The package cycle counter reaches a phased channel's start cycle, and it issues its first copy. -/
  | cpgoPhasedStart (core ch : Nat)
  /-- GATHER_INDEX_READ (R211): A gather-mode channel's batch of 8 index entries arrives. -/
  | gatherIndexRead (core ch : Nat)
  /-- COPY_DELIVERY (R209): Copy bytes are delivered, the write pointer advances, and the C count is released at the total. -/
  | copyDelivery (core ch k n : Nat)
  /-- COPY_BYTE_POST (R225): A delivered copy posts its byte count to a barrier's PEND. -/
  | copyBytePost (core ch k : Nat)
  /-- GAPUSH (R214): Pushes gather addresses into aq. -/
  | gapush (f : XROp)
  /-- GATHER_ELEMENT_ARRIVAL (R214): A gathered element returns and enters gq in push order. -/
  | gatherElementArrival (core id : Nat)
  /-- GDPOP (R215): Waits for gathered elements and pops them into a vector register. -/
  | gdpop (f : XROp)
  /-- SCPUSH (R216): Scatters lanes to addresses in lane order. -/
  | scpush (f : XROp)
  /-- WSSUB (R227): Subscribes a weight buffer to a multicast group. -/
  | wssub (f : XROp)
  /-- WSUNS (R227): Ends a weight buffer's subscription. -/
  | wsuns (f : XROp)
  /-- FENCE (R219): Waits until the selected colours' stores are performed at a scope. -/
  | fence (f : XROp)
  /-- ACQ (R221): Waits for a latch generation, then writes back and invalidates the bound L1 lines. -/
  | acq (f : XROp)
  /-- REL (R220): Writes back the bound lines, waits for the colour's stores and increments a latch. -/
  | rel (f : XROp)
  /-- REL_INCREMENT (R220): A REL's stores are performed, and the latch is incremented atomically at its point of coherence. -/
  | relIncrement (core id : Nat)
  /-- BIND (R218): Adds a span-to-latch or span-to-barrier binding. -/
  | bind (f : XROp)
  /-- UNBIND (R218): Removes bindings. -/
  | unbind (f : XROp)
  /-- PUBLISH (R222): Waits for this core's writes to a publish slot, then exchanges its backings. -/
  | publish (f : XROp)
  /-- BARR (R224): Arrives at a barrier after the selected colours' stores are performed. -/
  | barr (f : XROp)
  /-- BEXP (R225): Adds an expected byte count to a barrier's PEND. -/
  | bexp (f : XROp)
  /-- BWAIT (R226): Waits for a barrier phase to complete, then invalidates the bound lines. -/
  | bwait (f : XROp)
  /-- BARRIER_ARRIVAL (R223): An arrival reaches a Ridge barrier and is counted or held. -/
  | barrierArrival (core id : Nat)
  /-- BARRIER_PHASE_COMPLETE (R223): ARRIVED equals TARGET with PEND 0, so the phase completes and PHASE flips. -/
  | barrierPhaseComplete (n : Nat)
  /-- BARRIER_CHILD_CLOSE (R378): A child barrier closes and sends one arrival to its parent barrier. -/
  | barrierChildClose (n : Nat)
  /-- TREE_COMPLETION_ARRIVAL (R378): A completion from the parent barrier reaches a closed child, which completes. -/
  | treeCompletionArrival (n : Nat)
  /-- FOPEN (R239): Opens a fibre stream on a descriptor level and parent position. -/
  | fopen (f : XROp)
  /-- FCLOSE (R238): Closes a fibre stream. -/
  | fclose (f : XROp)
  /-- FNEXT (R240): Delivers up to 128 coordinate and position pairs. -/
  | fnext (f : XROp)
  /-- FINT (R240): Intersects two fibres into a batch. -/
  | fint (f : XROp)
  /-- FUNI (R240): Unions two fibres into a batch. -/
  | funi (f : XROp)
  /-- FSKIP (R240): Advances a fibre to a target coordinate. -/
  | fskip (f : XROp)
  /-- FCHILD (R239): Opens the child level under a stream's position. -/
  | fchild (f : XROp)
  /-- FPOS (R242): Reads a stream's next position and end flag. -/
  | fpos (f : XROp)
  /-- FSAVE (R243): Stores a stream's 64-byte state. -/
  | fsave (f : XROp)
  /-- FLOAD (R243): Loads and checks a stream's 64-byte state. -/
  | fload (f : XROp)
  /-- FVAL (R241): Gathers values at positions into a vector register. -/
  | fval (f : XROp)
  /-- FEND (R242): Writes a predicate telling whether a stream is at end. -/
  | fend (f : XROp)
  /-- REPLAYABLE_FAULT_PARK (R269): A copy, stream or Sparge channel parks on a fault and appends a record to the host fault queue. -/
  | replayableFaultPark (core : Nat) (agent : Agent) (n : Nat)
  /-- QUANTUM_EXPIRY (R330): A task's quantum ends, and it is pre-empted if a task of equal or higher level could take the core. -/
  | quantumExpiry (core : Nat)
  /-- YIELD_THRESHOLD_EXPIRY (R331): A generator wait passes the yield threshold, so the instruction is cancelled and the task gives up its core. -/
  | yieldThresholdExpiry (core : Nat)
  /-- CONTEXT_SAVE_COMPLETE (R306): Firmware has saved a stopped task's context into a save slot, and the task becomes ready bound to its core. -/
  | contextSaveComplete (core : Nat)
  /-- CONTEXT_RESTORE_COMPLETE (R330): A saved context is restored on its core, and the task resumes. -/
  | contextRestoreComplete (core : Nat)
  /-- DISPATCH (R328): A die's dispatcher places one ready task on a free core by level, credit and order. -/
  | dispatch (die : Nat)
  /-- GANG_RESERVE (R329): A gang task that has not fitted for DSP_AGE cycles reserves a half-cluster. -/
  | gangReserve (die task : Nat)
  /-- TASK_RETIRE (R291): A retiring task's L1, stores, copies and publishes complete, and the task leaves the core. -/
  | taskRetire (core : Nat)
  /-- TASK_END (R343): The Mash sequencer records a task's end, writes its retire record and releases successors whose count reaches zero. -/
  | taskEnd (task : Nat)
  /-- STEP_START (R343): The sequencer reads the step's schedule record, takes any checkpoint, loads the step registers and releases root tasks. -/
  | stepStart (graph : Nat)
  /-- STEP_END (R343): Every task of the step has ended, so the boost clears and the next step or graph end follows. -/
  | stepEnd (graph : Nat)
  /-- STAGE_DEADLINE_EXPIRY (R350): A stage deadline expires with unended tasks, so an event is logged, the bay is boosted and tasks may be killed or a handler started. -/
  | stageDeadlineExpiry (graph stage : Nat)
  /-- STEP_RERUN (R352): A range report in a checkpointed step kills its tasks, restores the checkpoint and runs the step again. -/
  | stepRerun (graph : Nat)
  /-- SEQUENCER_ASSIGN (R339): A waiting RUN or child graph obtains a free Mash sequencer. -/
  | sequencerAssign (graph : Nat)
  /-- GRAPH_ACCEPT (R342): The sequencer reads and validates the graph and captures successor lists and predecessor counts, or refuses it. -/
  | graphAccept (graph : Nat)
  /-- QUEUE_SERVICE (R347): The sequencer applies the pops and then the pushes that reach a task queue in one cycle. -/
  | queueService (graph q : Nat)
  /-- RING_TO_QUEUE_MOVE (R384): A record moves from a spill ring head to the queue tail. -/
  | ringToQueueMove (graph q : Nat)
  /-- DET_COMMIT (R335): A deterministic task first in commit order commits its shadow at one publish point. -/
  | detCommit (bay : Nat)
  /-- PACKET_COMPLETION_RECORD (R323): A packet completes and writes its completion record at system scope. -/
  | packetCompletionRecord (packet : Nat)
  /-- SPARGE_START (R365): A valid Sparge program takes a free channel when its group has no running stream. -/
  | spargeStart (part : Nat)
  /-- SPARGE_PORTION_WRITE (R367): With every subscriber's next-fill half empty, a 64 KiB portion is written into them and marked full. -/
  | spargePortionWrite (ch : Nat)
  /-- SPARGE_STREAM_COMPLETE (R368): The final portion is full in every buffer, and the channel is free. -/
  | spargeStreamComplete (ch : Nat)
  /-- SPARGE_STREAM_STOP (R368): A stream still running at graph end is stopped and counted as a killed part. -/
  | spargeStreamStop (ch : Nat)
  /-- LINKED_COPY_COMPLETE (R327): A firmware-copy linked part completes. -/
  | linkedCopyComplete (part : Nat)
  /-- BARRIER_EXPECTATION_ARRIVAL (R225): A BEXP's addition reaches its Ridge barrier and is applied to PEND in the phase then current, which may complete the phase or overflow. -/
  | barrierExpectationArrival (core id : Nat)
  /-- GYIELD (R137): Asks the Mash sequencer to pre-empt the task when another ready task would take the core. -/
  | gyield
  /-- GIFENCE (R137): Waits for earlier stores and expansions, then empties the instruction and dictionary caches. -/
  | gifence
  /-- CKSKIP (R132): Republishes the stored Cask output, increments SKIPS and retires the task as skipped. -/
  | ckskip
  /-- GNOP (R137): Changes nothing. -/
  | gnop
  /-- EMITN_ENTRY_PLACE (R119): An EMITN or EMITS places its next entry when the emit queue has a free entry. -/
  | emitnEntryPlace (core : Nat) (ctx : Ctx)
  /-- GEN_WAIT_COMPLETE (R104): The condition of a waiting generator instruction holds, so it performs its effect and sets C to 1. -/
  | genWaitComplete (core : Nat) (ctx : Ctx)
  /-- GEN_WAIT_TIMEOUT (R104): A waiting generator instruction's timeout expires, so it writes C to 0 and does nothing else. -/
  | genWaitTimeout (core : Nat) (ctx : Ctx)
  /-- EXPAND_BUNDLE (R75): The expander takes the head entry of the emit queue, resolves, patches and checks it, and appends its ops to the slot queues. -/
  | expandBundle (core : Nat)
  /-- DICTIONARY_MISS_FILL (R59): A dictionary cache miss completes its 48-byte Loft read, and the expander resumes. -/
  | dictionaryMissFill (core : Nat)
  /-- EXPOSED_RESULT_LANDS (R62): An exposed-latency result is written at the end of its latency, and its tag clears. -/
  | exposedResultLands (core : Nat)
  /-- FEEDBACK_WRITE (R70): The value of an SFB reaches its feedback register, which sets its valid bit or its overrun bit. -/
  | feedbackWrite (core : Nat)
  /-- SWAIT_COMPLETE (R143): An SWAIT's counters reach the limit, or its timeout runs out, and it writes its predicate. -/
  | swaitComplete (core : Nat)
  /-- V_BEAT (R150): A later beat of a multi-beat V op issues and reads its registers. -/
  | vBeat (core : Nat) (slot : Slot)
  /-- MACC_BEAT (R185): A MACC beat runs, waiting for its weight half to fill if needed, and a group is accumulated. -/
  | maccBeat (core : Nat)
  /-- DRAIN_ROW_PUSH (R191): A drain pushes one row into its queue, or raises queue overflow when the queue is full. -/
  | drainRowPush (core : Nat)
  /-- X_WAIT_COMPLETE (R198): A waiting X op's condition holds, so it completes with Q true. -/
  | xWaitComplete (core : Nat) (slot : Slot)
  /-- X_WAIT_TIMEOUT (R198): A waiting X op's timeout runs out, so it completes with Q false. -/
  | xWaitTimeout (core : Nat) (slot : Slot)
  /-- FIBRE_OP_COMPLETE (R234): A memory-reading fibre op completes, writing its results or stopping on a class-3 condition. -/
  | fibreOpComplete (core : Nat) (slot : Slot)
  /-- PAGE_WALK (R264): A translation walk completes, giving a translation or a fault kind. -/
  | pageWalk (core : Nat) (va : W64)
  /-- FQ_VERDICT_REPLAY (R381): A write to HST_FQVERD with verdict replay makes the parked agent translate again. -/
  | fqVerdictReplay (token : Nat)
  /-- FQ_VERDICT_REFUSE (R381): A write to HST_FQVERD with verdict refuse stops the parked agent with replay refused. -/
  | fqVerdictRefuse (token : Nat)
  /-- FQ_ENABLE (R380): Setting HST_FQ.EN enables the fault queue, with the count and tokens starting at 0. -/
  | fqEnable (w0 w1 : W64)
  /-- STOP_BOUNDARY (R295): After a fault or stop request, issue has ceased and the stop boundary is reached; results in flight enter the snapshot buffer. -/
  | stopBoundary (core : Nat)
  /-- SNAPSHOT_ENTRY_LANDS (R299): A snapshot entry writes its destination REM cycles after resumption, and its tag clears. -/
  | snapshotEntryLands (core : Nat)
  /-- RING_TAIL_UPDATE (R320): A host write invalidates a ring's tail line, and the device re-reads TAIL and reads new packets. -/
  | ringTailUpdate (ring : Nat)
  /-- RING_ENABLE (R319): Setting HST_RING.EN enables a submission ring with HEAD and TAIL counted from 0. -/
  | ringEnable (ring : Nat) (w0 w1 : W64)
  /-- RING_ERR_CLEAR (R319): Writing 1 to ERR clears a ring stopped on a bad tail. -/
  | ringErrClear (ring : Nat)
  /-- RUN_PACKET (R322): Starts a step graph in a bay, with its buffer list, link list and seed. -/
  | runPacket (ring : Nat)
  /-- BAY_CREATE (R316): Creates a bay from an image and allocates its Loft extents. -/
  | bayCreate (ring : Nat)
  /-- BAY_MODIFY (R316): Modifies a bay from an image. -/
  | bayModify (ring : Nat)
  /-- BAY_KILL (R334): Kills a bay and its descendants and frees their extents. -/
  | bayKill (ring : Nat)
  /-- COPY_PACKET (R322): Firmware copies bytes in the bay's address space. -/
  | copyPacket (ring : Nat)
  /-- FENCE_PACKET (R321): Holds later packets of the ring until every earlier packet has completed. -/
  | fencePacket (ring : Nat)
  /-- SIGNAL_PACKET (R322): Writes its completion record once every earlier packet of the ring has completed. -/
  | signalPacket (ring : Nat)
  /-- CONFIG_RIDGE_BARRIER (R322): Sets a barrier's TARGET and scope and clears its state. -/
  | configRidgeBarrier (ring : Nat)
  /-- CONFIG_PUBLISH_SLOT (R271): Writes a whole publish slot record, or refuses it. -/
  | configPublishSlot (ring : Nat)
  /-- CONFIG_TRANSLATION_INVALIDATION (R268): Drops translations of a VA range for a bay and completes when accesses through them are performed. -/
  | configTranslationInvalidation (ring : Nat)
  /-- CONFIG_CASK_POLICY (R357): Replaces one Cask policy of the bay. -/
  | configCaskPolicy (ring : Nat)
  /-- REMOTE_REQUEST_ARRIVAL (R375): A request arrives over Purlin and is served by a Loft window or by HBM after the checks. -/
  | remoteRequestArrival (r : RemoteRequest)
  /-- FLIT_CRC_RETRY (R374): A flit fails its CRC and is sent again by link-level retry. -/
  | flitCrcRetry (link : Nat)
  /-- LANE_FAILURE (R374): A failing lane is spared, or the link runs at reduced width. -/
  | laneFailure (link : Nat)
  /-- FLIT_LOST (R374): A flit lost after retries ends its accesses with fault kind 6. -/
  | flitLost (link core id : Nat)
  /-- LINK_DOWN (R374): A link goes down, leaves its route sets and resends unacknowledged class-2 flits. -/
  | linkDown (link : Nat)
  /-- CXL_POISONED_COMPLETION (R379): A poisoned completion on a device read is logged and ends the read with fault kind 6. -/
  | cxlPoisonedCompletion (port core id : Nat)
  /-- CXL_COMPLETION_TIMEOUT (R379): A completion timeout on a device read is logged and ends the read with fault kind 6. -/
  | cxlCompletionTimeout (port core id : Nat)
  /-- REGISTER_WRITE (R379): A host write to a BAR0 register that has no row of its own, such as EAV_ACT, PLK_ROUTE, PLK_LWIN or RDG_TREE. -/
  | registerWrite (offset : Nat) (value : W64)
  /-- PATROL_SCRUB (R388): A scrub reads a granule and writes back corrected words only if the granule is unwritten. -/
  | patrolScrub (stack address : Nat) (corrected : Bool)
  /-- UNCORRECTABLE_ERROR (R390): An uncorrectable error produces range reports, and affected tasks are killed and re-run or faulted. -/
  | uncorrectableError (r : LossReport)
  /-- CORE_REPAIR (R391): A failing core's task is saved and moved to a spare, or the index goes offline. -/
  | coreRepair (core : Nat) (spareLeft : Bool)
  /-- HBM_CHANNEL_SPARING (R392): An HBM pseudo-channel is copied to a spare channel. -/
  | hbmChannelSparing (stack : Nat) (spareLeft : Bool)
  /-- FIRMWARE_UPDATE (R393): A core's firmware image is replaced after its digest check, and the epoch increases. -/
  | firmwareUpdate (core : Nat) (image digest : List Byte)
  /-- RECALIBRATION (R394): An island stalls for up to 24,000 cycles for voltage and frequency recalibration. -/
  | recalibration (die cluster cycles : Nat)
  /-- CLOCK_STEP (R395): A power cap or temperature steps a die's arithmetic clock down or up. -/
  | clockStep (die : Nat) (step : ClockStep) (cause : BitVec 9)
  /-- THERMAL_SHUTDOWN (R395): At 110 °C every task is stopped and the package powers down. -/
  | thermalShutdown (die : Nat)
  /-- PACKAGE_RESET (R316): Firmware creates bay 0 with every core and its reset fields. -/
  | packageReset
  /-- GET_MEASUREMENTS (R397): An SPDM request returns the measurements, including the signed determinism manifest at index 0x40. -/
  | getMeasurements (index : Nat)
  /-- TELEMETRY_READ (R398): A vendor-defined DOE object returns the telemetry counters without changing state. -/
  | telemetryRead
  /-- HOST_CXL_MEM_ACCESS (R287): A host read or write over CXL.mem reaches HDM, is performed at the line's point of coherence, and back-invalidation keeps the host's copies coherent. -/
  | hostCxlMemAccess (address len : Nat) (data : List Byte)
  /-- CXL_CACHE_SNOOP (R286): A host or pool-device write or snoop under CXL.cache invalidates or answers for an L2 copy of a host-memory or pool line. -/
  | cxlCacheSnoop (address : Nat) (data : List Byte)
  /-- LONG_REACH_READ_ARRIVAL (R371): A long-reach read from a cabled package arrives at a stack's Eave endpoint, is checked against the access table with LR, and is served by the controller. -/
  | longReachReadArrival (stack package group offset len : Nat)
  /-- ROW_REPAIR (R387): A Thatch or L2 row is repaired in place, or an L2 slice way is disabled, and the event is logged. -/
  | rowRepair (unit : RepairUnit) (index : Nat) (outcome : RepairOutcome)
  deriving DecidableEq, Repr

end Sys2Proof
end

