-- ==== Sys2Proof/Decode.lean ====
section
/-! DEFINITION. Decoding and encoding. Generator words (R94 to R96) are read as one number with the first word lowest; a slot
field (R77 to R81, R97 to R100) is read as one number with its bit 0 lowest. Decoding is total and names what it rejects (R95,
R101). -/

namespace Sys2Proof

/-- Why a generator word is no instruction (R95, R50), in the order in which the codes are reported. -/
inductive DecodeError where
  | reservedOpcode
  | reservedFunction
  | reservedField
  | steerInvalid
  deriving DecidableEq, Repr

/-- The cause code of a decode error (R95, R50). -/
def DecodeError.cause : DecodeError → BitVec 9
  | .reservedOpcode => 0x040
  | .reservedFunction => 0x041
  | .reservedField => 0x042
  | .steerInvalid => 0x048

/-- What decoding a generator word answers. -/
inductive Decoded where
  | ok (i : Instr)
  | bad (e : DecodeError)
  deriving DecidableEq, Repr

/-- The instruction unless a condition of R95 holds: an undefined value in a used field, a nonzero unused field, a steer
register above k11; the lowest code is the one reported. -/
def chk (function field steer : Bool) (i : Instr) : Decoded :=
  if function then .bad .reservedFunction
  else if field then .bad .reservedField
  else if steer then .bad .steerInvalid
  else .ok i

/-- Bytes of a generator instruction, from its first word (R94). -/
def genLength (w : Nat) : Nat := if w % 2 ^ 7 < 0x40 then 4 else 8

/-- The instruction of a generator word (R94 to R96, R107); DEDUCED which of 0x041 and 0x042 each field condition raises, see
assumption 11. -/
def decodeGen (w : Nat) : Decoded :=
  let d := fld w 7 5
  let a := fld w 12 5
  let b := fld w 17 5
  let f10 := fld w 22 10
  let idx := fld w 7 16
  let k11 := fld w 11 1 != 0
  let kbad := decide (11 < fld w 7 4)
  let gd : Reg := fbv w 7 5
  let ga : Reg := fbv w 12 5
  let gb : Reg := fbv w 17 5
  let gk : BitVec 4 := fbv w 7 4
  let gi : BitVec 16 := fbv w 7 16
  let w2 : BitVec 32 := fbv w 32 32
  match w % 2 ^ 7 with
  | 0x00 => chk false (f10 != 0) false (.gadd gd ga gb)
  | 0x01 => chk false (f10 != 0) false (.gsub gd ga gb)
  | 0x02 => chk false (f10 != 0) false (.gmul gd ga gb)
  | 0x03 => chk false (f10 != 0) false (.gmulh gd ga gb)
  | 0x04 => chk false (f10 != 0) false (.gmulhn gd ga gb)
  | 0x05 => chk false (f10 != 0) false (.gdiv gd ga gb)
  | 0x06 => chk false (f10 != 0) false (.gdivn gd ga gb)
  | 0x07 => chk false (f10 != 0) false (.grem gd ga gb)
  | 0x08 => chk false (f10 != 0) false (.gremn gd ga gb)
  | 0x09 => chk false (f10 != 0) false (.gand gd ga gb)
  | 0x0A => chk false (f10 != 0) false (.gor gd ga gb)
  | 0x0B => chk false (f10 != 0) false (.gxor gd ga gb)
  | 0x0C => chk false (f10 != 0) false (.gshl gd ga gb)
  | 0x0D => chk false (f10 != 0) false (.gshr gd ga gb)
  | 0x0E => chk false (f10 != 0) false (.gsra gd ga gb)
  | 0x0F => chk false (f10 != 0) false (.gmin gd ga gb)
  | 0x10 => chk false (f10 != 0) false (.gmax gd ga gb)
  | 0x11 => .ok (.gaddi gd ga (fbv w 17 15))
  | 0x12 => .ok (.gandi gd ga (fbv w 17 15))
  | 0x13 => .ok (.gori gd ga (fbv w 17 15))
  | 0x14 => .ok (.gxori gd ga (fbv w 17 15))
  | 0x15 => chk (63 < fld w 17 15) false false (.gshli gd ga (fbv w 17 6))
  | 0x16 => chk (63 < fld w 17 15) false false (.gshri gd ga (fbv w 17 6))
  | 0x17 => chk (63 < fld w 17 15) false false (.gsrai gd ga (fbv w 17 6))
  | 0x18 => chk false (b != 0 || f10 != 0) false (.gjalr gd ga)
  | 0x19 => chk (fld w 26 6 != 0) (a != 0 || b != 0) false (.glpget gd (fbv w 22 2) (fbv w 24 2))
  | 0x1A => chk (fld w 26 6 != 0) (d != 0 || b != 0) false (.glpset (fbv w 22 2) (fbv w 24 2) ga)
  | 0x1B => chk (10 < fld w 22 4) (fld w 30 2 != 0) false (.gamo gd ga gb (fbv w 22 4) (fbv w 26 1) (fbv w 27 3))
  | 0x1C => chk false (a != 0 || b != 0 || fld w 26 6 != 0) false (.gms gd (fbv w 22 4))
  | 0x1D => chk (fld w 28 4 != 0) (a != 0) false (.gsync gd gb (fbv w 22 6))
  | 0x1E => chk false (d != 0 || a != 0 || b != 0 || f10 != 0) false .gyield
  | 0x1F => chk false (d != 0 || a != 0 || b != 0 || f10 != 0) false .gifence
  | 0x20 => chk (7 < f10) k11 kbad (.gcmp gk (fbv w 22 3) ga gb)
  | 0x21 => chk false (k11 || a != 0 || b != 0 || f10 != 0) kbad (.gbr gk)
  | 0x22 => chk false (k11 || a != 0 || b != 0 || f10 != 0) kbad (.gbrf gk)
  | 0x23 => chk false (k11 || fld w 25 7 != 0) kbad (.gfb gk (fbv w 22 3) ga gb)
  | 0x24 => chk false (k11 || fld w 23 9 != 0) kbad (if fld w 22 1 = 0 then .launchT gk ga gb else .launchG gk ga gb)
  | 0x25 => chk (a == 31) (k11 || f10 != 0) kbad (.join gk ga gb)
  | 0x26 => chk (fld w 24 8 != 0) k11 kbad (.qpush gk (fbv w 22 2) ga gb)
  | 0x27 => chk (fld w 24 8 != 0) k11 kbad (.qpop gk (fbv w 22 2) ga gb)
  | 0x28 => chk false (k11 || f10 != 0) kbad (.gbwait gk ga gb)
  | 0x29 => chk false (k11 || b != 0 || f10 != 0) kbad (.ckdecide gk ga)
  | 0x30 => chk (idx == 0xFFFF) (fld w 23 9 != 0) false (.emit gi)
  | 0x31 => chk (idx == 0xFFFF) false false (.emitp gi (fbv w 23 4) (fbv w 27 5))
  | 0x32 => chk false (d != 0 || b != 0 || fld w 26 6 != 0 || (fld w 22 4 == 0 && a != 0)) false (.emitl (fbv w 22 4) ga)
  | 0x33 => chk false (d != 0 || f10 != 0) false (.emits ga gb)
  | 0x34 => chk (idx == 0xFFFF) (fld w 23 9 != 0) false (.cldd gi)
  | 0x35 => chk (5 < f10) (d != 0 || b != 0) false (.cset (fbv w 22 3) ga)
  | 0x36 => chk (5 < f10) (a != 0 || b != 0) false (.cget gd (fbv w 22 3))
  | 0x37 => chk false (d != 0 || b != 0 || f10 != 0) false (.tret ga)
  | 0x38 => chk false (d != 0 || b != 0 || fld w 30 2 != 0) false (.gbarr ga (fbv w 22 8))
  | 0x39 => chk false (d != 0 || a != 0 || b != 0 || f10 != 0) false .ckskip
  | 0x3A => chk false (f10 != 0) false (.ckstore gd ga gb)
  | 0x3B => chk false (d != 0 || a != 0) false (.gtrap (fbv w 17 15))
  | 0x3C => chk false (d != 0 || a != 0 || b != 0 || fld w 23 9 != 0) false (.geret (fbv w 22 1))
  | 0x3D => chk false (a != 0) false (.gcrr gd (fbv w 17 15))
  | 0x3E => chk false (d != 0) false (.gcrw (fbv w 17 15) ga)
  | 0x3F => chk false (d != 0 || a != 0 || b != 0 || f10 != 0) false .gnop
  | 0x40 => chk false (a != 0 || b != 0 || f10 != 0) false (.gli gd w2)
  | 0x41 => chk false (a != 0 || b != 0 || f10 != 0) false (.glih gd w2)
  | 0x42 => chk (7 < f10) (k11 || b != 0) kbad (.gcmpi gk (fbv w 22 3) ga w2)
  | 0x43 => chk (fld w 23 9 != 0) (k11 || b != 0 || (fld w 22 1 == 1 && a != 0)) kbad (if fld w 22 1 = 1 then .gprepPc gk w2 else .gprepReg gk ga w2)
  | 0x44 => chk false (a != 0 || b != 0 || f10 != 0) false (.gjal gd w2)
  | 0x45 => chk false (d != 0 || b != 0 || fld w 25 7 != 0 || (fld w 24 1 == 1 && w2 != 0)) false (if fld w 24 1 = 0 then .gloop (fbv w 22 2) ga w2 else .gloopRe (fbv w 22 2) ga)
  | 0x46 => chk (fld w 22 3 == 7 || fld w 25 2 == 3) (b != 0 || fld w 27 5 != 0) false (.gld gd ga (fbv w 22 3) (fbv w 25 2) w2)
  | 0x47 => chk (fld w 24 1 != 0 || fld w 25 2 == 3) (d != 0 || fld w 30 2 != 0) false (.gst ga gb (fbv w 22 2) (fbv w 25 2) (fbv w 27 3) w2)
  | 0x48 => chk false (d != 0 || b != 0 || fld w 23 9 != 0) false (.gpref ga (fbv w 22 1) w2)
  | 0x49 => chk (idx == 0xFFFF || fld w 47 17 != 0) false false (.emitn gi (fbv w 23 4) (fbv w 27 5) (fbv w 32 15))
  | _ => .bad .reservedOpcode

/-- Form R (R94): OP, D, A, B, F10. -/
def encR (op : Nat) (d a b : Reg) (f10 : Nat) : Nat := op + d.toNat * 2 ^ 7 + a.toNat * 2 ^ 12 + b.toNat * 2 ^ 17 + f10 * 2 ^ 22

/-- Form K (R94): OP, K, A, B, F10. -/
def encK (op : Nat) (k : BitVec 4) (a b : Reg) (f10 : Nat) : Nat := op + k.toNat * 2 ^ 7 + a.toNat * 2 ^ 12 + b.toNat * 2 ^ 17 + f10 * 2 ^ 22

/-- Form I (R94): OP, D, A, IMM15. -/
def encI (op : Nat) (d a : Reg) (imm : Nat) : Nat := op + d.toNat * 2 ^ 7 + a.toNat * 2 ^ 12 + imm * 2 ^ 17

/-- Form E (R94): OP, IDX, MASK, GP. -/
def encE (op : Nat) (idx : BitVec 16) (mask : BitVec 4) (gp : Reg) : Nat := op + idx.toNat * 2 ^ 7 + mask.toNat * 2 ^ 23 + gp.toNat * 2 ^ 27

/-- A first word and its second word W2 (R94). -/
def encW2 (w w2 : Nat) : Nat := w + w2 * 2 ^ 32

/-- The length in bytes and the word of a generator instruction (R94, R96); none for a step that is no generator word. -/
def encodeGen : Instr → Option (Nat × Nat)
  | .gadd d a b => some (4, encR 0x00 d a b 0)
  | .gsub d a b => some (4, encR 0x01 d a b 0)
  | .gmul d a b => some (4, encR 0x02 d a b 0)
  | .gmulh d a b => some (4, encR 0x03 d a b 0)
  | .gmulhn d a b => some (4, encR 0x04 d a b 0)
  | .gdiv d a b => some (4, encR 0x05 d a b 0)
  | .gdivn d a b => some (4, encR 0x06 d a b 0)
  | .grem d a b => some (4, encR 0x07 d a b 0)
  | .gremn d a b => some (4, encR 0x08 d a b 0)
  | .gand d a b => some (4, encR 0x09 d a b 0)
  | .gor d a b => some (4, encR 0x0A d a b 0)
  | .gxor d a b => some (4, encR 0x0B d a b 0)
  | .gshl d a b => some (4, encR 0x0C d a b 0)
  | .gshr d a b => some (4, encR 0x0D d a b 0)
  | .gsra d a b => some (4, encR 0x0E d a b 0)
  | .gmin d a b => some (4, encR 0x0F d a b 0)
  | .gmax d a b => some (4, encR 0x10 d a b 0)
  | .gaddi d a imm => some (4, encI 0x11 d a imm.toNat)
  | .gandi d a imm => some (4, encI 0x12 d a imm.toNat)
  | .gori d a imm => some (4, encI 0x13 d a imm.toNat)
  | .gxori d a imm => some (4, encI 0x14 d a imm.toNat)
  | .gshli d a sh => some (4, encI 0x15 d a sh.toNat)
  | .gshri d a sh => some (4, encI 0x16 d a sh.toNat)
  | .gsrai d a sh => some (4, encI 0x17 d a sh.toNat)
  | .gjalr d a => some (4, encR 0x18 d a 0 0)
  | .glpget d n f => some (4, encR 0x19 d 0 0 (n.toNat + f.toNat * 4))
  | .glpset n f a => some (4, encR 0x1A 0 a 0 (n.toNat + f.toNat * 4))
  | .gamo d a b op z col => some (4, encR 0x1B d a b (op.toNat + z.toNat * 16 + col.toNat * 32))
  | .gms d n => some (4, encR 0x1C d 0 0 n.toNat)
  | .gsync d b flags => some (4, encR 0x1D d 0 b flags.toNat)
  | .gyield => some (4, encR 0x1E 0 0 0 0)
  | .gifence => some (4, encR 0x1F 0 0 0 0)
  | .ckskip => some (4, encR 0x39 0 0 0 0)
  | .gnop => some (4, encR 0x3F 0 0 0 0)
  | .gcmp k cc a b => some (4, encK 0x20 k a b cc.toNat)
  | .gbr k => some (4, encK 0x21 k 0 0 0)
  | .gbrf k => some (4, encK 0x22 k 0 0 0)
  | .gfb k n a b => some (4, encK 0x23 k a b n.toNat)
  | .launchT k a b => some (4, encK 0x24 k a b 0)
  | .launchG k a b => some (4, encK 0x24 k a b 1)
  | .join k a b => some (4, encK 0x25 k a b 0)
  | .qpush k n a b => some (4, encK 0x26 k a b n.toNat)
  | .qpop k n a b => some (4, encK 0x27 k a b n.toNat)
  | .gbwait k a b => some (4, encK 0x28 k a b 0)
  | .ckdecide k a => some (4, encK 0x29 k a 0 0)
  | .emit idx => some (4, encE 0x30 idx 0 0)
  | .emitp idx mask gp => some (4, encE 0x31 idx mask gp)
  | .emitl mask a => some (4, encR 0x32 0 a 0 mask.toNat)
  | .emits a b => some (4, encR 0x33 0 a b 0)
  | .cldd idx => some (4, encE 0x34 idx 0 0)
  | .cset n a => some (4, encR 0x35 0 a 0 n.toNat)
  | .cget d n => some (4, encR 0x36 d 0 0 n.toNat)
  | .tret a => some (4, encR 0x37 0 a 0 0)
  | .gbarr a cols => some (4, encR 0x38 0 a 0 cols.toNat)
  | .ckstore d a b => some (4, encR 0x3A d a b 0)
  | .gtrap imm => some (4, encI 0x3B 0 0 imm.toNat)
  | .geret st => some (4, encR 0x3C 0 0 0 st.toNat)
  | .gcrr d n => some (4, encI 0x3D d 0 n.toNat)
  | .gcrw n a => some (4, encI 0x3E 0 a n.toNat)
  | .gli d w2 => some (8, encW2 (encR 0x40 d 0 0 0) w2.toNat)
  | .glih d w2 => some (8, encW2 (encR 0x41 d 0 0 0) w2.toNat)
  | .gcmpi k cc a w2 => some (8, encW2 (encK 0x42 k a 0 cc.toNat) w2.toNat)
  | .gprepPc k w2 => some (8, encW2 (encK 0x43 k 0 0 1) w2.toNat)
  | .gprepReg k a w2 => some (8, encW2 (encK 0x43 k a 0 0) w2.toNat)
  | .gjal d w2 => some (8, encW2 (encR 0x44 d 0 0 0) w2.toNat)
  | .gloop n a w2 => some (8, encW2 (encR 0x45 0 a 0 n.toNat) w2.toNat)
  | .gloopRe n a => some (8, encR 0x45 0 a 0 (n.toNat + 4))
  | .gld d a t pol w2 => some (8, encW2 (encR 0x46 d a 0 (t.toNat + pol.toNat * 8)) w2.toNat)
  | .gst a b t pol col w2 => some (8, encW2 (encR 0x47 0 a b (t.toNat + pol.toNat * 8 + col.toNat * 32)) w2.toNat)
  | .gpref a l w2 => some (8, encW2 (encR 0x48 0 a 0 l.toNat) w2.toNat)
  | .emitn idx mask gp n => some (8, encW2 (encE 0x49 idx mask gp) n.toNat)
  | _ => none

/-! ### Slot fields -/

/-- S slot field, RRR form (R77). -/
def sop (w : Nat) : SOp :=
  { tagw := fbv w 40 8, taga := fbv w 36 4, pred := fbv w 32 4, mod := fbv w 26 6, b := fbv w 20 6, a := fbv w 14 6, dst := fbv w 8 6 }

/-- S slot field, RI form (R77). -/
def siop (w : Nat) : SIOp :=
  { tagw := fbv w 40 8, taga := fbv w 36 4, pred := fbv w 32 4, imm := fbv w 20 12, a := fbv w 14 6, dst := fbv w 8 6 }

/-- V slot field (R78). -/
def vop (w : Nat) : VOp :=
  { tagw := fbv w 56 8, taga := fbv w 52 4, xtra := fbv w 46 6, beats := fbv w 42 4, neg := fbv w 40 2, sat := fbv w 39 1, rnd := fbv w 37 2,
    etype := fbv w 33 4, msk := fbv w 30 3, bk := fbv w 28 2, c := fbv w 23 5, b := fbv w 18 5, a := fbv w 13 5, dst := fbv w 8 5 }

/-- M slot field (R80). -/
def mop (w : Nat) : MOp :=
  { tagw := fbv w 32 8, taga := fbv w 28 4, mode := fbv w 26 2, bsrc := fbv w 23 3, ma := fbv w 20 3, fb := fbv w 18 2, fa := fbv w 16 2,
    sel := fbv w 13 3, beats := fbv w 5 8 }

/-- X slot field, memory form (R81). -/
def xmop (w : Nat) : XMOp :=
  { tagw := fbv w 48 8, taga := fbv w 44 4, pol := fbv w 42 2, col := fbv w 39 3, ofs := fbv w 19 20, base := fbv w 13 6, reg := fbv w 7 6 }

/-- X slot field, register form (R81). -/
def xrop (w : Nat) : XROp :=
  { tagw := fbv w 48 8, taga := fbv w 44 4, rsv := fbv w 43 1, sc := fbv w 40 3, q := fbv w 36 4, tmo := fbv w 31 5, fn := fbv w 25 6,
    c := fbv w 19 6, b := fbv w 13 6, a := fbv w 7 6 }

/-- S slot map (R97); none at a reserved opcode point. -/
def decodeS (w : Nat) : Option Instr :=
  match w % 2 ^ 8 with
  | 0x00 => some (.snop (sop w))
  | 0x01 => some (.sadd (sop w))
  | 0x02 => some (.saddi (siop w))
  | 0x03 => some (.ssub (sop w))
  | 0x04 => some (.smul (sop w))
  | 0x05 => some (.sand (sop w))
  | 0x06 => some (.sor (sop w))
  | 0x07 => some (.sxor (sop w))
  | 0x08 => some (.sshl (sop w))
  | 0x09 => some (.sshr (sop w))
  | 0x0A => some (.ssra (sop w))
  | 0x0B => some (.smin (sop w))
  | 0x0C => some (.smax (sop w))
  | 0x0D => some (.sli (siop w))
  | 0x0E => some (.scmp (sop w))
  | 0x0F => some (.scmpi (siop w))
  | 0x10 => some (.ssel (sop w))
  | 0x11 => some (.sms (sop w))
  | 0x12 => some (.sfb (sop w))
  | 0x13 => some (.ssetfm (sop w))
  | 0x14 => some (.ssetma (sop w))
  | 0x15 => some (.ssetch (sop w))
  | 0x16 => some (.ssetmk (sop w))
  | 0x17 => some (.swait (sop w))
  | 0x18 => some (.stime (sop w))
  | 0x19 => some (.spred (sop w))
  | _ => none

/-- V slot map (R98); none at a reserved opcode point. -/
def decodeV (w : Nat) : Option Instr :=
  match w % 2 ^ 8 with
  | 0x00 => some (.vnop (vop w))
  | 0x01 => some (.vadd (vop w))
  | 0x02 => some (.vsub (vop w))
  | 0x03 => some (.vmul (vop w))
  | 0x04 => some (.vmulh (vop w))
  | 0x05 => some (.vmad (vop w))
  | 0x06 => some (.vwadd (vop w))
  | 0x07 => some (.vwmul (vop w))
  | 0x08 => some (.vsadd (vop w))
  | 0x09 => some (.vssub (vop w))
  | 0x0A => some (.vmin (vop w))
  | 0x0B => some (.vmax (vop w))
  | 0x0C => some (.vabs (vop w))
  | 0x0D => some (.vand (vop w))
  | 0x0E => some (.vor (vop w))
  | 0x0F => some (.vxor (vop w))
  | 0x10 => some (.vshl (vop w))
  | 0x11 => some (.vshr (vop w))
  | 0x12 => some (.vsra (vop w))
  | 0x13 => some (.vclz (vop w))
  | 0x14 => some (.vpopc (vop w))
  | 0x15 => some (.vcmp (vop w))
  | 0x16 => some (.vsel (vop w))
  | 0x17 => some (.vmov (vop w))
  | 0x18 => some (.vbcast (vop w))
  | 0x19 => some (.viota (vop w))
  | 0x1A => some (.vperm (vop w))
  | 0x1B => some (.vrot (vop w))
  | 0x1C => some (.vcmprs (vop w))
  | 0x1D => some (.vexpnd (vop w))
  | 0x1E => some (.vscan (vop w))
  | 0x1F => some (.vred (vop w))
  | 0x20 => some (.vfadd (vop w))
  | 0x21 => some (.vfsub (vop w))
  | 0x22 => some (.vfmul (vop w))
  | 0x23 => some (.vfma (vop w))
  | 0x24 => some (.vfmin (vop w))
  | 0x25 => some (.vfmax (vop w))
  | 0x26 => some (.vfcmp (vop w))
  | 0x27 => some (.vfdiv (vop w))
  | 0x28 => some (.vfsqrt (vop w))
  | 0x29 => some (.vfrcp (vop w))
  | 0x2A => some (.vfrsq (vop w))
  | 0x2B => some (.vfexp2 (vop w))
  | 0x2C => some (.vflog2 (vop w))
  | 0x2D => some (.vfsin (vop w))
  | 0x2E => some (.vfcos (vop w))
  | 0x2F => some (.vftanh (vop w))
  | 0x30 => some (.vfscan (vop w))
  | 0x31 => some (.vfred (vop w))
  | 0x32 => some (.vtopk (vop w))
  | 0x33 => some (.vcvt (vop w))
  | 0x34 => some (.vpkgm (vop w))
  | 0x35 => some (.vupgm (vop w))
  | 0x36 => some (.vpkmx (vop w))
  | 0x37 => some (.vupmx (vop w))
  | 0x38 => some (.vrand (vop w))
  | 0x39 => some (.ckprobe (vop w))
  | 0x3A => some (.vpopq (vop w))
  | _ => none

/-- M slot map (R99); none at a reserved opcode point. -/
def decodeM (w : Nat) : Option Instr :=
  match w % 2 ^ 5 with
  | 0x00 => some (.mnop (mop w))
  | 0x01 => some (.mlda (mop w))
  | 0x02 => some (.mldat (mop w))
  | 0x03 => some (.macc (mop w))
  | 0x04 => some (.mzero (mop w))
  | 0x05 => some (.mswap (mop w))
  | 0x06 => some (.mdrain (mop w))
  | 0x07 => some (.mdrainc (mop w))
  | 0x08 => some (.maccld (mop w))
  | 0x09 => some (.mmask (mop w))
  | 0x0A => some (.mgang (mop w))
  | 0x0B => some (.mwrel (mop w))
  | _ => none

/-- X slot map (R100); none at a reserved opcode point. CPWP and CPWP.OOB are told apart by FN[0] (R212). -/
def decodeX (w : Nat) : Option Instr :=
  match w % 2 ^ 7 with
  | 0x00 => some (.xnop (xrop w))
  | 0x01 => some (.vld (xmop w))
  | 0x02 => some (.vst (xmop w))
  | 0x03 => some (.vlds (xmop w))
  | 0x04 => some (.vsts (xmop w))
  | 0x05 => some (.sld (xmop w))
  | 0x06 => some (.sst (xmop w))
  | 0x07 => some (.pref (xmop w))
  | 0x08 => some (.invl (xrop w))
  | 0x09 => some (.wbl (xrop w))
  | 0x0A => some (.amo (xrop w))
  | 0x10 => some (.cpgo (xrop w))
  | 0x11 => some (.cpstop (xrop w))
  | 0x12 => some (.cpdrain (xrop w))
  | 0x13 => some (if fld w 25 1 = 1 then .cpwpOob (xrop w) else .cpwp (xrop w))
  | 0x14 => some (.gapush (xrop w))
  | 0x15 => some (.gdpop (xrop w))
  | 0x16 => some (.scpush (xrop w))
  | 0x17 => some (.wssub (xrop w))
  | 0x18 => some (.wsuns (xrop w))
  | 0x20 => some (.fence (xrop w))
  | 0x21 => some (.acq (xrop w))
  | 0x22 => some (.rel (xrop w))
  | 0x23 => some (.bind (xrop w))
  | 0x24 => some (.unbind (xrop w))
  | 0x25 => some (.publish (xrop w))
  | 0x26 => some (.barr (xrop w))
  | 0x27 => some (.bexp (xrop w))
  | 0x28 => some (.bwait (xrop w))
  | 0x30 => some (.fopen (xrop w))
  | 0x31 => some (.fclose (xrop w))
  | 0x32 => some (.fnext (xrop w))
  | 0x33 => some (.fint (xrop w))
  | 0x34 => some (.funi (xrop w))
  | 0x35 => some (.fskip (xrop w))
  | 0x36 => some (.fchild (xrop w))
  | 0x37 => some (.fpos (xrop w))
  | 0x38 => some (.fsave (xrop w))
  | 0x39 => some (.fload (xrop w))
  | 0x3A => some (.fval (xrop w))
  | 0x3B => some (.fend (xrop w))
  | _ => none

/-- The op of a slot field. -/
def decodeSlot (sl : Slot) (w : Nat) : Option Instr :=
  match sl with
  | .s => decodeS w
  | .v0 | .v1 => decodeV w
  | .m => decodeM w
  | .x0 | .x1 => decodeX w

/-- S slot field of the RRR form above its opcode. -/
def encSop (f : SOp) : Nat :=
  f.dst.toNat * 2 ^ 8 + f.a.toNat * 2 ^ 14 + f.b.toNat * 2 ^ 20 + f.mod.toNat * 2 ^ 26 + f.pred.toNat * 2 ^ 32 + f.taga.toNat * 2 ^ 36 + f.tagw.toNat * 2 ^ 40

/-- S slot field of the RI form above its opcode. -/
def encSiop (f : SIOp) : Nat :=
  f.dst.toNat * 2 ^ 8 + f.a.toNat * 2 ^ 14 + f.imm.toNat * 2 ^ 20 + f.pred.toNat * 2 ^ 32 + f.taga.toNat * 2 ^ 36 + f.tagw.toNat * 2 ^ 40

/-- V slot field above its opcode. -/
def encVop (f : VOp) : Nat :=
  f.dst.toNat * 2 ^ 8 + f.a.toNat * 2 ^ 13 + f.b.toNat * 2 ^ 18 + f.c.toNat * 2 ^ 23 + f.bk.toNat * 2 ^ 28 + f.msk.toNat * 2 ^ 30 +
    f.etype.toNat * 2 ^ 33 + f.rnd.toNat * 2 ^ 37 + f.sat.toNat * 2 ^ 39 + f.neg.toNat * 2 ^ 40 + f.beats.toNat * 2 ^ 42 + f.xtra.toNat * 2 ^ 46 +
    f.taga.toNat * 2 ^ 52 + f.tagw.toNat * 2 ^ 56

/-- M slot field above its opcode. -/
def encMop (f : MOp) : Nat :=
  f.beats.toNat * 2 ^ 5 + f.sel.toNat * 2 ^ 13 + f.fa.toNat * 2 ^ 16 + f.fb.toNat * 2 ^ 18 + f.ma.toNat * 2 ^ 20 + f.bsrc.toNat * 2 ^ 23 +
    f.mode.toNat * 2 ^ 26 + f.taga.toNat * 2 ^ 28 + f.tagw.toNat * 2 ^ 32

/-- X slot field of the memory form above its opcode. -/
def encXmop (f : XMOp) : Nat :=
  f.reg.toNat * 2 ^ 7 + f.base.toNat * 2 ^ 13 + f.ofs.toNat * 2 ^ 19 + f.col.toNat * 2 ^ 39 + f.pol.toNat * 2 ^ 42 + f.taga.toNat * 2 ^ 44 + f.tagw.toNat * 2 ^ 48

/-- X slot field of the register form above its opcode. -/
def encXrop (f : XROp) : Nat :=
  f.a.toNat * 2 ^ 7 + f.b.toNat * 2 ^ 13 + f.c.toNat * 2 ^ 19 + f.fn.toNat * 2 ^ 25 + f.tmo.toNat * 2 ^ 31 + f.q.toNat * 2 ^ 36 + f.sc.toNat * 2 ^ 40 +
    f.rsv.toNat * 2 ^ 43 + f.taga.toNat * 2 ^ 44 + f.tagw.toNat * 2 ^ 48

/-- The slot field of an S op. -/
def encodeS : Instr → Option Nat
  | .snop f => some (0x00 + encSop f)
  | .sadd f => some (0x01 + encSop f)
  | .saddi f => some (0x02 + encSiop f)
  | .ssub f => some (0x03 + encSop f)
  | .smul f => some (0x04 + encSop f)
  | .sand f => some (0x05 + encSop f)
  | .sor f => some (0x06 + encSop f)
  | .sxor f => some (0x07 + encSop f)
  | .sshl f => some (0x08 + encSop f)
  | .sshr f => some (0x09 + encSop f)
  | .ssra f => some (0x0A + encSop f)
  | .smin f => some (0x0B + encSop f)
  | .smax f => some (0x0C + encSop f)
  | .sli f => some (0x0D + encSiop f)
  | .scmp f => some (0x0E + encSop f)
  | .scmpi f => some (0x0F + encSiop f)
  | .ssel f => some (0x10 + encSop f)
  | .sms f => some (0x11 + encSop f)
  | .sfb f => some (0x12 + encSop f)
  | .ssetfm f => some (0x13 + encSop f)
  | .ssetma f => some (0x14 + encSop f)
  | .ssetch f => some (0x15 + encSop f)
  | .ssetmk f => some (0x16 + encSop f)
  | .swait f => some (0x17 + encSop f)
  | .stime f => some (0x18 + encSop f)
  | .spred f => some (0x19 + encSop f)
  | _ => none

/-- The slot field of a V op. -/
def encodeV : Instr → Option Nat
  | .vnop f => some (0x00 + encVop f)
  | .vadd f => some (0x01 + encVop f)
  | .vsub f => some (0x02 + encVop f)
  | .vmul f => some (0x03 + encVop f)
  | .vmulh f => some (0x04 + encVop f)
  | .vmad f => some (0x05 + encVop f)
  | .vwadd f => some (0x06 + encVop f)
  | .vwmul f => some (0x07 + encVop f)
  | .vsadd f => some (0x08 + encVop f)
  | .vssub f => some (0x09 + encVop f)
  | .vmin f => some (0x0A + encVop f)
  | .vmax f => some (0x0B + encVop f)
  | .vabs f => some (0x0C + encVop f)
  | .vand f => some (0x0D + encVop f)
  | .vor f => some (0x0E + encVop f)
  | .vxor f => some (0x0F + encVop f)
  | .vshl f => some (0x10 + encVop f)
  | .vshr f => some (0x11 + encVop f)
  | .vsra f => some (0x12 + encVop f)
  | .vclz f => some (0x13 + encVop f)
  | .vpopc f => some (0x14 + encVop f)
  | .vcmp f => some (0x15 + encVop f)
  | .vsel f => some (0x16 + encVop f)
  | .vmov f => some (0x17 + encVop f)
  | .vbcast f => some (0x18 + encVop f)
  | .viota f => some (0x19 + encVop f)
  | .vperm f => some (0x1A + encVop f)
  | .vrot f => some (0x1B + encVop f)
  | .vcmprs f => some (0x1C + encVop f)
  | .vexpnd f => some (0x1D + encVop f)
  | .vscan f => some (0x1E + encVop f)
  | .vred f => some (0x1F + encVop f)
  | .vfadd f => some (0x20 + encVop f)
  | .vfsub f => some (0x21 + encVop f)
  | .vfmul f => some (0x22 + encVop f)
  | .vfma f => some (0x23 + encVop f)
  | .vfmin f => some (0x24 + encVop f)
  | .vfmax f => some (0x25 + encVop f)
  | .vfcmp f => some (0x26 + encVop f)
  | .vfdiv f => some (0x27 + encVop f)
  | .vfsqrt f => some (0x28 + encVop f)
  | .vfrcp f => some (0x29 + encVop f)
  | .vfrsq f => some (0x2A + encVop f)
  | .vfexp2 f => some (0x2B + encVop f)
  | .vflog2 f => some (0x2C + encVop f)
  | .vfsin f => some (0x2D + encVop f)
  | .vfcos f => some (0x2E + encVop f)
  | .vftanh f => some (0x2F + encVop f)
  | .vfscan f => some (0x30 + encVop f)
  | .vfred f => some (0x31 + encVop f)
  | .vtopk f => some (0x32 + encVop f)
  | .vcvt f => some (0x33 + encVop f)
  | .vpkgm f => some (0x34 + encVop f)
  | .vupgm f => some (0x35 + encVop f)
  | .vpkmx f => some (0x36 + encVop f)
  | .vupmx f => some (0x37 + encVop f)
  | .vrand f => some (0x38 + encVop f)
  | .ckprobe f => some (0x39 + encVop f)
  | .vpopq f => some (0x3A + encVop f)
  | _ => none

/-- The slot field of an M op. -/
def encodeM : Instr → Option Nat
  | .mnop f => some (0x00 + encMop f)
  | .mlda f => some (0x01 + encMop f)
  | .mldat f => some (0x02 + encMop f)
  | .macc f => some (0x03 + encMop f)
  | .mzero f => some (0x04 + encMop f)
  | .mswap f => some (0x05 + encMop f)
  | .mdrain f => some (0x06 + encMop f)
  | .mdrainc f => some (0x07 + encMop f)
  | .maccld f => some (0x08 + encMop f)
  | .mmask f => some (0x09 + encMop f)
  | .mgang f => some (0x0A + encMop f)
  | .mwrel f => some (0x0B + encMop f)
  | _ => none

/-- The slot field of an X op. -/
def encodeX : Instr → Option Nat
  | .xnop f => some (0x00 + encXrop f)
  | .vld f => some (0x01 + encXmop f)
  | .vst f => some (0x02 + encXmop f)
  | .vlds f => some (0x03 + encXmop f)
  | .vsts f => some (0x04 + encXmop f)
  | .sld f => some (0x05 + encXmop f)
  | .sst f => some (0x06 + encXmop f)
  | .pref f => some (0x07 + encXmop f)
  | .invl f => some (0x08 + encXrop f)
  | .wbl f => some (0x09 + encXrop f)
  | .amo f => some (0x0A + encXrop f)
  | .cpgo f => some (0x10 + encXrop f)
  | .cpstop f => some (0x11 + encXrop f)
  | .cpdrain f => some (0x12 + encXrop f)
  | .cpwp f => some (0x13 + encXrop f)
  | .cpwpOob f => some (0x13 + encXrop f)
  | .gapush f => some (0x14 + encXrop f)
  | .gdpop f => some (0x15 + encXrop f)
  | .scpush f => some (0x16 + encXrop f)
  | .wssub f => some (0x17 + encXrop f)
  | .wsuns f => some (0x18 + encXrop f)
  | .fence f => some (0x20 + encXrop f)
  | .acq f => some (0x21 + encXrop f)
  | .rel f => some (0x22 + encXrop f)
  | .bind f => some (0x23 + encXrop f)
  | .unbind f => some (0x24 + encXrop f)
  | .publish f => some (0x25 + encXrop f)
  | .barr f => some (0x26 + encXrop f)
  | .bexp f => some (0x27 + encXrop f)
  | .bwait f => some (0x28 + encXrop f)
  | .fopen f => some (0x30 + encXrop f)
  | .fclose f => some (0x31 + encXrop f)
  | .fnext f => some (0x32 + encXrop f)
  | .fint f => some (0x33 + encXrop f)
  | .funi f => some (0x34 + encXrop f)
  | .fskip f => some (0x35 + encXrop f)
  | .fchild f => some (0x36 + encXrop f)
  | .fpos f => some (0x37 + encXrop f)
  | .fsave f => some (0x38 + encXrop f)
  | .fload f => some (0x39 + encXrop f)
  | .fval f => some (0x3A + encXrop f)
  | .fend f => some (0x3B + encXrop f)
  | _ => none

/-- The slot field of an op of a slot. -/
def encodeSlot (sl : Slot) (i : Instr) : Option Nat :=
  match sl with
  | .s => encodeS i
  | .v0 | .v1 => encodeV i
  | .m => encodeM i
  | .x0 | .x1 => encodeX i

/-- The generator instruction whose bits are `w`, numbered from the lowest bit of its first word; the bits above `nbits` are 0. -/
def decodeTableWord (nbits w : Nat) : Option Instr :=
  match decodeGen (w % 2 ^ nbits) with
  | .ok i => some i
  | .bad _ => none

end Sys2Proof
end

