-- ==== Sys2Proof/Machine/State.lean ====
section
/-! DEFINITION. The state of the package as plain data: the generators and engine streams of 320 cores, the memories, the
synchronisation objects, the bays, tasks, graphs and packets, and the host's registers. Reset values are those of the tables
cited; where the manual gives none the value is named in assumption 1. -/

namespace Sys2Proof.Machine

/-- Byte storage by address: pairs of strictly rising address and a byte other than the one an unlisted address reads as (0,
assumption 2). -/
abbrev Mem := List Host.Cell

/-! ### Generator (R46 to R56) -/

/-- A steer register (R49); `busy` says that a writer of its condition is in flight (R50). -/
structure Steer where
  tv : Bool := false
  cv : Bool := false
  c : Bool := false
  target : BitVec 48 := 0
  busy : Bool := false
  /-- the cycle of its latest GPREP (R51) -/
  prepAt : Option Nat := none
  deriving DecidableEq, Repr

/-- A loop register (R46, R52): the architectural count, start, end and active bit, and the latched copy. -/
structure Loop where
  count : BitVec 32 := 0
  start : BitVec 48 := 0
  stop : BitVec 48 := 0
  active : Bool := false
  lstart : BitVec 48 := 0
  lstop : BitVec 48 := 0
  deriving DecidableEq, Repr

/-- A feedback register (R70). -/
structure Fb where
  val : W64 := 0
  valid : Bool := false
  overrun : Bool := false
  deriving DecidableEq, Repr

/-- A generator instruction that has issued and waits (R104): the instruction, its issue cycle, its timeout, and the counter
value at its issue that tells earlier work from later work. -/
structure GenWait where
  instr : Instr
  since : Nat
  timeout : W64
  mark : Nat
  /-- the operand it kept; of an EMITN or EMITS, the first cycle in which it may place an entry (R119, R120) -/
  note : Nat := 0
  /-- its steer register as it was before the issue, given back when the instruction faults (R106) -/
  steer : Option (Nat × Steer) := none
  deriving DecidableEq, Repr

/-- Where the reply of a generator access goes (R103). -/
inductive GenDest where
  | g (n : Reg)
  /-- hg28 to hg31, which g28 to g31 name in handler mode (R303) -/
  | hg (n : Nat)
  | compose
  deriving DecidableEq, Repr

/-- A GLD, GAMO or CLDD whose data has been read and has not yet been written to its register (R103), or a GST that another package has
not yet acknowledged. -/
structure GenLoad where
  id : Nat
  dest : GenDest
  val : BitVec 384
  /-- its instruction, for a fault that the reply carries (R296, R301): program counter, words, access kind and address -/
  gpc : BitVec 48 := 0
  bits : W64 := 0
  kind : Nat := 0
  va : W64 := 0
  /-- it issued in handler mode (R303) -/
  hm : Bool := false
  /-- its reply may end with a fault, so nothing later of its context issues before it (R106) -/
  firm : Bool := false
  deriving DecidableEq, Repr

/-- One generator context (R46, R47). -/
structure GenCtx where
  g : Vector W64 32 := Vector.replicate 32 0
  k : Vector Steer 12 := Vector.replicate 12 {}
  lp : Vector Loop 4 := Vector.replicate 4 {}
  /-- the active loops, innermost first (R52) -/
  nest : List Nat := []
  c : Vector W64 6 := Vector.replicate 6 0
  fb : Vector Fb 8 := Vector.replicate 8 {}
  pc : BitVec 48 := 0
  eseq : BitVec 32 := 0
  hbase : BitVec 48 := 0
  tmo : W64 := BitVec.allOnes 64
  dbase : W64 := 0
  dlen : Nat := 1
  eprog : Nat := 0
  /-- handler mode and hg28 to hg31 (R302, R303) -/
  handler : Bool := false
  hg : Vector W64 4 := Vector.replicate 4 0
  /-- the program counter at which the latest stop that entered a handler found the generator (R296): a stopped EMITN keeps its
  count only for a resumption there (R119) -/
  trapPc : BitVec 48 := 0
  wait : Option GenWait := none
  loads : List GenLoad := []
  /-- nothing issues before this cycle: the bubbles of a transfer of control (R51, R112) -/
  readyAt : Nat := 0
  /-- the record of the latest GBARR: barrier, and the phase joined as a count whose parity is the phase bit (R129) -/
  barrec : Option (Nat × Nat) := none
  deriving DecidableEq, Repr

/-! ### Emit path (R55, R59, R60, R73) -/

/-- An emit queue entry (R55). -/
structure EmitEntry where
  ctx : Ctx
  lit : Option (BitVec 384)
  index : BitVec 16
  pmask : BitVec 4
  pval : Vector W64 4
  gpc : BitVec 48
  eseq : BitVec 32
  deriving DecidableEq, Repr

/-- What a slot op keeps of its bundle: who emitted it, its number, the header fields it reads at issue (R33, R61, R65), and
the provenance of a fault record (R301). -/
structure BInfo where
  ctx : Ctx := .user
  eseq : BitVec 32 := 0
  gpc : BitVec 48 := 0
  index : BitVec 16 := 0
  prof : BitVec 4 := 0
  pres : BitVec 6 := 0
  align : BitVec 6 := 0
  bcsrc : BitVec 3 := 0
  bcreg : BitVec 6 := 0
  bcimm : BitVec 24 := 0
  patch : W64 := 0
  deriving DecidableEq, Repr

/-- Where a translated access goes (R248, R259). -/
inductive Loc where
  | scratch (off : Nat)
  | loft (core off : Nat)
  | phys (pa : Nat)
  deriving DecidableEq, Repr

/-- The effective cache policies (R203). -/
inductive Pol where
  | wb | stream | uc | rc (n : Nat)
  deriving DecidableEq, Repr

/-- One contiguous part of an access: its address, place, length, policy and access-table group. -/
structure Piece where
  va : W64
  loc : Loc
  len : Nat
  pol : Pol
  group : Nat
  /-- its page has CA = 1, so the L2 takes no copy for it (R263, R288) -/
  ca : Bool := false
  /-- a firmware access, which the access tables do not check (R370) -/
  fw : Bool := false
  /-- a write performed at system scope (R273, R283) -/
  sys : Bool := false
  /-- a read that takes the long-reach path (R371) -/
  long : Bool := false
  deriving DecidableEq, Repr

/-- A waiting X op or a memory-reading fibre op that holds its X unit (R198, R234). -/
structure XRun where
  instr : Instr
  /-- the X slot that issued it -/
  slot : Slot := .x0
  info : BInfo
  bits : BitVec 64
  since : Nat
  /-- what it read at issue: a register operand, a number to compare with, and the pieces of its access -/
  arg : W64 := 0
  note : Nat := 0
  pieces : List Piece := []
  /-- FVAL's positions; the lanes or pairs that a fibre op has so far, with FVAL's values or the pairs' coordinates, and their two
  position parts (R240, R246) -/
  vec : V4096 := 0
  lane : Nat := 0
  vals : V4096 := 0
  posA : V4096 := 0
  posB : V4096 := 0
  /-- the scratchpad bytes that an FLOAD has read in its issue cycle (R200, R243) -/
  got : List Byte := []
  /-- what a fibre op has read and not consumed, each read once (R236, R240): by stream, the element at its cursor, as coordinate and
  position, and its bitmap word -/
  examined : List (Nat × Option (Nat × Nat)) := []
  words : List (Nat × Nat × W64) := []
  /-- POPC and PSLOT of its streams as it found them (R247) -/
  found : List (Nat × BitVec 7 × Bool) := []
  deriving DecidableEq, Repr

/-- An op in a slot queue: its patched field, its bundle, and the first cycle in which it may issue (R59, R60). -/
structure QOp where
  bits : BitVec 64
  info : BInfo
  notBefore : Nat
  /-- a fibre op that a stop found in progress: it issues again with what it had read, its tags already dealt with (R247) -/
  again : Option XRun := none
  deriving DecidableEq, Repr

/-- What a binding names (R218). -/
inductive BindObj where
  | latch (addr : W64)
  | barrier (n : Nat)
  deriving DecidableEq, Repr

/-- A binding table entry (R218). -/
structure Binding where
  addr : W64
  len : W64
  obj : BindObj
  col : BitVec 3
  deriving DecidableEq, Repr

/-! ### Results in flight (R62, R298) -/

/-- A register write that lands. -/
inductive RegWrite where
  | s (n : Nat) (v : W64)
  | q (n : Nat) (b : Bool)
  | v (n : Nat) (val : V4096) (bytes : M512)
  /-- the bits of a v register that a pack of narrow elements writes (R167) -/
  | vbits (n : Nat) (val bits : V4096)
  | m (n : Nat) (val bits : M512)
  | ma (n : Nat) (v : W64)
  | ch (n field : Nat) (v : W64)
  | fb (ctx : Ctx) (n : Nat) (v : W64)
  | probe (zero l1 : Bool) (v : BitVec 32)
  | oq (n : Nat) (row : V4096)
  /-- a change of the binding table, seen by ops of later cycles (R218); removal of the entries of an object, or of all -/
  | bind (b : Binding)
  | unbind (o : Option BindObj)
  /-- the batch register of a fibre stream (R240) -/
  | batch (n : Nat) (coord posA posB : V4096)
  deriving DecidableEq, Repr

/-- An exposed-latency result: readable from cycle `at` (R62), ranked by its issue `seq`, with the tag it clears (R63). -/
structure Landing where
  at_ : Nat
  seq : Nat
  writes : List RegWrite
  tag : Option (BitVec 3)
  deriving DecidableEq, Repr

/-- A snapshot entry (R298). -/
structure SnapEntry where
  rem : Nat
  seq : Nat
  writes : List RegWrite
  tag : Option (BitVec 3)
  deriving DecidableEq, Repr

/-- A V op between beats (R150), with what it read once at issue: its bundle's broadcast operand, its mask and VSEL's mask. -/
structure VRun where
  instr : Instr
  info : BInfo
  beat : Nat
  mask : M512
  sel : M512
  deriving DecidableEq, Repr

/-- The A latch (R184): per row the 8 element codes and the block header (E and μ, or the scale), the format value, the start
index and the orientation. -/
structure ALatch where
  rows : List (Nat × Nat)
  fm : BitVec 32
  start : Nat
  transposed : Bool
  deriving DecidableEq, Repr

/-- One K-chunk as the array read it: its number in the MACC, A rows, B header blocks and B chunk blocks (R182, R195). -/
structure Chunk where
  t : Nat
  a : List (Nat × Nat)
  hdr : List (BitVec 1024)
  blk : List (BitVec 1024)
  deriving DecidableEq, Repr

/-- A MACC in progress (R185, R196). -/
structure MaccRun where
  f : MOp
  info : BInfo
  bits : BitVec 64
  /-- the format values read at issue -/
  fma : BitVec 32
  fmb : BitVec 32
  /-- the latch's start index and orientation, whether the gang leader's scratchpad gives A, and the address registers as read at issue -/
  start : Nat
  transposed : Bool
  lead : Bool := false
  ma : W64
  maScale : W64
  mb : W64
  /-- the next beat and its cycle -/
  beat : Nat
  next : Nat
  /-- A of the present chunk and of the next, B's header blocks and the present chunk's blocks, and the group's whole chunks -/
  aNow : List (Nat × Nat)
  aNext : List (Nat × Nat)
  hdr : List (BitVec 1024)
  blk : List (BitVec 1024)
  group : List Chunk
  /-- bytes of a scratchpad plane stream consumed; and, at the present chunk's start, these bytes and the buffer's cursor -/
  used : Nat
  mark : Nat × Bool × Nat
  /-- it has stopped at a chunk with a reserved code and goes on from that chunk (R186, R196) -/
  halted : Bool := false
  deriving DecidableEq, Repr

/-- What the members of a gang take from a leader's array op (R193): opcode, BEATS, ma, ma(MA + 1) and the value of fm(FA). -/
structure GangOp where
  opc : Nat
  beats : BitVec 8
  ma : W64
  maScale : W64
  fma : BitVec 32
  deriving DecidableEq, Repr

/-- Which drain-port op runs (R189, R190). -/
inductive DrainKind where
  | rows | columns | load
  deriving DecidableEq, Repr

/-- A drain or MACCLD in progress (R189 to R191, R196). -/
structure DrainRun where
  kind : DrainKind
  f : MOp
  info : BInfo
  bits : BitVec 64
  fm : BitVec 32
  ma : W64
  row : Nat
  next : Nat
  mask : BitVec 256
  deriving DecidableEq, Repr

/-! ### X slots (R197 to R228) -/

/-- What a counted access does when it is performed. -/
inductive AccKind where
  | loadV (n : Nat)
  | loadS (n : Nat)
  | store
  | atomic (op : BitVec 4) (wide : Bool) (operand comparand : W64) (dest : Nat)
  | gather (size : Nat)
  /-- INVL and WBL: the span; the lines stay after a write-back -/
  | lines (va len : W64) (keep : Bool)
  deriving DecidableEq, Repr

/-- A counted access of an X slot that has issued and not completed (R199): it is performed in its slot's order (R200). -/
structure XAcc where
  id : Nat
  slot : Slot
  kind : AccKind
  pieces : List Piece
  /-- the bytes of a store, or those a load has read from the scratchpad in its issue cycle -/
  data : List Byte
  col : BitVec 3
  since : Nat
  tag : Option (BitVec 3)
  info : BInfo
  bits : BitVec 64
  /-- performed, and the bytes it returned or the fault kind that it met at the target -/
  done : Bool := false
  got : List Byte := []
  fails : Option Nat := none
  deriving DecidableEq, Repr

/-- Background work of REL, BARR, GBARR and BEXP (R220, R224, R225, R129). -/
inductive BgKind where
  /-- the latch's piece, and the spans bound to it at issue -/
  | rel (pieces : List Piece) (spans : List (W64 × W64))
  | arrive (barrier : Nat) (gen : Option Ctx)
  | expect (barrier : Nat) (bytes : Int)
  deriving DecidableEq, Repr

/-- One piece of background work: the colours and earlier accesses it waits for. -/
structure Bg where
  id : Nat
  slot : Option Slot
  kind : BgKind
  cols : BitVec 8
  since : Nat
  /-- a REL of system scope (R282) -/
  sys : Bool := false
  /-- its increment has left for another package, which has still to answer (R370, R374) -/
  away : Bool := false
  /-- the context that emitted it -/
  ctx : Ctx := .user
  deriving DecidableEq, Repr

/-- A gathered element (R214): pushed, and its value once it has arrived. -/
structure GElem where
  acc : Nat
  size : Nat
  val : Option (BitVec 32)
  deriving DecidableEq, Repr

/-- A copy that a channel has issued (R207): its number, its run, its iteration, its first byte's place in the run's program order,
the PUBS field of its run (R222), the places it has read, its destination granules in that order, and where it posts (R376): a package
and a barrier. -/
structure Copy where
  k : Nat
  run : Nat
  iter : Nat := 0
  off : Nat
  pubs : W64 := 0
  src : List Loc := []
  /-- destination place, bytes and whether delivered, per 4-byte granule -/
  gran : List (Loc × BitVec 32 × Bool)
  /-- the granules whose write has left for another package, which has still to acknowledge it (R375, R376) -/
  away : List Nat := []
  post : Option (Nat × Nat)
  deriving DecidableEq, Repr

/-- How a parked agent stands (R269, R270, R380). -/
inductive Park where
  /-- parked, its record not yet written -/
  | wanting (cause : BitVec 9) (addr detail : W64) (rp : Bool)
  /-- parked with an unanswered record of this token -/
  | token (t : Nat) (cause : BitVec 9) (addr : W64)
  deriving DecidableEq, Repr

/-- A copy channel (R147, R206 to R213). -/
structure Chan where
  prog : Vector W64 36 := Vector.replicate 36 0
  /-- the context whose CPGO started the latest run (R293) -/
  ctx : Ctx := .user
  /-- the latched program of the latest run, and that run's number -/
  run : Vector W64 36 := Vector.replicate 36 0
  runId : Nat := 0
  running : Bool := false
  /-- the next copy to issue, by linear iteration number -/
  iter : Nat := 0
  /-- bytes of the latest run in copies issued -/
  issued : Nat := 0
  /-- a phased start waits for this cycle (R210) -/
  startAt : Option W64 := none
  batch : List Nat := []
  copies : List Copy := []
  wptr : W64 := 0
  oob : W64 := 0
  /-- the runs that still hold their C count -/
  counting : List Nat := []
  /-- where the delivered prefix of the latest run ends for good: at the first byte that a fault has lost (R213) -/
  lostAt : Option Nat := none
  park : Option Park := none
  deriving DecidableEq, Repr

/-- A fibre stream: the 64-byte state of R233 field by field, and its batch register. -/
structure FStream where
  desc : W64 := 0
  ppos : BitVec 32 := 0
  level : BitVec 2 := 0
  kind : BitVec 2 := 0
  isOpen : Bool := false
  nu : Bool := false
  cw : Bool := false
  parked : Bool := false
  pend : BitVec 8 := 0
  popc : BitVec 7 := 0
  pslot : Bool := false
  lv : Bool := false
  vfmt : BitVec 4 := 0
  cur : BitVec 32 := 0
  endp : BitVec 32 := 0
  last : BitVec 32 := 0
  nval : BitVec 32 := 0
  run : BitVec 32 := 0
  stated : BitVec 32 := 0
  arr1 : W64 := 0
  vbase : BitVec 32 := 0
  extent : BitVec 32 := 0
  values : W64 := 0
  coord : V4096 := 0
  posA : V4096 := 0
  posB : V4096 := 0
  park : Option Park := none
  deriving DecidableEq, Repr

/-- A weight buffer (R66, R187, R227, R367). -/
structure WBuf where
  half0 : BitVec 524288 := 0
  half1 : BitVec 524288 := 0
  full0 : Bool := false
  full1 : Bool := false
  cursorHalf : Bool := false
  cursorOff : Nat := 0
  nextFill : Bool := false
  group : Option Nat := none
  deriving DecidableEq, Repr

/-- A format-register write with the number of its bundle (R24). -/
structure FmWrite where
  ctx : Ctx
  eseq : BitVec 32
  n : Nat
  val : BitVec 32
  /-- every op of its context that has still to issue sees it, whatever its number -/
  settled : Bool := false
  deriving DecidableEq, Repr

/-- An SWAIT that holds the S unit (R143). -/
structure SWaitRun where
  f : SOp
  since : Nat
  limit : Nat
  deriving DecidableEq, Repr

/-- The context of a task on a core: everything R306 saves. -/
structure Engine where
  user : GenCtx := {}
  emitQ : List EmitEntry := []
  slotQ : Vector (List QOp) 6 := Vector.replicate 6 []
  /-- the first cycle in which each slot's unit is free; the M entry is the array (R61, R177) -/
  unitFree : Vector Nat 6 := Vector.replicate 6 0
  drainFree : Nat := 0
  vrun : Vector (Option VRun) 2 := Vector.replicate 2 none
  xrun : Vector (Option XRun) 2 := Vector.replicate 2 none
  swait : Option SWaitRun := none
  landings : List Landing := []
  snapshot : List SnapEntry := []
  /-- the first cycle of issue after the last resumption (R299) -/
  resumed : Nat := 0
  fmPend : List FmWrite := []
  s : Vector W64 64 := Vector.replicate 64 0
  q : BitVec 16 := 1
  v : Vector V4096 32 := Vector.replicate 32 0
  m : Vector M512 8 := Vector.replicate 8 (BitVec.allOnes 512)
  fm : Vector (BitVec 32) 4 := Vector.replicate 4 6
  ma : Vector W64 8 := Vector.replicate 8 0
  tags : BitVec 8 := 0
  cL : Nat := 0
  cS : Nat := 0
  cC : Nat := 0
  cT : Nat := 0
  probe : BitVec 32 := 0
  bindings : List Binding := []
  alatch : Option ALatch := none
  rowMask : BitVec 256 := BitVec.allOnes 256
  macc : Option MaccRun := none
  drain : Option DrainRun := none
  /-- per tile op that only waits for its completion: the first cycle in which T no longer counts it (R178) -/
  tiles : List Nat := []
  /-- the first cycle after the last accumulation has landed (R185, R188), and the first in which the M slot may issue again -/
  accLands : Nat := 0
  mNext : Nat := 0
  /-- scratchpad banks that M accesses use, up to a cycle (R195, R250) -/
  mBusy : List (Nat × BitVec 16) := []
  /-- banks that slot accesses use, up to a cycle: copies take what is left over (R195) -/
  xBusy : List (Nat × BitVec 16) := []
  ac0 : Vector V4096 256 := Vector.replicate 256 0
  ac1 : Vector V4096 256 := Vector.replicate 256 0
  /-- true when ac1 is the active bank -/
  ac1Active : Bool := false
  ganged : Bool := false
  /-- gang handshakes made, and the latest array op issued in the gang (R193) -/
  gangN : Nat := 0
  gangOp : Option GangOp := none
  /-- a cycle in which a member's own bundle or tags hold its array op, so that none of the four issues (R193) -/
  gangHeld : Option Nat := none
  oq : Vector (List V4096) 4 := Vector.replicate 4 []
  /-- per queue: the first cycle in which the latest drain into it is in flight no more (R191) -/
  drainEnds : Vector Nat 4 := Vector.replicate 4 0
  gq : List GElem := []
  f : Vector FStream 8 := Vector.replicate 8 {}
  /-- the latest cycle in which an X0 op naming streams issued, and those streams (R235) -/
  fIssued : Nat × List Nat := (0, [])
  ch : Vector Chan 8 := Vector.replicate 8 {}
  wb : Vector WBuf 2 := Vector.replicate 2 {}
  xacc : List XAcc := []
  bg : List Bg := []
  /-- the record of the latest BARR: barrier and the phase joined (R224) -/
  barrec : Option (Nat × Nat) := none
  /-- per latency class: the last channel that issued a copy, and the first cycle in which the class may issue again (R208) -/
  copyTurn : Vector (Nat × Nat) 4 := Vector.replicate 4 (7, 0)
  deriving DecidableEq, Repr

/-! ### Faults and stops (R293 to R306) -/

/-- What a fault record is written from (R301). -/
structure FaultInfo where
  src : Nat
  cause : BitVec 9
  levelE : Bool
  async : Bool
  hm : Bool := false
  pv : Bool := false
  ctx : Ctx := .user
  gpc : BitVec 48 := 0
  index : BitVec 16 := 0
  opbits : W64 := 0
  addr : W64 := 0
  eseq : Option (BitVec 32) := none
  stamp : W64 := 0
  det0 : W64 := 0
  det1 : W64 := 0
  deriving DecidableEq, Repr

/-- What becomes of a killed task (R334, R337, R352, R390). -/
inductive KillHow where
  /-- the end is recorded -/
  | record
  /-- without record: the task becomes ready again from its record -/
  | again
  /-- without record: the task is forgotten -/
  | discard
  deriving DecidableEq, Repr

/-- Why a core stops (R295, R306, R334, R391, R394). -/
inductive StopWhy where
  | fault
  /-- pre-emption: the task is saved; `waits` when it yielded and becomes ready only when its condition can be met (R331) -/
  | save (waits : Bool)
  /-- a kill (R334, R337, R352) -/
  | kill (how : KillHow)
  deriving DecidableEq, Repr

/-- A core that stops or has stopped: the cycle b, why, the fault records in the order in which they are reported, and
whether the stop boundary B is reached. -/
structure Stop where
  b : Nat
  why : StopWhy
  faults : List FaultInfo
  reached : Bool := false
  /-- the stop boundary B, once reached (R295) -/
  at_ : Option Nat := none
  /-- the cycle b of the first of the stops since the core last ran (R297) -/
  first : Nat := b
  deriving DecidableEq, Repr

/-! ### Cores -/

/-- An L1 line (R252, R274): line address, data, dirty bytes, colour set, read count. -/
structure Line where
  pa : Nat
  data : BitVec 1024
  dirty : BitVec 128 := 0
  cols : BitVec 8 := 0
  count : Option Nat := none
  deriving DecidableEq, Repr

/-- A store that its core's write buffer or network port has accepted and that is performed at core scope only (R273): its place, its bytes
and colour, and whether the L2 takes no copy of its page. -/
structure Buffered where
  loc : Loc
  data : List Byte
  col : BitVec 3
  ca : Bool := false
  deriving DecidableEq, Repr

/-- A 64-byte granule of memory: at a physical address, or of a core's Loft or scratchpad. -/
inductive Granule where
  | phys (g : Nat)
  | loft (core g : Nat)
  | scratch (core g : Nat)
  deriving DecidableEq, Repr

/-- Bytes of a granule whose reads end with a fault kind: 6 lost, until they are written (R389), or 4 denied at their target. -/
structure Lost where
  at_ : Granule
  bytes : BitVec 64
  kind : BitVec 3
  deriving DecidableEq, Repr

/-- A translation that is held (R264, R266), with the level of its leaf and the entry read (R312). -/
structure Tlb where
  bay : Nat
  va : Nat
  size : Nat
  pa : Nat
  ca : Bool
  ag : Nat
  r : Bool
  w : Bool
  x : Bool
  rp : Bool
  lvl : Nat := 3
  entry : W64 := 0
  deriving DecidableEq, Repr

/-- An upper-level entry in a page-walk cache (R266): the bay, the level of the table it leads to and the address bits above that
level's index; the table and the running permission. -/
structure TableHeld where
  bay : Nat
  lvl : Nat
  up : Nat
  table : Nat
  rp : Bool
  deriving DecidableEq, Repr

/-- One 64-byte sector of an L2 line (R255): whether it is dirty, and the bytes that system scope holds. What the L2 itself holds is the
value of the bytes at their point of coherence (`State.mem`). -/
structure Sector where
  dirty : Bool
  back : BitVec 512
  deriving DecidableEq, Repr

/-- An L2 line (R255, R258): its line number PA[47:7], the slice that holds it, its two sectors, and the cluster of the latest accesses
with their number. -/
structure L2Line where
  pa : Nat
  slice : Nat
  lo : Option Sector := none
  hi : Option Sector := none
  cluster : Nat := 0
  run : Nat := 0
  deriving DecidableEq, Repr

/-- A fault found by the access checks: its cause and detail, and whether the host may answer it (R269). -/
structure AErr where
  cause : BitVec 9
  addr : W64
  det0 : W64 := 0
  det1 : W64 := 0
  replayable : Bool := false
  rp : Bool := false
  walk : W64 := 0
  deriving DecidableEq, Repr

/-- A fault that a copy channel or fibre stream met on a page ahead of its cursor, kept until the cursor reaches the page (R267): the
agent (channel n, or 8 + n for stream n), the bay, the access kind, the 4-KiB page. -/
structure Ahead where
  agent : Nat
  bay : Nat
  kind : Nat
  page : Nat
  err : AErr
  deriving DecidableEq, Repr

/-- A bundle the expander waits for after a dictionary cache miss (R59). -/
structure DictMiss where
  entry : EmitEntry
  readyAt : Nat
  deriving DecidableEq, Repr

/-- A Cask directory entry (R355), with the order of its last CKSTORE (R356). -/
structure CaskEntry where
  v : Bool
  kind : Bool
  policy : Nat
  bay : Nat
  step : BitVec 16
  skips : Nat
  seq : Nat
  slot : Nat
  layer : Nat
  tile : Nat
  reflen : Nat
  outlen : Nat
  celloff : BitVec 32
  dest : W64
  order : Nat
  /-- the graph whose task stored it last (R354) -/
  graph : Nat
  deriving DecidableEq, Repr

/-- The copies of a CKSTORE or CKSKIP in progress (R360 to R362): whose it is, the granules still to be copied as source, destination and
bytes, and the entry that it writes or republishes. -/
structure CaskJob where
  ctx : Ctx
  skip : Bool
  spans : List (W64 × W64 × Nat)
  entry : CaskEntry
  deriving DecidableEq, Repr

/-- One logical core. -/
structure Core where
  /-- the task that holds the core -/
  task : Option Nat := none
  e : Engine := {}
  fw : GenCtx := {}
  fwShare : BitVec 4 := 4
  /-- firmware issues and expansions in the current 256-cycle window (R47, R57) -/
  fwUsed : Nat := 0
  fwExpUsed : Nat := 0
  l1 : List Line := []
  /-- stores performed at core scope only, oldest first; and whether stores of the kinds that R273 buffers stay here a while -/
  wbuf : List Buffered := []
  buffers : Bool := false
  /-- the task whose lines the L1 holds (R291, R306) -/
  l1Task : Option Nat := none
  /-- cached bundles, most recently used first, each of the dictionary of a context (R57, R59) -/
  dcache : List ((Ctx × BitVec 16) × BitVec 384) := []
  /-- the instruction cache, 256 lines of 128 bytes by physical line number, newest first (R46, R137; assumption 19) -/
  icache : List (Nat × BitVec 1024) := []
  dmiss : Option DictMiss := none
  loft : Mem := []
  scratch : Mem := []
  tlb : List Tlb := []
  ahead : List Ahead := []
  /-- scratchpad stores of this cycle, written at its end (R200) -/
  endStores : List (Nat × Byte) := []
  stop : Option Stop := none
  /-- a cycle in which a fault is to stop the core, known before its waiting ops are tried (R297) -/
  faultDue : Option Nat := none
  /-- faults that arose while the core was stopped for another (R305) -/
  held : List FaultInfo := []
  /-- a stop request that waits for the present stop to end (R305) -/
  stopNext : Option StopWhy := none
  /-- the core restores a saved context (R330) -/
  restoring : Bool := false
  /-- issue is stalled up to this cycle by a recalibration (R394) -/
  stallUntil : Nat := 0
  lastBay : Option Nat := none
  /-- granules that a Cask copy of this core moves in a cycle, all of them for 0, and the copies in progress (R362; assumption 59) -/
  caskRate : Nat := 0
  caskJob : Option CaskJob := none
  /-- a recalibration that stalls the core once it stands at a bundle boundary: the cycle of its request and its length (R394) -/
  stallWant : Option (Nat × Nat) := none
  /-- a checked firmware image that starts once no op of the old one's stream is in progress (R393) -/
  fwNext : Option (List Byte) := none
  offline : Bool := false
  /-- the physical core behind the logical index (R1, R391) -/
  physical : Nat := 0
  image : List Byte := []
  deriving DecidableEq, Repr

/-! ### Synchronisation objects -/

/-- A Ridge barrier (R223, R378); `children` are the closed child barriers whose arrival it counted. -/
structure Barrier where
  target : Nat := 0
  arrived : Nat := 0
  held : Nat := 0
  pend : Int := 0
  phase : Bool := false
  scope : BitVec 3 := 0
  phases : Nat := 0
  /-- the cycle in which its latest phase completed -/
  doneAt : Option Nat := none
  closed : Bool := false
  /-- a completion of the parent's phase is on its way to this closed child (R378) -/
  granted : Bool := false
  children : List (Nat × Nat) := []
  heldChildren : List (Nat × Nat) := []
  deriving DecidableEq, Repr

/-- A publish slot record (R271). -/
structure PubSlot where
  vbase : BitVec 40 := 0
  b0 : BitVec 32 := 0
  b1 : BitVec 32 := 0
  nblk : BitVec 32 := 0
  sel : Bool := false
  en : Bool := false
  bay : BitVec 12 := 0
  deriving DecidableEq, Repr

/-! ### Bays, tasks, graphs (R316 to R353) -/

/-- A Cask policy (R357). -/
structure Policy where
  thresh : BitVec 32 := 0x7FC00000
  maxskip : BitVec 8 := 0
  maxdist : BitVec 8 := 0
  metric : Bool := false
  cfmt : BitVec 4 := 8
  rbase : BitVec 32 := 0
  cell : BitVec 32 := 0
  configured : Bool := false
  deriving DecidableEq, Repr

/-- A Loft extent of a bay (R318): core, first 64 KiB unit, units. -/
structure Extent where
  core : Nat
  first : Nat
  units : Nat
  deriving DecidableEq, Repr

/-- The fields of a bay control block that the override bits of R317 cover (R316); the defaults are the root's reset values. -/
structure BayVals where
  prio : BitVec 4 := 0
  weight : BitVec 8 := 1
  dlstop : Bool := false
  pol : Bool := false
  det : Bool := false
  phased : Bool := false
  spns : Bool := false
  cmin : BitVec 9 := 0
  cmax : BitVec 9 := 320
  loft : BitVec 7 := 96
  quantum : BitVec 24 := 0
  yield : BitVec 8 := 0
  rp : Bool := true
  ag : BitVec 4 := 0
  lres : BitVec 8 := 0
  ptroot : BitVec 28 := 0
  cores : BitVec 320 := BitVec.allOnes 320
  caskbase : W64 := 0
  casklen : W64 := 0
  phbar : BitVec 12 := 0
  phen : Bool := false
  dlh : W64 := 0
  savebase : W64 := 0
  savecnt : BitVec 32 := 320
  flogbase : W64 := 0
  flogsz : BitVec 8 := 10
  shbase : W64 := 0
  shlen : W64 := 0
  deriving DecidableEq, Repr

/-- A bay: its control block (R316), the effective values it took at its last dispatch (R317), and what the device keeps for it. -/
structure Bay where
  bay : Nat
  parent : Nat := 0
  depth : Nat := 0
  ovr : BitVec 16 := BitVec.allOnes 16
  own : BayVals := {}
  eff : BayVals := {}
  extents : List Extent := []
  policies : Vector Policy 64 := Vector.replicate 64 {}
  credit : Nat := 0
  /-- phases that its phase barrier had completed when the first of the RUNs now in progress started (R290) -/
  phase0 : Nat := 0
  /-- the bay is being killed, with the status of its RUNs (R333, R334) -/
  killing : Option (BitVec 8) := none
  /-- telemetry: aborts, dropped records, Cask refusals (R337, R333, R356) -/
  aborts : Nat := 0
  dropped : Nat := 0
  refusals : Nat := 0
  deriving DecidableEq, Repr

/-- How a task ended (R343, R345). -/
inductive End where
  | retired (code : BitVec 8)
  | skippedPublish
  | skippedCopy
  | faulted (cause : BitVec 9)
  | killed
  | absent
  deriving DecidableEq, Repr

/-- How a task leaves its cores: it ends, becomes ready again, or is forgotten (R334, R337, R352). -/
inductive Leave where
  | ends (how : End)
  | again
  | discard
  deriving DecidableEq, Repr

/-- Where a task stands. -/
inductive TStat where
  | ready
  | running
  | saving
  /-- saved in a save slot per core; `waits` when it yielded a wait (R331) -/
  | saved (slots : List Nat) (waits : Bool)
  /-- its work is being completed on its cores (R291) -/
  | retiring (how : Leave)
  /-- a deterministic task that has left its core, or has faulted, and awaits its turn in commit order (R335) -/
  | done (how : End)
  /-- it has ended, and the sequencer has still to record it (R343) -/
  | ended (how : End)
  deriving DecidableEq, Repr

/-- What kind of task it is (R125, R343, R350). -/
inductive TKind where
  | graph
  | child (parent ordinal : Nat)
  | deadline
  deriving DecidableEq, Repr

/-- A child in a child set (R126, R348): a task or a child graph, and how it ended, if it has. -/
structure Child where
  ordinal : Nat
  id : Nat
  isGraph : Bool
  how : Option End
  deriving DecidableEq, Repr

/-- A FADD kept for commit (R338). -/
structure Fadd where
  va : W64
  wide : Bool
  operand : W64
  deriving DecidableEq, Repr

/-- A Cask directory change kept for commit (R363): the core and the CKSTORE or CKSKIP it belongs to. -/
structure CaskChange where
  layer : Nat
  tile : Nat
  skip : Bool
  words : Vector W64 4
  publish : Option Nat
  /-- the 64-byte lines of the cell that it wrote in the task's shadow (R356) -/
  lines : List Nat := []
  deriving DecidableEq, Repr

/-- What is saved of one core at pre-emption (R306, R401, R305): the engine, the scratchpad, the fault-record line, and the stop and
the held faults of a core stopped in handler mode. -/
structure Saved where
  e : Engine
  scratch : Mem
  line : List Byte
  stop : Option Stop
  held : List FaultInfo
  deriving DecidableEq, Repr

/-- One task instance. -/
structure Task where
  id : Nat
  bay : Nat
  graph : Nat
  run : Nat
  kind : TKind
  index : Nat
  step : Nat
  rec_ : Vector W64 8 := Vector.replicate 8 0
  recAddr : W64 := 0
  seed : W64 := 0
  ms : Vector W64 16 := Vector.replicate 16 0
  stat : TStat := .ready
  gang : Bool := false
  /-- the cores it was placed on last -/
  cores : List Nat := []
  /-- how its members on these cores have ended their programs -/
  trets : List (Nat × End) := []
  /-- the instruction that waited when it yielded its core (R331) -/
  waitFor : Option Instr := none
  readySince : Nat := 0
  quantumFrom : Nat := 0
  children : List Child := []
  nextOrd : Nat := 0
  /-- the latest CKDECIDE's outcome, and whether a CKSTORE has been made (R131 to R133) -/
  decision : Option Bool := none
  stored : Bool := false
  /-- the pending-launch pool entry it holds: die, and whether from the reserve (R348) -/
  pool : Option (Nat × Bool) := none
  /-- its saved context, one entry per core of `cores` (R306) -/
  saved : List Saved := []
  /-- a task of another bay has used a core of a saved task meanwhile (R330) -/
  scratchLost : Bool := false
  /-- an own-Loft access has been made since the last start (R391) -/
  ownLoft : Bool := false
  /-- deterministic bays: shadow lines, read set, kept FADDs and Cask changes (R336, R338, R363) -/
  shadow : List (Nat × BitVec 512) := []
  readSet : List Nat := []
  fadds : List Fadd := []
  cask : List CaskChange := []
  unshadowed : Bool := false
  /-- a write of it waits for a free line of the shadow arena; the lines it has written since it goes on without a shadow (R338) -/
  starved : Bool := false
  wrote : List Nat := []
  /-- it has been aborted while it held cores, and runs again once it has left them (R337) -/
  aborted : Bool := false
  /-- a deadline handler, or descended from one: it holds no step open and belongs to no attempt of one (R350, R352) -/
  ofHandler : Bool := false
  deriving DecidableEq, Repr

/-- One task queue of a sequencer with its spill ring (R346, R347, R384). -/
structure TQueue where
  q : List (BitVec 512) := []
  base : W64 := 0
  rsize : Nat := 0
  /-- ring records: the number of the first, and how many -/
  head : Nat := 0
  count : Nat := 0
  /-- waiting pops in the order in which they began to wait: core, and the wait's own mark -/
  pops : List (Nat × Nat) := []
  /-- the first cycle in which pops and pushes may be served again, and the first in which a record may move from the ring -/
  served : Nat := 0
  moved : Nat := 0
  /-- records that started moves have read, oldest first; they are still in the ring (R384) -/
  moving : List (BitVec 512) := []
  deriving DecidableEq, Repr

/-- Where a graph stands (R339, R342, R343). -/
inductive GStat where
  | waiting
  | assigned
  | betweenSteps
  | running
  | ended
  deriving DecidableEq, Repr

/-- A checkpoint list entry (R351). -/
structure Ckpt where
  src : W64
  dst : W64
  len : Nat
  deriving DecidableEq, Repr

/-- A checkpoint copy or restore in progress (R351 to R353): its direction, the entries still to be copied, and the schedule record with
which the step then begins, where it has been read. -/
structure CkptJob where
  back : Bool
  left : List Ckpt
  words : List W64 := []
  deriving DecidableEq, Repr

/-- A step graph on its way (R339 to R353). -/
structure Graph where
  id : Nat
  run : Nat
  bay : Nat
  desc : W64
  /-- the descriptor as LAUNCH.G read it (R125) -/
  words : List W64 := []
  seq : Option Nat := none
  stat : GStat := .waiting
  /-- a child graph: the graph, task and ordinal of its parent -/
  parent : Option (Nat × Nat × Nat) := none
  pool : Option (Nat × Bool) := none
  killed : Bool := false
  die : Nat := 0
  ntask : Nat := 0
  nstep : Nat := 0
  boost : Nat := 0
  haltf : Bool := false
  cken : Bool := false
  tasksAddr : W64 := 0
  sched : W64 := 0
  rrbase : W64 := 0
  dl : Vector (BitVec 32) 16 := Vector.replicate 16 0
  ckpts : List Ckpt := []
  succ : List (List Nat) := []
  npred : List Nat := []
  /-- record words w0 as read at acceptance: stage, gang and the ONLY bits of each task -/
  w0s : List W64 := []
  step : Nat := 0
  ms : Vector W64 16 := Vector.replicate 16 0
  trel : Nat := 0
  cnt : List Nat := []
  released : List Bool := []
  ended : List Bool := []
  boosted : Bool := false
  /-- stages whose deadline has been evaluated in this step -/
  expired : BitVec 16 := 0
  /-- a task of the step faulted and was contained -/
  faultedStep : Bool := false
  queues : Vector TQueue 4 := Vector.replicate 4 {}
  ckptStep : Option Nat := none
  ckptJob : Option CkptJob := none
  /-- a range report asks for the step to be run again, and the step has been run again once (R352) -/
  rerun : Bool := false
  reran : Bool := false
  /-- ends of its tasks: retired, skipped, faulted, killed, and the cause of the first faulted -/
  nRet : Nat := 0
  nSkip : Nat := 0
  nFault : Nat := 0
  nKill : Nat := 0
  firstCause : Option (BitVec 9) := none
  /-- it descends from a deadline handler -/
  ofHandler : Bool := false
  /-- these ends as they stood when the present step began, deadline handlers' ends since included, and the number from which the marks of
  failing tasks noted since count (R352) -/
  base : Nat × Nat × Nat × Nat := (0, 0, 0, 0)
  baseFails : Nat := 0
  /-- graph tasks of the present step whose end has been recorded: number, index and end (R390); and the indices whose successors' counts
  have been lowered -/
  past : List (Nat × Nat × End) := []
  lowered : List Nat := []
  /-- indices of tasks that a range report has named in the present step, its re-run included (R390) -/
  reported : List Nat := []
  /-- Cask entries stored or skipped in the present attempt of the step, with their SKIPS at its start (R364) -/
  attempt : List (Nat × Nat × Bool × Nat) := []
  deriving DecidableEq, Repr

/-- A linked part of a RUN, or a Sparge program that firmware has started (R327, R365): its RUN, its bay, its program and how it
stands. -/
structure Part where
  id : Nat
  run : Option Nat
  bay : Nat
  sparge : Bool
  words : Vector W64 8 := Vector.replicate 8 0
  started : Bool := false
  done : Bool := false
  deriving DecidableEq, Repr

/-- A buffer list entry (R324). -/
structure Buffer where
  addr : W64
  len : Nat
  mode : Nat
  col : BitVec 3
  acc : BitVec 2
  ored : Bool
  obj : Option BindObj
  deriving DecidableEq, Repr

/-- A failing task of a RUN (R323): the graphs it belonged to, its step and index (0xFFFF for a linked part or a checkpoint), its
cause, or that it was killed. -/
structure Fail where
  via : List Nat
  step : Nat
  index : Nat
  cause : BitVec 9
  killed : Bool
  /-- the end of a deadline handler, or of a task that descends from one, which no re-run of a step discards (R345, R352) -/
  handler : Bool := false
  /-- the model's own counter when it was noted -/
  mark : Nat := 0
  deriving DecidableEq, Repr

/-- A RUN in progress (R322 to R327, R345). -/
structure Run where
  id : Nat
  packet : Nat
  bay : Nat
  graph : Nat
  seed : W64
  buffers : List Buffer := []
  nRet : Nat := 0
  nSkip : Nat := 0
  nFault : Nat := 0
  nKill : Nat := 0
  fails : List Fail := []
  killed : Bool := false
  escalated : Bool := false
  profs : BitVec 16 := 0
  epoch0 : BitVec 32 := 0
  l2w : BitVec 32 := 0
  /-- kernels digested: ENTRY and the bytes read for CODE; CODEBAD -/
  kernels : List (Nat × List Byte) := []
  codebad : Bool := false
  /-- the bay's policies at RUN start and each change applied since (R397) -/
  policies : List Byte := []
  /-- what the bay had before this RUN gave it its values anew, while no other has run in it since (R323) -/
  before : Option (BayVals × Nat) := none
  /-- tasks that are no more: number, index and step (R389) -/
  gone : List (Nat × Nat × Nat) := []
  deriving DecidableEq, Repr

/-- A packet that has started and not completed (R321 to R323): its words, the cycle of its start, and its status and w2 once known. -/
structure Packet where
  id : Nat
  ring : Nat
  words : Vector W64 8
  since : Nat
  done : Option (Nat × W64)
  deriving DecidableEq, Repr

/-- A loaded kernel with a .scratch image (R93): its bay, its code, and where the image goes in the scratchpad. -/
structure Kernel where
  bay : Nat
  code : W64
  len : Nat
  scratch : Nat
  image : List Byte
  deriving DecidableEq, Repr

/-- A submission ring (R319, R320). -/
structure Ring where
  w0 : W64 := 0
  w1 : W64 := 0
  head : Nat := 0
  tail : Nat := 0
  deriving DecidableEq, Repr

/-- An unanswered host fault-queue record (R269, R380). -/
structure FqRec where
  token : Nat
  refused : Bool
  core : Nat
  agent : Agent
  n : Nat
  deriving DecidableEq, Repr

/-- The host fault queue (R380). -/
structure Fq where
  w0 : W64 := 0
  w1 : W64 := 0
  count : Nat := 0
  nextToken : Nat := 0
  open_ : List FqRec := []
  deriving DecidableEq, Repr

/-- A Sparge channel (R365 to R369). -/
structure Sparge where
  part : Option Nat := none
  portion : Nat := 0
  /-- subscribers that received the final portion -/
  lastTo : List (Nat × Nat) := []
  /-- the next unused block of format 1 -/
  block : Nat := 0
  park : Option Park := none
  deriving DecidableEq, Repr

/-- A Purlin link (R373, R374). -/
structure Link where
  up : Bool := true
  /-- spare lanes left and lanes in use -/
  spares : Nat := 1
  lanes : Nat := 8
  /-- class-2 flits not yet acknowledged: target package and what they carry -/
  unacked : List (Nat × RemoteOp) := []
  deriving DecidableEq, Repr

/-- An SPDM base asymmetric algorithm that the device offers (R396). -/
inductive AsymAlgo where
  | edDsaEd448
  deriving DecidableEq, Repr

/-- An SPDM base hash algorithm that the device offers (R396). -/
inductive HashAlgo where
  | sha384
  | sha512
  deriving DecidableEq, Repr

/-- Something the package has sent to an agent outside it: over Purlin, over DOE, or as register read data. -/
inductive Sent where
  | flit (link package offset : Nat) (op : RemoteOp)
  /-- traffic for another package, passed on (R372) -/
  | forward (link : Nat) (r : RemoteRequest)
  | readData (package : Nat) (bytes : List Byte)
  /-- a request of another package ended with a fault kind (R375, R307) -/
  | denied (package : Nat) (kind : BitVec 3)
  | ack (package : Nat)
  | doe (bytes : List Byte)
  /-- the algorithms offered over SPDM, and each firmware layer's alias key with its certificate (R396) -/
  | spdmAlgorithms (asym : List AsymAlgo) (hashes : List HashAlgo)
  | certificates (chain : List (List Byte × List Byte))
  | hostRead (bytes : List Byte)
  | powerDown (die : Nat)
  /-- a long-reach read: target package, stack, HBM offset and length (R371) -/
  | longReach (package stack offset len : Nat)
  /-- the answer to a snoop of the host or of a pool device (R286, R288) -/
  | snoopData (address : Nat) (bytes : List Byte)
  /-- a byte post of a package was not applied (R225, R376) -/
  | postFault (package : Nat) (cause : BitVec 9)
  deriving DecidableEq, Repr

/-- Telemetry counters (R398): corrected errors per class-5 unit, range reports, and the Cask refusals, aborts and dropped records of bays
that exist no more. -/
structure Telemetry where
  corrected : Vector Nat 8 := Vector.replicate 8 0
  reports : Nat := 0
  refusals : Nat := 0
  aborts : Nat := 0
  dropped : Nat := 0
  deriving DecidableEq, Repr

/-! ### The package -/

/-- What a reader outside the device names in the debug space: a format register of a core (R21), a Cask entry by its die and key (R355),
the patched BCIMM and first patch value of the op at the head of a slot's queue (R301; assumption 90). -/
inductive DebugRead where
  | formatRegister (core n : Nat)
  | caskEntry (die bay layer tile : Nat)
  | provenance (core : Nat) (slot : Slot)
  deriving DecidableEq, Repr

/-- What moves next. The order in which the agents of the package act, where the manual leaves it open, is the order of this
list in the state (assumption 3). -/
inductive Move where
  /-- a generator context has the issue port of its core -/
  | gen (core : Nat) (ctx : Ctx)
  /-- the issue port of a core goes to the context that R47 gives it -/
  | port (core : Nat)
  /-- the slots of a core test their heads and those that may issue are listed, in slot order (R61, R63) -/
  | issue (core : Nat)
  /-- the op at the head of a slot issues -/
  | slot (core : Nat) (slot : Slot)
  /-- a step that is no instruction word, or an input from outside -/
  | op (i : Instr)
  /-- the later beats of the ops that run on a core -/
  | begin (core : Nat)
  /-- what a core does of itself as a cycle ends: waits that complete or expire, the expander, results that land -/
  | finish (core : Nat)
  /-- the next packet of a submission ring -/
  | ring (n : Nat)
  /-- a move of a record from a spill ring to its queue starts (R384); RING_TO_QUEUE_MOVE ends it -/
  | ringMoveStart (graph q : Nat)
  /-- an L2 line is evicted (R255, R288) -/
  | l2Evict (line : Nat)
  /-- a core's L1 writes a dirty line back of itself (R253, R277) -/
  | l1WriteBack (core line : Nat)
  /-- another host writes pool memory whose device does not accept back-invalidation (R288) -/
  | poolWrite (address : Nat) (data : List Byte)
  /-- an agent outside reads host memory or the pool without coherence (R286) -/
  | systemRead (address len : Nat)
  /-- firmware writes an L2 window register (R257, R258) -/
  | l2Window (n : Nat) (value : W64)
  /-- reads of a 64-byte granule end with a fault kind: 6 lost or poisoned (R374, R379, R387), 4 denied by its target (R370, R375) -/
  | readFails (granule : Granule) (kind : BitVec 3)
  /-- reads of the granule return data again -/
  | readHeals (granule : Granule)
  /-- the oldest stores of a core's write buffer are performed at package scope (R273) -/
  | drainBuffer (core n : Nat)
  /-- whether a core's buffered stores stay in its write buffer from now on (R273) -/
  | buffering (core : Nat) (on : Bool)
  /-- the RAS unit reports a class-5 event that no other event of the model implies (R307) -/
  | ras (cause : BitVec 9)
  /-- the answer of another package to a request: a counted access or a copy of a core ends with fault kind 4 there (R370, R375) -/
  | denial (core id : Nat)
  /-- another package reports that a byte post of a channel was not applied: 0x100 or 0x102 (R225, R376) -/
  | postRefused (core ch iter : Nat) (cause : BitVec 9)
  /-- how many granules a Cask copy of a core moves in a cycle from now on; 0: all of them (R362) -/
  | caskRate (core n : Nat)
  /-- firmware starts a Sparge program in a bay (R365) -/
  | spargeProgram (bay : Nat) (words : List W64)
  /-- firmware writes the DSP_AGE setting (R329) -/
  | dspAge (cycles : Nat)
  /-- the host driver or a debugger reads the debug space (R21, R301, R355) -/
  | debug (r : DebugRead)
  /-- an SPDM requester asks for the algorithms, or for the certificates of the alias keys (R396) -/
  | spdmAlgorithms
  | certificates
  /-- the cycle ends -/
  | tick
  deriving DecidableEq, Repr

/-- The core, context and slot whose op is being executed, and the op's bundle and field. -/
structure Cur where
  core : Nat := 0
  ctx : Ctx := .user
  slot : Slot := .s
  info : BInfo := {}
  bits : BitVec 64 := 0
  deriving DecidableEq, Repr

/-- The registers of BAR0 and of firmware that hold plain configuration (R257, R370, R372, R375, R378, R329). -/
structure Regs where
  l2w : Vector W64 16 := Vector.replicate 16 0
  eavCtl : Bool := false
  eavAct : Vector (W64 × W64) 256 := Vector.replicate 256 (0, 0)
  plkSelf : BitVec 6 := 0
  plkRoute : Vector W64 64 := Vector.replicate 64 0
  plkLwin : Vector (W64 × W64) 16 := Vector.replicate 16 (0, 0)
  rdgTree : Vector W64 64 := Vector.replicate 64 0
  dspAge : Nat := 65536
  deriving DecidableEq, Repr

/-- A reservation of a half cluster for an aged gang (R329): die, task, first core of the half. -/
structure Reservation where
  die : Nat
  task : Nat
  first : Nat
  deriving DecidableEq, Repr

/-- The state of the package. -/
structure State where
  /-- the package cycle counter (R71) -/
  now : Nat
  /-- the moves still to be made -/
  sched : List Move
  cur : Cur
  /-- the model's own counter: names new objects, ranks issues, and indexes free values -/
  fresh : Nat
  cores : Vector Core 320
  /-- HBM, host memory and the CXL pool at their points of coherence, by physical address (R259) -/
  mem : Mem
  /-- the L2 lines, latest used first (R255) -/
  l2 : List L2Line
  /-- bytes whose reads end with a fault kind -/
  lost : List Lost
  /-- the translations held by each cluster, and the upper-level entries held on each die (R266) -/
  clusterTlb : Vector (List Tlb) 40
  tables : Vector (List TableHeld) 2
  bays : List Bay
  tasks : List Task
  graphs : List Graph
  runs : List Run
  parts : List Part
  packets : List Packet
  seqs : Vector (Option Nat) 32
  barriers : List (Nat × Barrier)
  pubs : Vector PubSlot 256
  rings : Vector Ring 64
  fq : Fq
  cask : Vector (List CaskEntry) 2
  sparge : Vector Sparge 64
  regs : Regs
  links : Vector Link 12
  /-- the last bay served at each dispatch level (R328) -/
  lastServed : Vector Nat 17
  /-- per die, the first cycle in which its dispatcher may place again -/
  placed : Vector Nat 2
  reservations : List Reservation
  /-- kernels that the loader has recorded with an image (R93) -/
  kernels : List Kernel
  clock : Vector ClockStep 2
  /-- per die: eighths of a period gathered towards the next edge of its own clock, whether that clock has an edge in the present
  period of the 1.2 GHz reference, and the edges it has had (R5, R395) -/
  clockAcc : Vector Nat 2
  clockEdge : Vector Bool 2
  clockEdges : Vector Nat 2
  powered : Vector Bool 2
  /-- the die that has asked the package to power down, until every task has left its core (R395) -/
  shutdown : Option Nat
  /-- the physical cores that each die still holds as spares (R391) -/
  spares : Vector (List Nat) 2
  /-- firmware epoch (R393) -/
  epoch : BitVec 32
  /-- the 64 most recent manifest entries, oldest first (R397) -/
  manifest : List (List Byte)
  telemetry : Telemetry
  /-- L2 slice ways in service and stack channels in full service (R387, R392) -/
  l2Ways : Vector Nat 40
  hbmDegraded : Vector Bool 8
  sent : List Sent
  deriving DecidableEq, Repr

/-- Bay 0 as firmware creates it at reset (R316): every core, every override bit, the whole Loft of every core. -/
def Bay.root : Bay :=
  { bay := 0, extents := (List.range 320).map fun n => { core := n, first := 0, units := 96 } }

/-- The package right after reset: bay 0 exists, no task runs, and every register holds the reset value of its table. -/
def State.reset : State :=
  { now := 0
    sched := []
    cur := {}
    fresh := 0
    cores := Vector.ofFn fun n => { physical := n.val }
    mem := []
    l2 := []
    lost := []
    clusterTlb := Vector.replicate 40 []
    tables := Vector.replicate 2 []
    bays := [Bay.root]
    tasks := []
    graphs := []
    runs := []
    parts := []
    packets := []
    seqs := Vector.replicate 32 none
    barriers := []
    pubs := Vector.replicate 256 {}
    rings := Vector.replicate 64 {}
    fq := {}
    cask := Vector.replicate 2 []
    sparge := Vector.replicate 64 {}
    regs := {}
    links := Vector.replicate 12 {}
    lastServed := Vector.replicate 17 0
    placed := Vector.replicate 2 0
    reservations := []
    kernels := []
    clock := Vector.replicate 2 .full
    clockAcc := Vector.replicate 2 0
    clockEdge := Vector.replicate 2 true
    clockEdges := Vector.replicate 2 0
    powered := Vector.replicate 2 true
    shutdown := none
    spares := Vector.ofFn fun d => (List.range 8).map (320 + 8 * d.val + ·)
    epoch := 0
    manifest := []
    telemetry := {}
    l2Ways := Vector.replicate 40 16
    hbmDegraded := Vector.replicate 8 false
    sent := [] }

/-- Why a step stops with a fault of the model. No rule of the manual stops the machine: every fault it describes is a next
state (R295, R302). -/
inductive Fault where
  /-- a die that has powered down runs nothing (R395): raised by `step` for a move of a core of that die. Safe. -/
  | poweredDown
  deriving DecidableEq, Repr

/-- Why a step gives no meaning. -/
inductive Refusal where
  /-- `exec` has no meaning for the instruction yet. Safe. -/
  | notModelled (mnemonic : String)
  deriving DecidableEq, Repr

end Sys2Proof.Machine
end

