-- ==== Sys2Proof/Machine/Ops.lean ====
section
/-! DEFINITION. The named operations over registers and memory: register access, the point of coherence, the page walk, the L1,
the access checks of R202, raising a fault, writing its record, entering a handler and returning from one. -/

namespace Sys2Proof.Machine

/-- What a step answers. -/
abbrev Out := Host.Outcome State Fault Refusal

/-! ### Cores, contexts, tasks -/

/-- Logical core `n`. -/
def State.core (s : State) (n : Nat) : Core := rd s.cores n {}

/-- The state with core `n` replaced. -/
def State.setCore (s : State) (n : Nat) (c : Core) : State := { s with cores := wr s.cores n c }

/-- The state with core `n` changed. -/
def State.modCore (s : State) (n : Nat) (f : Core → Core) : State := s.setCore n (f (s.core n))

/-- The state with the task context of core `n` changed. -/
def State.modE (s : State) (n : Nat) (f : Engine → Engine) : State := s.modCore n fun c => { c with e := f c.e }

/-- A generator context of a core (R46). -/
def Core.gctx (c : Core) : Ctx → GenCtx
  | .user => c.e.user
  | .firmware => c.fw

/-- A core with a generator context replaced. -/
def Core.setG (c : Core) (x : Ctx) (g : GenCtx) : Core :=
  match x with
  | .user => { c with e := { c.e with user := g } }
  | .firmware => { c with fw := g }

/-- The state with a generator context changed. -/
def State.modG (s : State) (n : Nat) (x : Ctx) (f : GenCtx → GenCtx) : State := s.modCore n fun c => c.setG x (f (c.gctx x))

/-- A new number from the model's own counter, and the state that has used it. -/
def State.bump (s : State) : Nat × State := (s.fresh, { s with fresh := s.fresh + 1 })

/-- The task of a number. -/
def State.taskAt (s : State) (id : Nat) : Option Task := s.tasks.find? (·.id == id)

/-- The state with a task changed. -/
def State.modTask (s : State) (id : Nat) (f : Task → Task) : State :=
  { s with tasks := s.tasks.map fun t => if t.id == id then f t else t }

/-- The graph of a number. -/
def State.graphAt (s : State) (id : Nat) : Option Graph := s.graphs.find? (·.id == id)

/-- The state with a graph changed. -/
def State.modGraph (s : State) (id : Nat) (f : Graph → Graph) : State :=
  { s with graphs := s.graphs.map fun t => if t.id == id then f t else t }

/-- The RUN of a number. -/
def State.runAt (s : State) (id : Nat) : Option Run := s.runs.find? (·.id == id)

/-- The state with a RUN changed. -/
def State.modRun (s : State) (id : Nat) (f : Run → Run) : State :=
  { s with runs := s.runs.map fun t => if t.id == id then f t else t }

/-- The bay of a number. -/
def State.bayAt (s : State) (n : Nat) : Option Bay := s.bays.find? (·.bay == n)

/-- The state with a bay changed. -/
def State.modBay (s : State) (n : Nat) (f : Bay → Bay) : State :=
  { s with bays := s.bays.map fun b => if b.bay == n then f b else b }

/-- The effective values a bay took at its last dispatch (R317). -/
def State.eff (s : State) (n : Nat) : BayVals := ((s.bayAt n).map (·.eff)).getD { ptroot := 0 }

/-- The task on a core. -/
def State.taskOn (s : State) (n : Nat) : Option Task := (s.core n).task.bind s.taskAt

/-- The bay of the task on a core; bay 0 when there is none. -/
def State.bayOn (s : State) (n : Nat) : Nat := ((s.taskOn n).map (·.bay)).getD 0

/-! ### Generator registers (R46, R303) -/

/-- Reads a g register: g0 is zero, and g28 to g31 name hg28 to hg31 in handler mode. -/
def gReg (g : GenCtx) (r : Reg) : W64 :=
  if r = 0 then 0
  else if g.handler && decide (28 ≤ r.toNat) then rd g.hg (r.toNat - 28) 0
  else rd g.g r.toNat 0

/-- The register that a register number names: in handler mode g28 to g31 are hg28 to hg31 (R303). -/
def destOf (g : GenCtx) (r : Reg) : GenDest := if g.handler && decide (28 ≤ r.toNat) then .hg (r.toNat - 28) else .g r

/-- The replies still to come of a context, where none reaches a register any more. -/
def overtake (d : GenDest) (ls : List GenLoad) : List GenLoad := ls.map fun l => if l.dest = d then { l with dest := .g 0 } else l

/-- Writes a g register: a write to g0 is discarded. A reply still to come for the register is overtaken by the write. -/
def gSet (g : GenCtx) (r : Reg) (v : W64) : GenCtx :=
  if r = 0 then g
  else
    let ls := overtake (destOf g r) g.loads
    if g.handler && decide (28 ≤ r.toNat) then { g with loads := ls, hg := wr g.hg (r.toNat - 28) v }
    else { g with loads := ls, g := wr g.g r.toNat v }

/-- A reply that the register waits for (R103). -/
def gPending (g : GenCtx) (r : Reg) : Bool := decide (r ≠ 0) && g.loads.any fun l => decide (l.dest = destOf g r)

/-! ### Engine registers (R66) -/

/-- Reads an s register; s0 is zero. -/
def sReg (e : Engine) (n : Nat) : W64 := if n = 0 then 0 else rd e.s n 0

/-- Writes an s register; s0 ignores it. -/
def sSet (e : Engine) (n : Nat) (v : W64) : Engine := if n = 0 then e else { e with s := wr e.s n v }

/-- Reads a q register; q0 is true. -/
def qReg (e : Engine) (n : Nat) : Bool := n == 0 || bitAt e.q n

/-- Writes a q register; q0 ignores it. -/
def qSet (e : Engine) (n : Nat) (b : Bool) : Engine := if n = 0 then e else { e with q := setBit e.q n b }

/-- Reads a v register. -/
def vReg (e : Engine) (n : Nat) : V4096 := rd e.v n 0

/-- Reads a mask register; m0 is all ones. -/
def mReg (e : Engine) (n : Nat) : M512 := if n = 0 then BitVec.allOnes 512 else rd e.m n (BitVec.allOnes 512)

/-- Spreads a byte-lane mask over the bits of a vector register. -/
def byteMask (m : M512) : V4096 :=
  BitVec.ofNat 4096 ((List.range 512).foldl (fun acc j => if m.toNat.testBit j then acc + 255 * 2 ^ (8 * j) else acc) 0)

/-- Writes the byte lanes of a v register that a mask enables (R67). -/
def vSet (e : Engine) (n : Nat) (val : V4096) (bytes : M512) : Engine :=
  let k := byteMask bytes
  { e with v := wr e.v n ((vReg e n &&& ~~~k) ||| (val &&& k)) }

/-- Writes the selected bits of a mask register; m0 ignores it. -/
def mSet (e : Engine) (n : Nat) (val sel : M512) : Engine :=
  if n = 0 then e else { e with m := wr e.m n ((mReg e n &&& ~~~sel) ||| (val &&& sel)) }

/-! ### Byte memory -/

/-- The byte at an address; an unlisted address reads as 0 (assumption 2). -/
def memGet : Mem → Nat → Byte
  | [], _ => 0
  | (k, b) :: r, a => if a < k then 0 else if a = k then b else memGet r a

/-- The memory with one byte written, in canonical form. -/
def memSet : Mem → Nat → Byte → Mem
  | [], a, v => if v = 0 then [] else [(a, v)]
  | (k, b) :: r, a, v =>
    if a < k then (if v = 0 then (k, b) :: r else (a, v) :: (k, b) :: r)
    else if a = k then (if v = 0 then r else (a, v) :: r)
    else (k, b) :: memSet r a v

/-- The canonical form: addresses strictly rising, and no entry equal to what an unlisted address reads as. -/
def Memory.wf : Mem → Bool
  | [] => true
  | [(_, b)] => b != 0
  | (a, b) :: (c, d) :: r => b != 0 && decide (a < c) && Memory.wf ((c, d) :: r)

/-- `n` bytes from an address. -/
def memRead (m : Mem) (a n : Nat) : List Byte := (List.range n).map fun i => memGet m (a + i)

/-- The memory with bytes written from an address on. -/
def memWrite : Mem → Nat → List Byte → Mem
  | m, _, [] => m
  | m, a, b :: r => memWrite (memSet m a b) (a + 1) r

/-! ### Effective values of a bay (R317) -/

/-- The values of a bay chosen group by group between its own and its parent's effective values. -/
def mergeVals (ovr : BitVec 16) (own up : BayVals) : BayVals :=
  let o (i : Nat) : Bool := bitAt ovr i
  { prio := if o 0 then own.prio else up.prio
    weight := if o 1 then own.weight else up.weight
    pol := if o 2 then own.pol else up.pol
    dlstop := if o 2 then own.dlstop else up.dlstop
    det := if o 3 then own.det else up.det
    phased := if o 4 then own.phased else up.phased
    phen := if o 4 then own.phen else up.phen
    phbar := if o 4 then own.phbar else up.phbar
    quantum := if o 5 then own.quantum else up.quantum
    yield := if o 5 then own.yield else up.yield
    loft := if o 6 then own.loft else up.loft
    cmin := if o 7 then own.cmin else up.cmin
    cmax := if o 7 then (if own.cmax.toNat < up.cmax.toNat then own.cmax else up.cmax) else up.cmax
    cores := if o 8 then own.cores &&& up.cores else up.cores
    ptroot := if o 9 then own.ptroot else up.ptroot
    rp := if o 9 then own.rp else up.rp
    ag := if o 9 then own.ag else up.ag
    lres := if o 10 then own.lres else up.lres
    caskbase := if o 11 then own.caskbase else up.caskbase
    casklen := if o 11 then own.casklen else up.casklen
    dlh := if o 12 then own.dlh else up.dlh
    savebase := if o 13 then own.savebase else up.savebase
    savecnt := if o 13 then own.savecnt else up.savecnt
    flogbase := if o 14 then own.flogbase else up.flogbase
    flogsz := if o 14 then own.flogsz else up.flogsz
    shbase := if o 15 then own.shbase else up.shbase
    shlen := if o 15 then own.shlen else up.shlen
    spns := if o 15 then own.spns else up.spns }

/-- The effective values of a bay, from the root down (R317); the tree has at most 8 levels. -/
def computeEff (s : State) : Nat → Nat → BayVals
  | 0, _ => {}
  | fuel + 1, n =>
    match s.bayAt n with
    | none => { ptroot := 0 }
    | some b => if n = 0 then b.own else mergeVals b.ovr b.own (computeEff s fuel b.parent)

/-- The effective values a bay would take at a dispatch now. -/
def State.effNow (s : State) (n : Nat) : BayVals := computeEff s 9 n

/-- A core's Loft bytes lie wholly in an extent of the bay, outside what its children hold (R249, R318). -/
def loftHeld (s : State) (bay core off len : Nat) : Bool :=
  let covers (b : Bay) (u : Nat) : Bool := b.extents.any fun x => x.core == core && x.first ≤ u && u < x.first + x.units
  let first := off / 65536
  let last := (off + len - 1) / 65536
  (List.range (last + 1 - first)).all fun i =>
    (s.bays.any fun b => b.bay == bay && covers b (first + i)) &&
      !(s.bays.any fun b => b.parent == bay && b.bay != 0 && b.bay != bay && covers b (first + i))

/-! ### The point of coherence (R256, R259, R273, R275) -/

/-- The targets of the physical address map (R259). -/
inductive PTarget where
  | hbm
  | host
  | pool
  | remote (pkg off : Nat)
  | nowhere
  deriving DecidableEq, Repr

/-- The target of a physical address. -/
def target (pa : Nat) : PTarget :=
  if pa < 0x8000000000 then .hbm
  else if 0x10000000000 ≤ pa ∧ pa < 0x20000000000 then .host
  else if 0x20000000000 ≤ pa ∧ pa < 0x40000000000 then .pool
  else if 0x400000000000 ≤ pa ∧ pa < 0x800000000000 ∧ pa / 2 ^ 39 % 2 = 0 then .remote (pa / 2 ^ 40 % 64) (pa % 2 ^ 39)
  else .nowhere

/-- The links of a route entry, lowest first (R372). -/
def linksOf (w : W64) : List Nat := (List.range 12).filter fun k => bitAt w k

/-- The link on which an access to a package leaves: the PA[13:11] mod popcount(LINKS)-th set bit (R372); none when unroutable. -/
def linkTo (s : State) (pkg pa : Nat) : Option Nat :=
  let w := rd s.regs.plkRoute pkg 0
  let ls := linksOf w
  if bitAt w 63 && !ls.isEmpty then ls[pa / 2048 % 8 % ls.length]? else none

/-- The package and HBM offset of a physical address of another package. -/
def otherPackage (s : State) (pa : Nat) : Option (Nat × Nat) :=
  match target pa with
  | .remote pkg off => if pkg = s.regs.plkSelf.toNat then none else some (pkg, off)
  | _ => none

/-- The address at which this package holds a byte: its own number in the remote range addresses its own HBM (R259). -/
def ownPa (pa : Nat) : Nat :=
  match target pa with
  | .remote _ off => off
  | _ => pa

/-- Bytes at the point of coherence of a physical address. A byte of another package is a free value (assumption 12). -/
def pocRead (s : State) (pa len : Nat) : List Byte :=
  match otherPackage s pa with
  | some (pkg, off) => (List.range len).map fun i => Config.remoteByte s.fresh pkg (off + i)
  | none => memRead s.mem (ownPa pa) len

/-- The 64-byte granules of a range. -/
def granules (pa len : Nat) : List Nat :=
  if len = 0 then [] else (List.range ((pa + len - 1) / 64 + 1 - pa / 64)).map (pa / 64 + ·)

/-! ### Bytes whose reads end with a fault kind (R370, R374, R379, R389) -/

/-- The bytes of a granule that a range touches. -/
def granuleBits (g a len : Nat) : BitVec 64 :=
  let lo := max a (64 * g)
  let hi := min (a + len) (64 * g + 64)
  BitVec.ofNat 64 ((2 ^ (hi - lo) - 1) * 2 ^ (lo - 64 * g))

/-- The fault kind with which a read of a range ends, if one of its bytes has one; `mk` names the memory. -/
def lostKind (s : State) (mk : Nat → Granule) (a len : Nat) : Option Nat :=
  (granules a len).findSome? fun g =>
    (s.lost.find? fun x => x.at_ == mk g && x.bytes &&& granuleBits g a len != 0).map fun x => x.kind.toNat

/-- Lost bytes of a range are lost no more once they are written (R389). -/
def heal (s : State) (mk : Nat → Granule) (a len : Nat) : State :=
  if s.lost.isEmpty then s
  else
    let clear (ls : List Lost) (g : Nat) : List Lost :=
      ls.map fun x => if x.at_ = mk g ∧ x.kind = 6 then { x with bytes := x.bytes &&& ~~~(granuleBits g a len) } else x
    { s with lost := ((granules a len).foldl clear s.lost).filter (·.bytes != 0) }

/-- Whole granules that are written anew are lost no more (R389). -/
def healAll (s : State) (which : Granule → Bool) : State :=
  if s.lost.isEmpty then s else { s with lost := s.lost.filter fun x => x.kind != 6 || !which x.at_ }

/-- The whole scratchpad of a core is written anew. -/
def healScratch (s : State) (n : Nat) : State := healAll s fun g => match g with | .scratch m _ => m == n | _ => false

/-- The scratchpad stores that a core's cycle ends with write lost bytes anew (R200, R389). -/
def healStores (s : State) (n : Nat) : State :=
  if s.lost.isEmpty then s else (s.core n).endStores.foldl (fun s x => heal s (.scratch n) x.1 1) s

/-! ### The L2 (R255 to R258, R286, R288, R325) -/

/-- The home slice of a physical address in HASHED mode (R256). -/
def homeSlice (pa : Nat) : Nat :=
  ((pa / 2 ^ 7 % 2 ^ 16) ^^^ (pa / 2 ^ 23 % 2 ^ 16) ^^^ (pa / 2 ^ 39 % 2 ^ 9)) * 40 / 2 ^ 16

/-- An enabled window covers a physical address (R257). -/
def windowCovers (w : W64) (pa : Nat) : Bool :=
  bitAt w 63 && decide (bits w 0 18 ≤ pa / 2 ^ 30 ∧ pa / 2 ^ 30 ≤ bits w 18 18)

/-- The mode of a physical address is MIGRATE: that of the lowest-numbered enabled window that covers it, HASHED without one (R257). -/
def migrates (s : State) (pa : Nat) : Bool :=
  match s.regs.l2w.toArray.toList.find? (windowCovers · pa) with
  | some w => bitAt w 62
  | none => false

/-- The L2 caches HBM, host memory and pool memory (R255). -/
def l2Caches (pa : Nat) : Bool :=
  match target pa with
  | .hbm => true
  | .host => true
  | .pool => true
  | _ => false

/-- The L2 line of a number. -/
def l2Line (s : State) (ln : Nat) : Option L2Line := s.l2.find? (·.pa == ln)

/-- A sector of a line: its low or high 64 bytes. -/
def L2Line.sector (l : L2Line) (hi : Bool) : Option Sector := if hi then l.hi else l.lo

/-- A line with a sector replaced. -/
def L2Line.setSector (l : L2Line) (hi : Bool) (x : Option Sector) : L2Line := if hi then { l with hi := x } else { l with lo := x }

/-- The L2 sector of a 64-byte granule, if it is held. -/
def l2Sector (s : State) (sec : Nat) : Option Sector := (l2Line s (sec / 2)).bind (·.sector (sec % 2 == 1))

/-- The sector's L2 copy is dropped: a dirty one has been written back, so system scope holds its value; after a clean one the memory's
own value stands (R288). -/
def dropSector (s : State) (sec : Nat) : State :=
  match l2Sector s sec with
  | none => s
  | some x =>
    { s with
      mem := if x.dirty then s.mem else memWrite s.mem (sec * 64) (toBytes 64 x.back.toNat)
      l2 := s.l2.map fun l => if l.pa == sec / 2 then l.setSector (sec % 2 == 1) none else l }

/-- A line leaves the L2: its dirty sectors are written back (R255). -/
def l2Evict (s : State) (ln : Nat) : State :=
  let s := dropSector (dropSector s (2 * ln)) (2 * ln + 1)
  { s with l2 := s.l2.filter (·.pa != ln) }

/-- The dirty sector of a granule is written to system scope; the copy stays, clean. -/
def pushSector (s : State) (sec : Nat) : State :=
  match l2Sector s sec with
  | none => s
  | some x =>
    if !x.dirty then s
    else
      let now : Sector := { dirty := false, back := BitVec.ofNat 512 (ofBytes (memRead s.mem (sec * 64) 64)) }
      { s with l2 := s.l2.map fun l => if l.pa == sec / 2 then l.setSector (sec % 2 == 1) (some now) else l }

/-- The granules that the L2 holds. -/
def l2Held (s : State) : List Nat :=
  s.l2.flatMap fun l => (if l.lo.isSome then [2 * l.pa] else []) ++ (if l.hi.isSome then [2 * l.pa + 1] else [])

/-- Every dirty sector of the L2 is written to system scope (R282; assumption 5). -/
def pushAll (s : State) : State := (l2Held s).foldl pushSector s

/-- The granule comes to be held in the L2: in the slice that holds its line, or at the line's home slice, whose oldest line makes room
when its ways in service are full (R255, R256; which line makes room is the model's, assumption 5). -/
def l2Fill (s : State) (dirty : Bool) (sec : Nat) : State :=
  if !l2Caches (sec * 64) then s
  else
    let hi := sec % 2 == 1
    let fresh : Sector := { dirty := false, back := BitVec.ofNat 512 (ofBytes (memRead s.mem (sec * 64) 64)) }
    let add (l : L2Line) : L2Line :=
      let x := (l.sector hi).getD fresh
      l.setSector hi (some { x with dirty := x.dirty || dirty })
    match l2Line s (sec / 2) with
    | some l => { s with l2 := add l :: s.l2.filter (·.pa != sec / 2) }
    | none =>
      let home := homeSlice (sec * 64)
      let same := s.l2.filter (·.slice == home)
      let s := match (if same.length < 2048 * rd s.l2Ways home 16 then none else same.getLast?) with
        | some v => l2Evict s v.pa
        | none => s
      { s with l2 := add { pa := sec / 2, slice := home } :: s.l2 }

/-- A slice that holds more lines than its ways in service have room for evicts its oldest. -/
def trimSlice (s : State) (slice : Nat) : State :=
  ((s.l2.filter (·.slice == slice)).drop (2048 * rd s.l2Ways slice 16)).foldl (fun s l => l2Evict s l.pa) s

/-- An access of a core reaches the L2 for a line: in MIGRATE mode the fourth in a row of one cluster brings the line to that cluster's
slice, whose oldest line makes room when its ways are full, when the home slice has a forwarding entry free (R258). -/
def l2Count (s : State) (core : Option Nat) (pa : Nat) : State :=
  match core, l2Line s (pa / 128) with
  | some n, some l =>
    if !migrates s pa then s
    else
      let cl := n / 8
      let k := if l.cluster = cl then l.run + 1 else 1
      let (i, s) := s.bump
      let moves := 4 ≤ k && (l.slice != homeSlice pa || Config.forwardFree i)
      let l' := { l with cluster := cl, run := if moves then 0 else k, slice := if moves then cl else l.slice }
      let s := { s with l2 := s.l2.map fun x => if x.pa == pa / 128 then l' else x }
      if moves then trimSlice s cl else s
  | _, _ => s

/-- A read that reaches the L2: its granules come to be held, unless their page is uncached. -/
def l2Read (s : State) (core : Option Nat) (pa len : Nat) (ca : Bool) : State :=
  l2Count (if ca || !l2Caches pa then s else (granules pa len).foldl (fun s g => l2Fill s false g) s) core pa

/-- Bytes as system scope holds them: those under an L2 sector are the sector's back (R273, R289). -/
def systemRead (s : State) (pa len : Nat) : List Byte :=
  (List.range len).map fun i =>
    match l2Sector s ((pa + i) / 64) with
    | some x => BitVec.ofNat 8 (bits x.back (8 * ((pa + i) % 64)) 8)
    | none => memGet s.mem (pa + i)

/-- Bytes written at the point of coherence of a physical address, in the L2 where it holds the line or may take it; a write to another
package leaves on a link (R255, R273, R372, R373). -/
def pocWrite (s : State) (pa : Nat) (data : List Byte) : State :=
  match otherPackage s pa with
  | some (pkg, off) => { s with sent := s.sent ++ [.flit ((linkTo s pkg pa).getD 0) pkg off (.write data)] }
  | none =>
    let a := ownPa pa
    let s := heal ((granules a data.length).foldl (fun s g => l2Fill s true g) s) .phys a data.length
    { s with mem := memWrite s.mem a data }

/-- Bytes written where the L2 takes no new copy: a page with CA = 1 (R263, R288), or a write that goes through to system scope (R283).
A copy that the L2 holds is written too. -/
def uncachedWrite (s : State) (pa : Nat) (data : List Byte) : State :=
  match otherPackage s pa with
  | some _ => pocWrite s pa data
  | none =>
    let held := (granules (ownPa pa) data.length).filter fun g => (l2Sector s g).isSome
    held.foldl (fun s g => l2Fill s true g) { heal s .phys (ownPa pa) data.length with mem := memWrite s.mem (ownPa pa) data }

/-- Bytes written through to system scope (R283, R323). -/
def throughWrite (s : State) (pa : Nat) (data : List Byte) : State :=
  let after := uncachedWrite s pa data
  match otherPackage s pa with
  | some _ => after
  | none => (granules (ownPa pa) data.length).foldl pushSector after

/-- A physical address belongs to no target, or to a package that no link reaches (R259, R372). -/
def unrouted (s : State) (pa : Nat) : Bool :=
  match target pa with
  | .nowhere => true
  | .remote pkg _ => pkg != s.regs.plkSelf.toNat && (linkTo s pkg pa).isNone
  | _ => false

/-- An 8-byte read at the point of coherence. -/
def pocRead8 (s : State) (pa : Nat) : W64 := w64 (ofBytes (pocRead s pa 8))

/-! ### Page walk and translation (R262 to R266) -/

/-- A walk that found no translation: the running permission, the level, the entry read, whether it was malformed, and whether the
table's address belongs to no target (R259). -/
structure WalkFault where
  rp : Bool
  lvl : Nat
  entry : W64
  malformed : Bool
  nowhere : Bool := false
  deriving DecidableEq, Repr

/-- What a walk answers. -/
inductive WalkRes where
  | leaf (t : Tlb)
  | notMapped (f : WalkFault)
  deriving DecidableEq, Repr

/-- The index of a level (R262). -/
def walkIndex (va lvl : Nat) : Nat :=
  if lvl = 0 then va / 2 ^ 39 % 2 ^ 17 else va / 2 ^ (12 + 9 * (3 - lvl)) % 512

/-- The size of a leaf (R264). -/
def leafSize (lvl : Nat) (s64 : Bool) : Nat :=
  if s64 then 65536 else if lvl = 1 then 2 ^ 30 else if lvl = 2 then 2 ^ 21 else 4096

/-- A malformed entry (R263). -/
def malformed (e : W64) (lvl : Nat) : Bool :=
  let leaf := bitAt e 1
  let s64 := bitAt e 7
  bits e 48 16 != 0 || (s64 && lvl != 3) || (leaf && lvl == 0) || (!leaf && lvl == 3) || (!leaf && bitAt e 5) ||
    (leaf && lvl != 0 && bits e 12 36 * 4096 % leafSize lvl s64 != 0)

/-- The walk of R264 from level `4 - fuel` on. -/
def walkFrom (s : State) (bay va : Nat) : Nat → Nat → Bool → WalkRes
  | 0, _, rp => .notMapped { rp := rp, lvl := 3, entry := 0, malformed := true }
  | fuel + 1, t, rp =>
    let lvl := 3 - fuel
    let e := pocRead8 s (t + 8 * walkIndex va lvl)
    if unrouted s (t + 8 * walkIndex va lvl) then .notMapped { rp := rp, lvl := lvl, entry := 0, malformed := false, nowhere := true }
    else if !bitAt e 0 then .notMapped { rp := rp, lvl := lvl, entry := e, malformed := false }
    else if malformed e lvl then .notMapped { rp := rp, lvl := lvl, entry := e, malformed := true }
    else
      let rp' := rp && bitAt e 6
      if bitAt e 1 then
        let size := leafSize lvl (bitAt e 7)
        .leaf { bay := bay, va := va - va % size, size := size, pa := bits e 12 36 * 4096, ca := bitAt e 5, ag := bits e 8 4,
                r := bitAt e 2, w := bitAt e 3, x := bitAt e 4, rp := rp', lvl := lvl, entry := e }
      else walkFrom s bay va fuel (bits e 12 36 * 4096) rp'

/-- The walk of a bay's address space (R262, R264). -/
def walk (s : State) (bay va : Nat) : WalkRes :=
  let b := s.eff bay
  walkFrom s bay va 4 (b.ptroot.toNat * 2 ^ 20) b.rp

/-- The tables below the root that a walk passes, as a page-walk cache holds them (R266). -/
def walkTables (s : State) (bay va : Nat) : Nat → Nat → Bool → List TableHeld
  | 0, _, _ => []
  | fuel + 1, t, rp =>
    let lvl := 3 - fuel
    let e := pocRead8 s (t + 8 * walkIndex va lvl)
    if unrouted s (t + 8 * walkIndex va lvl) || !bitAt e 0 || malformed e lvl || bitAt e 1 then []
    else
      let next := bits e 12 36 * 4096
      { bay := bay, lvl := lvl + 1, up := va / 2 ^ (12 + 9 * (3 - lvl)), table := next, rp := rp && bitAt e 6 } ::
        walkTables s bay va fuel next (rp && bitAt e 6)

/-- A held table leads towards an address of a bay. -/
def TableHeld.leads (h : TableHeld) (bay va : Nat) : Bool := h.bay == bay && h.up == va / 2 ^ (12 + 9 * (4 - h.lvl))

/-- A translation that is held covers an address of a bay. -/
def Tlb.hits (t : Tlb) (bay va : Nat) : Bool := t.bay == bay && t.va ≤ va && va < t.va + t.size

/-- A read that leaves for another package: over a link, or by the long-reach endpoint of its stack (R371, R373). -/
def sendRead (s : State) (pa len : Nat) (long : Bool) : State :=
  match otherPackage s pa with
  | none => s
  | some (pkg, off) =>
    { s with sent := s.sent ++ [if long then .longReach pkg (off / 2048 % 8) off len else .flit ((linkTo s pkg pa).getD 0) pkg off (.read len)] }

/-- The entries of a walk that stand in another package are read over its links (R373). -/
def sendWalk (s : State) (va : Nat) : Nat → Nat → State
  | 0, _ => s
  | fuel + 1, t =>
    let lvl := 3 - fuel
    let at_ := t + 8 * walkIndex va lvl
    let e := pocRead8 s at_
    if unrouted s at_ then s
    else
      let s := sendRead s at_ 8 false
      if !bitAt e 0 || malformed e lvl || bitAt e 1 then s else sendWalk s va fuel (bits e 12 36 * 4096)

/-- The walk of a die's translation service: from the root, or from the deepest table that its page-walk cache still holds (R266). -/
def serviceWalk (s : State) (die bay va : Nat) : State × WalkRes :=
  let b := s.eff bay
  let root := b.ptroot.toNat * 2 ^ 20
  let held := (rd s.tables die []).filter (·.leads bay va)
  let deepest := held.foldl (fun (x : Option TableHeld) h => match x with
    | some y => if y.lvl < h.lvl then some h else x
    | none => some h) none
  let from_ (s : State) (fuel t : Nat) (rp : Bool) : State × WalkRes :=
    match walkFrom s bay va fuel t rp with
    | .notMapped f => (sendWalk s va fuel t, .notMapped f)
    | .leaf x =>
      let new := (walkTables s bay va fuel t rp).filter fun h => !(rd s.tables die []).contains h
      ({ sendWalk s va fuel t with tables := wr s.tables die (new ++ rd s.tables die []) }, .leaf x)
  match deepest with
  | none => from_ s 4 root b.rp
  | some h =>
    let (n, s) := s.bump
    if Config.tlbKeeps n then from_ s (4 - h.lvl) h.table h.rp else from_ s 4 root b.rp

/-- Translates an address for a core: from its own TLB, else from its cluster's, else by a walk; a translation found is then held in
both (R266). Which entries the larger stores still hold is left open (assumption 96). An agent without a core walks. -/
def translate (s : State) (core : Option Nat) (bay va : Nat) : State × WalkRes :=
  match core with
  | none => (sendWalk s va 4 ((s.eff bay).ptroot.toNat * 2 ^ 20), walk s bay va)
  | some n =>
    match (s.core n).tlb.find? (·.hits bay va) with
    | some t => (s, .leaf t)
    | none =>
      let hold (s : State) (t : Tlb) : State := s.modCore n fun c => { c with tlb := (t :: c.tlb).take 64 }
      let service (s : State) : State × WalkRes :=
        match serviceWalk s (n / 160) bay va with
        | (s, .leaf t) =>
          let others := (rd s.clusterTlb (n / 8) []).filter fun x => !x.hits bay va
          (hold { s with clusterTlb := wr s.clusterTlb (n / 8) ((t :: others).take 2048) } t, .leaf t)
        | (s, .notMapped f) => (s, .notMapped f)
      match (rd s.clusterTlb (n / 8) []).find? (·.hits bay va) with
      | none => service s
      | some t =>
        let (k, s) := s.bump
        if Config.tlbKeeps k then (hold s t, .leaf t) else service s

/-- No TLB of a core or of its cluster holds an address: a fault leaves no entry (R266). -/
def unhold (s : State) (core : Option Nat) (bay va : Nat) : State :=
  match core with
  | none => s
  | some n =>
    let s := s.modCore n fun c => { c with tlb := c.tlb.filter fun t => !t.hits bay va }
    { s with clusterTlb := wr s.clusterTlb (n / 8) ((rd s.clusterTlb (n / 8) []).filter fun t => !t.hits bay va) }

/-- No translation or table of a bay is held that a range of its addresses meets (R222, R268). -/
def forgetRange (s : State) (bay lo hi : Nat) : State :=
  let keep (t : Tlb) : Bool := !(t.bay == bay && decide (t.va < hi ∧ lo < t.va + t.size))
  { s with
    cores := s.cores.map fun (c : Core) =>
      if c.tlb.isEmpty && c.ahead.isEmpty then c
      else
        { c with
          tlb := c.tlb.filter keep
          ahead := c.ahead.filter fun x => !(x.bay == bay && decide (x.page * 4096 < hi ∧ lo < x.page * 4096 + 4096)) }
    clusterTlb := s.clusterTlb.map (·.filter keep)
    tables := s.tables.map (·.filter fun h => h.bay != bay) }

/-- The enabled publish slot of the bay whose range holds an address (R271, R272). -/
def pubOf (s : State) (bay va : Nat) : Option (Nat × PubSlot) :=
  ((s.pubs.toArray.toList.zipIdx.map fun p => (p.2, p.1)).find? fun p =>
    p.2.en && p.2.bay.toNat == bay && p.2.vbase.toNat * 65536 ≤ va && va < p.2.vbase.toNat * 65536 + p.2.nblk.toNat * 65536)

/-- The physical address of an access in a publish range: the visible backing for a read, the shadow for anything that writes
(R272). -/
def pubPa (p : PubSlot) (va : Nat) (write : Bool) : Nat :=
  let b1 := if write then !p.sel else p.sel
  (if b1 then p.b1.toNat else p.b0.toNat) * 65536 + (va - p.vbase.toNat * 65536)

/-! ### The access checks (R202, R248, R249, R290, R338, R399) -/

/-- What the checks of an access answer: its pieces, or the first fault. -/
inductive Acc where
  | ok (ps : List Piece)
  | bad (e : AErr)
  deriving DecidableEq, Repr

/-- Who makes an access, and under which bay and access kind (R307): 0 generator load, 1 generator store, 2 slot load, 3 slot
store, 4 atomic, 5 copy read, 6 copy write, 7 stream read. -/
structure Who where
  /-- the core whose own spaces 0x1 and 0x2 mean, and whose TLB translates -/
  core : Option Nat
  bay : Nat
  kind : Nat
  /-- a generator fetch needs X in place of R (R264) -/
  exe : Bool := false
  /-- the X slot, for a load or store op of one: check 3 then raises kind 7 of the slot's class-0 codes -/
  slot : Option Nat := none
  /-- the task whose phase and declared spans bind the access (R290, R338) -/
  task : Option Nat := none
  /-- it is no access that a compute phase bars (R290) -/
  anyPhase : Bool := false
  /-- firmware: the access tables do not check it (R370) -/
  fw : Bool := false
  /-- its writes are performed at system scope (R283, R323) -/
  sys : Bool := false
  /-- a copy or Sparge channel: its reads may take the long-reach path (R371) -/
  chan : Bool := false
  /-- the copy channel n of the core, or 8 + n for its fibre stream n: what translates ahead (R267) -/
  agent : Option Nat := none
  deriving DecidableEq, Repr

/-- The class-2 code of a fault of an access kind (R307). -/
def class2 (kind fault : Nat) : BitVec 9 := BitVec.ofNat 9 (0x080 + 8 * kind + fault)

/-- The access kind writes. -/
def kindWrites (kind : Nat) : Bool := kind == 1 || kind == 3 || kind == 4 || kind == 6

/-- The access kind reads. -/
def kindReads (kind : Nat) : Bool := !(kind == 1 || kind == 3 || kind == 6)

/-- A leaf grants an access kind (R263, R264). -/
def grants (t : Tlb) (k : Who) : Bool :=
  if k.exe then t.x else (!kindReads k.kind || t.r) && (!kindWrites k.kind || t.w)

/-- Check 1: SPACE 0x4 to 0xF, bits outside the space's fields, a peer core above 319, or a space the agent cannot name (R248,
R399). -/
def spaceBad (k : Who) (va : Nat) : Bool :=
  match va / 2 ^ 60 with
  | 0 => va / 2 ^ 56 % 16 != 0
  | 1 => va / 2 ^ 20 % 2 ^ 40 != 0 || k.core.isNone
  | 2 => va / 2 ^ 23 % 2 ^ 37 != 0 || k.core.isNone
  | 3 => va / 2 ^ 41 % 2 ^ 19 != 0 || va / 2 ^ 23 % 2 ^ 9 != 0 || 319 < va / 2 ^ 32 % 2 ^ 9
  | _ => true

/-- Translation and permission of one piece that lies within a page (checks of order 5). -/
def piece1 (s : State) (k : Who) (va len : Nat) (pol : Pol) : State × (Piece ⊕ AErr) :=
  match translate s k.core k.bay va with
  | (s, .notMapped f) =>
    if f.nowhere then (s, .inr { cause := class2 k.kind 5, addr := w64 va })
    else
      (s, .inr { cause := class2 k.kind 0, addr := w64 va, det1 := if f.malformed then w64 f.lvl else 0, replayable := true, rp := f.rp,
                 walk := w64 (f.lvl * 2 ^ 62 + f.entry.toNat % 2 ^ 62) })
  | (s, .leaf t) =>
    if !grants t k then
      (unhold s k.core k.bay va, .inr { cause := class2 k.kind 1, addr := w64 va, replayable := true, rp := t.rp,
                                        walk := w64 (t.lvl * 2 ^ 62 + t.entry.toNat % 2 ^ 62) })
    else
      let pub := pubOf s k.bay va
      let pa := match pub with
        | some (_, p) => pubPa p va (kindWrites k.kind)
        | none => t.pa + (va - t.va)
      let ag := if t.ag = 0 then (s.eff k.bay).ag.toNat else t.ag
      if unrouted s pa then (unhold s k.core k.bay va, .inr { cause := class2 k.kind 5, addr := w64 va })
      else
        let eff := if pub.isSome || t.ca then .uc else pol
        let long := k.chan && match otherPackage s pa with
          | some (pkg, _) => bitAt (rd s.regs.plkRoute pkg 0) (12 + pa / 2048 % 8)
          | none => false
        (s, .inl { va := w64 va, loc := .phys pa, len := len, pol := eff, group := ag, ca := t.ca, fw := k.fw, sys := k.sys, long := long })

/-- A kept fault of an agent's page ahead is that of an access (R267). -/
def Ahead.meets (x : Ahead) (k : Who) (va : Nat) : Bool :=
  k.agent == some x.agent && x.bay == k.bay && x.kind == k.kind && x.page == va / 4096

/-- Translation of one piece: a fault kept for the page is raised now that the cursor has reached it (R267). -/
def piece0 (s : State) (k : Who) (va len : Nat) (pol : Pol) : State × (Piece ⊕ AErr) :=
  match k.core.bind fun n => (s.core n).ahead.find? (·.meets k va) with
  | some x =>
    (s.modCore (k.core.getD 0) fun c => { c with ahead := c.ahead.filter fun y => !y.meets k va }, .inr { x.err with addr := w64 va })
  | none => piece1 s k va len pol

/-- The pages of a range. -/
def pagesOf (va len : Nat) : List Nat := if len = 0 then [] else (List.range ((va + len - 1) / 4096 + 1 - va / 4096)).map (va / 4096 + ·)

/-- A page ahead of the cursor, among the next 32 (R267). -/
def isAhead (pages : List (Nat × Nat)) (kind page : Nat) : Bool :=
  ((pages.eraseDups.take 33).drop 1).contains (kind, page)

/-- Keeps the fault that the translation of a page ahead meets. -/
def keepAhead (s : State) (core : Nat) (k : Who) (va : Nat) : State :=
  match k.agent, piece1 s k va 1 .uc with
  | some a, (s, .inr e) =>
    let x : Ahead := { agent := a, bay := k.bay, kind := k.kind, page := va / 4096, err := e }
    s.modCore core fun c => { c with ahead := x :: c.ahead.filter fun y => !y.meets k va }
  | _, (s, .inl _) => s
  | none, _ => s

/-- The 128-byte lines of a global access, as (address, length). -/
def lineSpans (va len : Nat) : List (Nat × Nat) :=
  if len = 0 then [] else
    (List.range ((va + len - 1) / 128 + 1 - va / 128)).map fun i =>
      let a := max va ((va / 128 + i) * 128)
      (a, min (va + len) ((va / 128 + i + 1) * 128) - a)

/-- Translation of every piece of a global access, stopping at the first fault. -/
def pieces0 (s : State) (k : Who) (pol : Pol) : List (Nat × Nat) → State × Acc
  | [] => (s, .ok [])
  | (a, l) :: r =>
    match piece0 s k a l pol with
    | (s, .inr e) => (s, .bad e)
    | (s, .inl p) =>
      match pieces0 s k pol r with
      | (s, .ok ps) => (s, .ok (p :: ps))
      | (s, .bad e) => (s, .bad e)

/-- The phase of a phased bay is a compute phase (R290): its barrier has completed an even number of phases since the run started. -/
def computePhase (s : State) (bay : Nat) : Bool :=
  let b := s.eff bay
  let from_ := ((s.bayAt bay).map (·.phase0)).getD 0
  b.phased && (((s.barriers.lookup b.phbar.toNat).map fun x => (x.phases + from_) % 2 == 0).getD true)

/-- The 64-byte units of an access of a task of a deterministic bay each lie in a declared span with the access it needs (R338); the Cask
arena is exempt (R363). -/
def declared (s : State) (k : Who) (va len : Nat) : Bool :=
  match k.task.bind s.taskAt with
  | none => true
  | some t =>
    let b := s.eff t.bay
    if !b.det then true
    else
      let arena := b.caskbase.toNat ≤ va && va + len ≤ b.caskbase.toNat + b.casklen.toNat
      let spans := ((s.runAt t.run).map (·.buffers)).getD []
      arena || (granules va len).all fun g => spans.any fun u =>
        decide (u.addr.toNat ≤ g * 64 ∧ g * 64 < u.addr.toNat + u.len * 64) &&
          (!kindReads k.kind || bitAt u.acc 0) && (!kindWrites k.kind || bitAt u.acc 1)

/-- The access checks of R202 in their order, up to those made at the target; `align` is the alignment check 2 asks for. -/
def access (s : State) (k : Who) (va : W64) (len align : Nat) (pol : Pol) : State × Acc :=
  let a := va.toNat
  let err (f : Nat) : State × Acc := (s, .bad { cause := class2 k.kind f, addr := va })
  if spaceBad k a then err 2
  else if a % align ≠ 0 then err 3
  else
    let local_ (loc : Loc) : Acc := .ok [{ va := va, loc := loc, len := len, pol := .uc, group := 0 }]
    let post (r : State × Acc) : State × Acc :=
      let sp := a / 2 ^ 60
      if (sp = 0 ∨ sp = 3) ∧ k.task.isSome ∧ !k.anyPhase ∧ computePhase s k.bay then
        match r.2 with
        | .ok _ => (r.1, .bad { cause := 0x103, addr := va })
        | .bad _ => r
      else if k.task.isSome ∧ (s.eff k.bay).det ∧ (sp = 3 ∨ (sp = 0 ∧ !declared s k a len)) then
        match r.2 with
        | .ok _ => (r.1, .bad { cause := 0x130, addr := va })
        | .bad _ => r
      else r
    match a / 2 ^ 60 with
    | 1 =>
      let off := a % 2 ^ 20
      if 2 ^ 20 < off + len then
        match k.slot with
        | some n => (s, .bad { cause := BitVec.ofNat 9 (8 * n + 7), addr := va })
        | none => err 5
      else (s, local_ (.scratch off))
    | 2 =>
      let off := a % 2 ^ 23
      let n := k.core.getD 0
      if 0x600000 < off + len ∨ !loftHeld s k.bay n off len then err 5 else (s, local_ (.loft n off))
    | 3 =>
      let off := a % 2 ^ 23
      let n := a / 2 ^ 32 % 2 ^ 9
      if 0x600000 < off + len ∨ !loftHeld s k.bay n off len then err 5 else post (s, local_ (.loft n off))
    | _ =>
      if 2 ^ 56 < a + len then err 2
      else post (pieces0 s k pol (lineSpans a len))

/-! ### Eave access tables (R370) -/

/-- An access of a master to HBM bytes is allowed. -/
def eavAllows (s : State) (pkg group off len : Nat) (rdw wrw lr : Bool) : Bool :=
  !s.regs.eavCtl || s.regs.eavAct.toArray.toList.any fun x =>
    let w := x.1
    bitAt w 63 && (!rdw || bitAt w 62) && (!wrw || bitAt w 61) && (!lr || bitAt w 60) &&
      (bitAt w 53 || bits w 54 6 == pkg) && (bitAt w 48 || bits w 49 4 == group) &&
      decide (bits w 0 23 * 65536 ≤ off) && decide (off + len ≤ (bits x.2 0 23 + 1) * 65536)

/-- A piece is denied at its target (R370). -/
def pieceDenied (s : State) (p : Piece) (rdw wrw : Bool) : Bool :=
  !p.fw && match p.loc with
  | .phys pa =>
    match target pa with
    | .hbm => !eavAllows s s.regs.plkSelf.toNat p.group pa p.len rdw wrw false
    | .remote pkg off => pkg == s.regs.plkSelf.toNat && !eavAllows s pkg p.group off p.len rdw wrw false
    | _ => false
  | _ => false

/-- The fault kind with which a read of a place ends; a scratchpad offset is one of core `core`. -/
def placeKind (s : State) (core : Option Nat) (l : Loc) (len : Nat) : Option Nat :=
  match l with
  | .phys pa => lostKind s .phys (if (otherPackage s pa).isSome then pa else ownPa pa) len
  | .loft n off => lostKind s (.loft n) off len
  | .scratch off => lostKind s (.scratch (core.getD 0)) off len

/-- The fault kind with which a read of checked pieces by a core, or by an agent without one, ends at its targets: 4 when a piece is
denied, or that of bytes whose reads fail (R307, R370, R374, R379, R389). -/
def readKind (s : State) (core : Option Nat) (ps : List Piece) : Option Nat :=
  if ps.any fun p => pieceDenied s p true false then some 4 else ps.findSome? fun p => placeKind s core p.loc p.len

/-! ### The write buffer of a core (R273) -/

/-- Bytes of a place as a core's later loads see them: its own buffered stores, oldest first, over what stands there. -/
def bufferOver (c : Core) (l : Loc) (bs : List Byte) : List Byte :=
  let lay (a : Nat) (bs : List Byte) (at_ : Nat) (data : List Byte) : List Byte :=
    bs.zipIdx.map fun b => if at_ ≤ a + b.2 ∧ a + b.2 < at_ + data.length then data.getD (a + b.2 - at_) b.1 else b.1
  c.wbuf.foldl (fun bs w => match l, w.loc with
    | .phys a, .phys pa => lay a bs pa w.data
    | .loft n a, .loft m off => if n = m then lay a bs off w.data else bs
    | _, _ => bs) bs

/-- Bytes at the point of coherence as a core's own loads see them. -/
def coreBytes (s : State) (n pa len : Nat) : List Byte := bufferOver (s.core n) (.phys pa) (pocRead s pa len)

/-- A store is performed where every core sees it (R273). -/
def performStore (s : State) (n : Nat) (w : Buffered) : State :=
  match w.loc with
  | .scratch _ => s
  | .loft m off => (heal s (.loft m) off w.data.length).modCore m fun c => { c with loft := memWrite c.loft off w.data }
  | .phys pa => l2Count (if w.ca then uncachedWrite s pa w.data else pocWrite s pa w.data) (some n) pa

/-- The oldest `k` buffered stores of a core are performed at package scope. -/
def drainBuffer (s : State) (n k : Nat) : State :=
  let ws := (s.core n).wbuf
  if ws.isEmpty then s else (ws.take k).foldl (fun s w => performStore s n w) (s.modCore n fun c => { c with wbuf := c.wbuf.drop k })

/-- The buffered stores of a core up to the last of those that `which` selects are performed. -/
def drainUpTo (s : State) (n : Nat) (which : Buffered → Bool) : State :=
  let ws := (s.core n).wbuf
  drainBuffer s n (ws.length - (ws.reverse.findIdx? which).getD ws.length)

/-- A buffered store meets a physical line. -/
def Buffered.inLine (w : Buffered) (ln : Nat) : Bool :=
  match w.loc with
  | .phys pa => decide (pa / 128 ≤ ln ∧ ln ≤ (pa + w.data.length - 1) / 128)
  | _ => false

/-- A store that leaves a core: it is performed, or it stays in the core's write buffer or network port a while (R273; assumption 104). -/
def sendStore (s : State) (n : Nat) (w : Buffered) : State :=
  if (s.core n).buffers then s.modCore n fun c => { c with wbuf := c.wbuf ++ [w] } else performStore s n w

/-! ### The L1 (R203, R204, R252, R253, R274) -/

/-- Byte `i` of a line. -/
def lineByte (l : Line) (i : Nat) : Byte := BitVec.ofNat 8 (bits l.data (8 * i) 8)

/-- The dirty bytes of a line written at their point of coherence (R253). -/
def writeDirty (s : State) (l : Line) : State :=
  (List.range 128).foldl (fun s i => if bitAt l.dirty i then pocWrite s (l.pa * 128 + i) [lineByte l i] else s) s

/-- The line of a physical line number in a core's L1. -/
def findLine (s : State) (n lineNo : Nat) : Option Line := (s.core n).l1.find? (·.pa == lineNo)

/-- A core's L1 without a line. -/
def dropLine (s : State) (n lineNo : Nat) : State := s.modCore n fun c => { c with l1 := c.l1.filter (·.pa != lineNo) }

/-- Writes a line's dirty bytes back, after the core's older stores to it; the line stays, clean (R274). -/
def cleanLine (s : State) (n lineNo : Nat) : State :=
  let s := drainUpTo s n (·.inLine lineNo)
  match findLine s n lineNo with
  | none => s
  | some l =>
    (l2Count (writeDirty s l) (if l.dirty = 0 then none else some n) (lineNo * 128)).modCore n fun c =>
      { c with l1 := c.l1.map fun x => if x.pa == lineNo then { x with dirty := 0, cols := 0 } else x }

/-- Writes a line's dirty bytes back, after the core's older stores to it, and invalidates it (R203, R205). -/
def flushLine (s : State) (n lineNo : Nat) : State :=
  let s := drainUpTo s n (·.inLine lineNo)
  match findLine s n lineNo with
  | none => s
  | some l => dropLine (l2Count (writeDirty s l) (if l.dirty = 0 then none else some n) (lineNo * 128)) n lineNo

/-- A core's L1 with a line put first, the least recently used line of a full set written back and removed (R252). -/
def putLine (s : State) (n : Nat) (l : Line) : State :=
  let s := dropLine s n l.pa
  let same := (s.core n).l1.filter (·.pa % 1024 == l.pa % 1024)
  let s := match (if same.length < 16 then none else same.getLast?) with
    | some v => flushLine s n v.pa
    | none => s
  s.modCore n fun c => { c with l1 := l :: c.l1 }

/-- The line as the point of coherence holds it, with the core's own stores. -/
def freshLine (s : State) (n lineNo : Nat) : Line :=
  { pa := lineNo, data := BitVec.ofNat 1024 (ofBytes (coreBytes s n (lineNo * 128) 128)) }

/-- `n` bytes of a line. -/
def lineBytes (l : Line) (off n : Nat) : List Byte := (List.range n).map fun i => lineByte l (off + i)

/-- A load within one line through the L1 (R203, R204); `first` is false for a later piece of the same load of the line, which brings no
line back that the load's own count has removed. -/
def l1Load (s : State) (n pa len : Nat) (pol : Pol) (first : Bool) : State × List Byte :=
  let ln := pa / 128
  let off := pa % 128
  match pol with
  | .uc => let s := flushLine s n ln; (s, coreBytes s n pa len)
  | _ =>
    match findLine s n ln with
    | some l =>
      let got := lineBytes l off len
      let (s, count) := match l.count, pol with
        | some c, _ => (s, some (if first then c - 1 else c))
        | none, .rc k => (cleanLine s n ln, some (k - 1))
        | none, _ => (s, none)
      if count = some 0 then (dropLine s n ln, got)
      else
        match findLine s n ln with
        | some l => (putLine s n { l with count := count }, got)
        | none => (s, got)
    | none =>
      match pol with
      | .stream => (s, coreBytes s n pa len)
      | .rc k =>
        let l := freshLine s n ln
        (if k ≤ 1 ∨ !first then s else putLine s n { l with count := some (k - 1) }, lineBytes l off len)
      | _ => let l := freshLine s n ln; (if first then putLine s n l else s, lineBytes l off len)

/-- The line with bytes stored: dirty, in the store's colour, with no read count (R204, R274). -/
def storeInLine (l : Line) (off : Nat) (data : List Byte) (col : BitVec 3) : Line :=
  let n := data.length
  { l with
    data := setBits l.data (8 * off) (8 * n) (ofBytes data)
    dirty := setBits l.dirty off n (2 ^ n - 1)
    cols := setBit l.cols col.toNat true
    count := none }

/-- A store within one line through the L1 (R203). A UC or STREAM store that goes past the L1, and the fill of a line that a WB store
misses, reach the L2 (R258) and, for a line of another package, leave on a link (R373). -/
def l1Store (s : State) (n pa : Nat) (data : List Byte) (pol : Pol) (col : BitVec 3) : State :=
  let ln := pa / 128
  match pol with
  | .uc => sendStore (flushLine s n ln) n { loc := .phys pa, data := data, col := col }
  | .stream =>
    match findLine s n ln with
    | some l => putLine s n (storeInLine l (pa % 128) data col)
    | none => sendStore s n { loc := .phys pa, data := data, col := col }
  | _ =>
    match findLine s n ln with
    | some l => putLine s n (storeInLine l (pa % 128) data col)
    | none =>
      let (_, s) := s.bump
      let s := sendRead (l2Read s (some n) (ln * 128) 128 false) (ln * 128) 128 false
      putLine s n (storeInLine (freshLine s n ln) (pa % 128) data col)

/-- Performs the buffered stores whose colour is in a mask, and writes back every line whose colours meet it (R273, R274). -/
def cleanColours (s : State) (n : Nat) (cols : BitVec 8) : State :=
  let s := drainUpTo s n fun w => bitAt cols w.col.toNat
  (((s.core n).l1.filter fun l => l.cols &&& cols != 0).map (·.pa)).foldl (fun s ln => cleanLine s n ln) s

/-- Performs every buffered store of a core and writes back every dirty line. -/
def cleanAll (s : State) (n : Nat) : State :=
  let s := drainUpTo s n fun _ => true
  (((s.core n).l1.filter fun l => l.dirty != 0).map (·.pa)).foldl (fun s ln => cleanLine s n ln) s

/-! ### Deterministic shadows (R336) -/

/-- A load of a piece finds its line in the core's L1. -/
def l1Holds (s : State) (n : Nat) (p : Piece) : Bool :=
  match p.loc with
  | .phys pa => p.pol != .uc && (findLine s n (pa / 128)).isSome
  | _ => false

/-- The fault kind with which a load of checked pieces through a core's L1 ends: a line that the L1 holds is not read again. -/
def loadKind (s : State) (n : Nat) (ps : List Piece) : Option Nat :=
  if ps.any fun p => pieceDenied s p true false then some 4
  else (ps.filter fun p => !l1Holds s n p).findSome? fun p => placeKind s (some n) p.loc p.len

/-- The task, when its global accesses go through a shadow. -/
def shadowTask (s : State) (task : Option Nat) : Option Task :=
  match task.bind s.taskAt with
  | none => none
  | some t => if (s.eff t.bay).det && !t.unshadowed then some t else none

/-- Lines of the shadow arena of a bay in use. -/
def shadowLines (s : State) (bay : Nat) : Nat := ((s.tasks.filter (·.bay == bay)).map fun t => t.shadow.length).sum

/-- The 64-byte lines of pieces at physical addresses. -/
def pieceLines (ps : List Piece) : List Nat := ps.flatMap fun p => match p.loc with
  | .phys pa => granules pa p.len
  | _ => []

/-- The shadow arena has free lines for a write of a task; one that has found none waits until the task is first in commit order
(R338). -/
def shadowRoom (s : State) (task : Option Nat) (ps : List Piece) : Bool :=
  match shadowTask s task with
  | none => true
  | some t =>
    let new := ((pieceLines ps).filter fun g => (t.shadow.lookup g).isNone).eraseDups
    !t.starved && decide (shadowLines s t.bay + new.length ≤ (s.eff t.bay).shlen.toNat / 64)

/-- A write of the task of a core waits for a line of the shadow arena (R338). -/
def starve (s : State) (core : Nat) : State :=
  match (s.core core).task with
  | some id => s.modTask id fun t => { t with starved := true }
  | none => s

/-- The lines that a task of a deterministic bay writes without a shadow (R337, R338). -/
def noteWrote (s : State) (task : Option Nat) (lines : List Nat) : State :=
  match task.bind s.taskAt with
  | some t => if (s.eff t.bay).det && t.unshadowed then s.modTask t.id fun t => { t with wrote := t.wrote ++ lines } else s
  | none => s

/-- The arena keeps shadow lines of a bay: where it keeps a line, and as what bytes, is left open (R336; assumption 99). -/
def arenaKeeps (s : State) (bay : Nat) (lines : List Nat) : State :=
  let v := s.eff bay
  let n := v.shlen.toNat / 64
  if n = 0 then s
  else
    lines.foldl (fun s _ =>
      let (i, s) := s.bump
      let va := v.shbase.toNat + 64 * (Config.shadowSlot i % n)
      match walk s bay va with
      | .leaf t => pocWrite s (t.pa + (va - t.va)) ((List.range 64).map (Config.shadowByteAt i))
      | .notMapped _ => s) s

/-- A byte as a task sees it: its own shadow line where it holds one, the committed byte otherwise. -/
def shadowByte (s : State) (t : Task) (pa : Nat) : Byte :=
  match t.shadow.lookup (pa / 64) with
  | some d => BitVec.ofNat 8 (bits d (8 * (pa % 64)) 8)
  | none => (pocRead s pa 1).headD 0

/-- A read of a shadowed task: lines read from committed data enter the read set. -/
def shadowRead (s : State) (t : Task) (pa len : Nat) : State × List Byte :=
  let got := (List.range len).map fun i => shadowByte s t (pa + i)
  let away := (granules pa len).filter fun l => (t.shadow.lookup l).isNone
  let new := away.filter fun l => !t.readSet.contains l
  ((away.foldl (fun s l => sendRead s (l * 64) 64 false) s).modTask t.id fun t => { t with readSet := t.readSet ++ new }, got)

/-- One byte written to a task's shadow, its line copied from committed data first where the task holds none: the copy is a read of
that line (R336, R337). -/
def shadowPut (s : State) (id pa : Nat) (b : Byte) : State :=
  match s.taskAt id with
  | none => s
  | some t =>
    let ln := pa / 64
    let cur : BitVec 512 := match t.shadow.lookup ln with
      | some d => d
      | none => BitVec.ofNat 512 (ofBytes (pocRead s (ln * 64) 64))
    let new := setBits cur (8 * (pa % 64)) 8 b.toNat
    let copies := (t.shadow.lookup ln).isNone
    let s := if copies then sendRead s (ln * 64) 64 false else s
    s.modTask id fun t =>
      { t with
        shadow := (ln, new) :: t.shadow.filter (·.1 != ln)
        readSet := if copies && !t.readSet.contains ln then t.readSet ++ [ln] else t.readSet }

/-- Bytes written to a task's shadow. -/
def shadowWrite (s : State) (id pa : Nat) : List Byte → State
  | [] => s
  | b :: r => shadowWrite (shadowPut s id pa b) id (pa + 1) r

/-! ### Performing an access -/

/-- A task has accessed its own Loft since its last start (R391). -/
def noteOwnLoft (s : State) (core : Option Nat) (loft : Nat) : State :=
  match core with
  | some n => if n = loft then match (s.core n).task with
      | some id => s.modTask id fun t => { t with ownLoft := true }
      | none => s else s
  | none => s

/-- Reads one piece: at the bank, at the Loft, through the L1 of `l1` when it is given, else at the point of coherence. -/
def readPiece (s : State) (core : Option Nat) (l1 : Bool) (task : Option Nat) (first : Bool) (p : Piece) : State × List Byte :=
  match p.loc with
  | .scratch off => (s, memRead (s.core (core.getD 0)).scratch off p.len)
  | .loft n off =>
    let b := memRead (s.core n).loft off p.len
    (noteOwnLoft s core n, if l1 then bufferOver (s.core (core.getD 0)) p.loc b else b)
  | .phys pa =>
    let (_, s) := s.bump
    match shadowTask s task with
    | some t => shadowRead s t pa p.len
    | none =>
      let hit := l1 && l1Holds s (core.getD 0) p
      let s := if hit then s else sendRead (l2Read s core pa p.len p.ca) pa p.len p.long
      if l1 then l1Load s (core.getD 0) pa p.len p.pol first else (s, pocRead s pa p.len)

/-- Reads the pieces of one load in order; `seen` are the lines the load has read. -/
def readPieces (s : State) (core : Option Nat) (l1 : Bool) (task : Option Nat) (seen : List Nat) : List Piece → State × List Byte
  | [] => (s, [])
  | p :: r =>
    let ln := match p.loc with
      | .phys pa => pa / 128
      | _ => 0
    let (s, b) := readPiece s core l1 task (!seen.contains ln) p
    let (s, c) := readPieces s core l1 task (ln :: seen) r
    (s, b ++ c)

/-- Writes one piece. -/
def writePiece (s : State) (core : Option Nat) (l1 : Bool) (task : Option Nat) (col : BitVec 3) (p : Piece) (data : List Byte) : State :=
  match p.loc with
  | .scratch off =>
    (heal s (.scratch (core.getD 0)) off data.length).modCore (core.getD 0) fun c => { c with scratch := memWrite c.scratch off data }
  | .loft n _ =>
    let w : Buffered := { loc := p.loc, data := data, col := col }
    match core with
    | some m => if l1 && m != n then sendStore s m w else performStore (noteOwnLoft s core n) m w
    | none => performStore s 0 w
  | .phys pa =>
    match shadowTask s task with
    | some t => arenaKeeps (shadowWrite s t.id pa data) t.bay (granules pa data.length)
    | none =>
      let s := noteWrote s task (granules pa data.length)
      if l1 && !p.ca then l1Store s (core.getD 0) pa data p.pol col
      else
        match (if l1 then core else none) with
        | some n => sendStore (flushLine s n (pa / 128)) n { loc := .phys pa, data := data, col := col, ca := true }
        | none => l2Count (if p.sys then throughWrite s pa data else if p.ca then uncachedWrite s pa data else pocWrite s pa data) core pa

/-- Writes the pieces of one store in order. -/
def writePieces (s : State) (core : Option Nat) (l1 : Bool) (task : Option Nat) (col : BitVec 3) : List Piece → List Byte → State
  | [], _ => s
  | p :: r, data => writePieces (writePiece s core l1 task col p (data.take p.len)) core l1 task col r (data.drop p.len)

/-! ### Cells of the Cask (R355, R364) -/

/-- The die of a graph's sequencer. -/
def graphDie (s : State) (id : Nat) : Nat := ((s.graphAt id).map (·.die)).getD 0

/-- The directory of a die. -/
def caskDir (s : State) (die : Nat) : List CaskEntry := rd s.cask die []

/-- The address of an arena offset for a directory's die: space 0x0, or the Loft of the lowest-numbered core of the bay's set on the
die. -/
def arenaAddr (s : State) (bay die off : Nat) : W64 :=
  let b := s.eff bay
  if b.caskbase.toNat / 2 ^ 60 = 2 then
    let core := ((List.range 160).find? fun i => bitAt b.cores (160 * die + i)).getD 0 + 160 * die
    w64 (3 * 2 ^ 60 + core * 2 ^ 32 + (b.caskbase.toNat % 2 ^ 23 + off))
  else b.caskbase + w64 off

/-- Bytes rounded up to 64. -/
def up64 (n : Nat) : Nat := (n + 63) / 64 * 64

/-- Bytes at an address lie in the cell of an entry of a bay, in the directory of a die. A Loft address is that of a core. -/
def cellMeets (s : State) (die bay core : Nat) (va : W64) (len : Nat) (e : CaskEntry) : Bool :=
  let a := if va.toNat / 2 ^ 60 = 2 then 3 * 2 ^ 60 + core * 2 ^ 32 + va.toNat % 2 ^ 23 else va.toNat
  let cell := (arenaAddr s bay die (64 * e.celloff.toNat)).toNat
  e.bay == bay && decide (a < cell + up64 e.reflen + e.outlen ∧ cell < a + len)

/-- The entries of a die's directory are invalidated whose cell some bytes meet (R364). -/
def dropCells (s : State) (die bay core : Nat) (va : W64) (len : Nat) : State :=
  if !((caskDir s die).any fun e => e.v && cellMeets s die bay core va len e) then s
  else { s with cask := wr s.cask die ((caskDir s die).map fun e => if cellMeets s die bay core va len e then { e with v := false } else e) }

/-- A read has ended with a fault kind: an uncorrectable error invalidates the Cask entries whose cell it is, in the directory of the
reading task's die, or in both for another agent of the bay (R364). -/
def dropRead (s : State) (k : Who) (fault : Nat) (va : W64) (len : Nat) : State :=
  if fault ≠ 6 then s
  else
    let dies := match k.task.bind s.taskAt with
      | some t => [graphDie s t.graph]
      | none => [0, 1]
    dies.foldl (fun s die => dropCells s die k.bay (k.core.getD 0) va len) s

/-- A read at the point of coherence by an agent that uses no L1 (R276): the bytes, or the first fault. -/
def agentRead (s : State) (k : Who) (va : W64) (len align : Nat) : State × (List Byte ⊕ AErr) :=
  match access s k va len align .uc with
  | (s, .bad e) => (s, .inr e)
  | (s, .ok ps) =>
    match readKind s k.core ps with
    | some f => (dropRead s k f va len, .inr { cause := class2 k.kind f, addr := va })
    | none =>
      let (s, b) := readPieces s k.core false k.task [] ps
      (s, .inl b)

/-- A write at the point of coherence by an agent that uses no L1 (R276): the state, or the first fault. -/
def agentWrite (s : State) (k : Who) (va : W64) (align : Nat) (data : List Byte) : State × Option AErr :=
  match access s k va data.length align .uc with
  | (s, .bad e) => (s, some e)
  | (s, .ok ps) =>
    if ps.any fun p => pieceDenied s p false true then (s, some { cause := class2 k.kind 4, addr := va })
    else (writePieces s k.core false k.task 0 ps data, none)

/-- The device itself, acting in a bay's address space with no core (R399): sequencers and their records. -/
def device (bay kind : Nat) : Who := { core := none, bay := bay, kind := kind }

/-- Firmware in a bay's address space: its accesses are not checked by the access tables (R370, R399). -/
def firmware (bay kind : Nat) : Who := { core := none, bay := bay, kind := kind, fw := true }

/-! ### Positions and the fault record (R60, R296, R301) -/

/-- The number of a slot in the orders of R63, R74 and R295. -/
def slotNum : Slot → Nat
  | .s => 0
  | .v0 => 1
  | .v1 => 2
  | .m => 3
  | .x0 => 4
  | .x1 => 5

/-- The queue of a slot. -/
def slotQ (e : Engine) (sl : Slot) : List QOp := rd e.slotQ (slotNum sl) []

/-- The dictionary base and length that an entry's context uses. -/
def dictOf (c : Core) (x : Ctx) : Nat × Nat := let g := c.gctx x; (g.dbase.toNat, g.dlen)

/-- 48 bytes of a dictionary entry in the Loft (R84). -/
def readEntry (c : Core) (e : EmitEntry) : BitVec 384 :=
  BitVec.ofNat 384 (ofBytes (memRead c.loft ((dictOf c e.ctx).1 + 48 * e.index.toNat) 48))

/-- The bundle of an emit-queue entry as the expander would find it: literal, cached or in the Loft; none past the dictionary. -/
def entryBundle (c : Core) (e : EmitEntry) : Option (BitVec 384) :=
  match e.lit with
  | some b => some b
  | none =>
    if (dictOf c e.ctx).2 ≤ e.index.toNat then none
    else
      match c.dcache.lookup (e.ctx, e.index) with
      | some b => some b
      | none => some (readEntry c e)

/-- A user entry not yet expanded has an op for a slot (R60, R74); an entry that names no bundle counts for every slot (R102). -/
def entryHolds (c : Core) (sl : Slot) (e : EmitEntry) : Bool :=
  e.ctx == .user && match entryBundle c e with | some b => bitAt b (4 + slotNum sl) | none => true

/-- The sequence numbers of the user bundles whose op for a slot has not issued: those in its queue, then those not expanded; a
stopped M op counts with its own bundle (R60, R296). -/
def unissued (c : Core) (sl : Slot) : List (BitVec 32) :=
  let m : List (BitVec 32) := if sl = .m && c.stop.isSome then
      (match c.e.macc with | some r => (if r.info.ctx = .user then [r.info.eseq] else []) | none => []) ++
        (match c.e.drain with | some r => (if r.info.ctx = .user then [r.info.eseq] else []) | none => [])
    else []
  m ++ ((slotQ c.e sl).filter (·.info.ctx = .user)).map (·.info.eseq) ++
    (match c.dmiss with | some d => (if entryHolds c sl d.entry then [d.entry.eseq] else []) | none => []) ++
    (c.e.emitQ.filter (entryHolds c sl)).map (·.eseq)

/-- A is at or before B modulo 2^32 (R56). -/
def seqLe (a b : BitVec 32) : Bool := decide ((b - a).toNat < 2 ^ 31)

/-- The earliest of a list of sequence numbers; `d` when the list is empty. -/
def seqMin (d : BitVec 32) (l : List (BitVec 32)) : BitVec 32 :=
  match l with
  | [] => d
  | a :: r => r.foldl (fun x y => if seqLe x y then x else y) a

/-- The position of a slot (R60). -/
def position (c : Core) (sl : Slot) : BitVec 32 := seqMin c.e.user.eseq (unissued c sl)

/-- The six slots in order. -/
def slots : List Slot := [.s, .v0, .v1, .m, .x0, .x1]

/-- The words of a fault record (R301). A fault at expansion puts no slot past its bundle (R102). -/
def recordWords (s : State) (n : Nat) (fi : FaultInfo) : List W64 :=
  let c := s.core n
  let t := s.taskOn n
  let step := (t.map fun t => (rd t.ms 0 0).toNat % 2 ^ 20).getD 0
  let index := (t.map fun t => (rd t.rec_ 0 0).toNat % 2 ^ 16).getD 0
  let ps := (slots.map (position c)).map fun p =>
    match fi.eseq with
    | some q => if fi.src = 6 ∨ fi.src = 7 then (if seqLe p q then p else q) else p
    | none => p
  let base := seqMin c.e.user.eseq ps
  let offs := (ps.zipIdx.map fun p => min (p.1 - base).toNat 16 * 2 ^ (32 + 5 * p.2)).sum
  let eofs := match fi.eseq with
    | some q => if fi.pv then (q - base).toNat % 16 else 0
    | none => 0
  [w64 (step * 2 ^ 44 + index * 2 ^ 28 + (s.bayOn n) % 4096 * 2 ^ 16 + fi.src * 2 ^ 12 + (if fi.hm then 2 ^ 11 else 0) +
      (if fi.async then 2 ^ 10 else 0) + (if fi.levelE then 2 ^ 9 else 0) + fi.cause.toNat),
   w64 (offs + base.toNat),
   w64 ((if fi.pv then 2 ^ 63 else 0) + (if fi.ctx = .firmware then 2 ^ 62 else 0) + fi.gpc.toNat / 4 * 2 ^ 16 +
      (if fi.pv then fi.index.toNat else 0)),
   fi.opbits, fi.addr, w64 (eofs * 2 ^ 60 + fi.stamp.toNat % 2 ^ 60), fi.det0, fi.det1]

/-- The bytes of 64-bit words (R4). -/
def wordBytes (ws : List W64) : List Byte := ws.flatMap fun w => toBytes 8 w.toNat

/-- The fault-record line of a core in a bay's save area (R401). -/
def recordLine (s : State) (bay n : Nat) : W64 :=
  let b := s.eff bay
  w64 (b.savebase.toNat + 2 ^ 21 * b.savecnt.toNat + 64 * n)

/-- Writes a record to a bay's fault log (R333); dropped, and counted as dropped, when the log cannot be written. -/
def logRecord (s : State) (bay : Nat) (ws : List W64) : State :=
  let b := s.eff bay
  let drop (s : State) : State :=
    if (s.bayAt bay).isSome then s.modBay bay fun b => { b with dropped := b.dropped + 1 }
    else { s with telemetry := { s.telemetry with dropped := s.telemetry.dropped + 1 } }
  if b.flogbase = 0 then drop s
  else
    match agentRead s (firmware bay 5) b.flogbase 8 8 with
    | (s, .inr _) => drop s
    | (s, .inl cnt) =>
      let n := ofBytes cnt
      match agentWrite s (firmware bay 6) (b.flogbase + w64 (64 + 64 * (n % 2 ^ b.flogsz.toNat))) 8 (wordBytes ws) with
      | (s, some _) => drop s
      | (s, none) =>
        match agentWrite s (firmware bay 6) b.flogbase 8 (toBytes 8 (n + 1)) with
        | (s, some _) => drop s
        | (s, none) => s

/-- An event record of the device: SRC, LEVEL 1, ASYNC 1, a task and step, and detail (R302, R323, R345, R350, R389). -/
def eventWords (s : State) (bay task step src : Nat) (cause : BitVec 9) (w1 addr det0 det1 : W64) : List W64 :=
  [w64 (step % 2 ^ 20 * 2 ^ 44 + task % 2 ^ 16 * 2 ^ 28 + bay % 4096 * 2 ^ 16 + src * 2 ^ 12 + 2 ^ 10 + 2 ^ 9 + cause.toNat),
   w1, 0, 0, addr, w64 (s.now % 2 ^ 60), det0, det1]

/-! ### Raising a fault (R293 to R295, R305) -/

/-- The order in which synchronous faults of one cycle are reported (R295). -/
def srcOrder (src : Nat) : Nat := if src = 8 then 0 else if src < 6 then src + 1 else 7

/-- Held faults with one more: in the order in which they arose, ties broken by SRC (R305). -/
def holdFault (f : FaultInfo) : List FaultInfo → List FaultInfo
  | [] => [f]
  | x :: r => if f.stamp = x.stamp ∧ f.src < x.src then f :: x :: r else x :: holdFault f r

/-- A fault of the firmware context is never delivered to the task: it is reported to the bay's fault log as 0x178 (R293). -/
def firmwareFault (s : State) (n : Nat) (cause : BitVec 9) (addr det1 : W64) : State :=
  logRecord s (s.bayOn n) (eventWords s (s.bayOn n) 0xFFFF 0 13 0x178 0 addr (zx cause) det1)

/-- Raises a fault of the task on a core. The first fault of a running core stops it, before a pre-emption that reaches the core in
the same cycle (R305); of two faults of one cycle the one that comes earlier in the order of R295 or R305 is taken first, and a
synchronous one that comes after another counts as not issued; whatever arises while the core is stopped is held. A fault of handler
mode restarts the stop and is never held. -/
def raise (s : State) (n : Nat) (fi : FaultInfo) : State :=
  let fi := { fi with stamp := w64 s.now }
  let c := s.core n
  if fi.ctx = .firmware then firmwareFault s n fi.cause fi.addr fi.det1
  else
    match c.stop with
    | none => s.setCore n { c with stop := some { b := s.now, why := .fault, faults := [fi] } }
    | some st =>
      if fi.hm then s.setCore n { c with stop := some { st with b := s.now - 1, why := .fault, faults := [fi], reached := false } }
      else if st.b = s.now ∧ !st.reached then
        match st.faults with
        | [] =>
          match st.why with
          | .kill _ => s
          | w => s.setCore n { c with stop := some { st with why := .fault, faults := [fi] }, stopNext := some w }
        | f :: _ =>
          if !f.async ∧ !fi.async then
            if srcOrder fi.src < srcOrder f.src then
              -- the trap of an op that has completed cannot be raised again by it
              let held := if f.cause.toNat / 64 = 3 then holdFault f c.held else c.held
              s.setCore n { c with stop := some { st with faults := [fi] }, held := held }
            else if fi.cause.toNat / 64 = 3 then s.setCore n { c with held := holdFault fi c.held }
            else s
          else if fi.src < f.src then s.setCore n { c with stop := some { st with faults := [fi] }, held := holdFault f c.held }
          else s.setCore n { c with held := holdFault fi c.held }
      else s.setCore n { c with held := holdFault fi c.held }

/-- Of two kills of a task, what it comes to: to be forgotten before its end being recorded, and that before running again (R334, R337,
R352). -/
def strongest : KillHow → KillHow → KillHow
  | .discard, _ => .discard
  | _, .discard => .discard
  | .record, _ => .record
  | _, .record => .record
  | .again, .again => .again

/-- A stop request that joins one that waits: a kill stands against a pre-emption. -/
def joinStop (old : Option StopWhy) (why : StopWhy) : StopWhy :=
  match old, why with
  | some (.kill a), .kill b => .kill (strongest a b)
  | some (.kill a), _ => .kill a
  | _, w => w

/-- Asks a core to stop for pre-emption or a kill (R305, R306, R334): at once, or after the stop it is in. -/
def requestStop (s : State) (n : Nat) (why : StopWhy) : State :=
  let c := s.core n
  match c.stop with
  | none => s.setCore n { c with stop := some { b := s.now, why := why, faults := [] } }
  | some _ => s.setCore n { c with stopNext := some (joinStop c.stopNext why) }

/-- A waiting op that issued in cycle `since` does not complete while its core is stopped, or in the cycle of the fault that stops it: it
has not issued before the cycle b of the first stop since the core last ran (R297). -/
def waitHeld (s : State) (core since : Nat) : Bool :=
  match (s.core core).stop, (s.core core).faultDue with
  | some st, _ => decide (st.first ≤ since)
  | none, some b => decide (b = s.now ∧ b ≤ since)
  | none, none => false

/-! ### Entering a handler and returning from one (R302 to R304) -/

/-- Takes an exception: writes the fault record to the task's line and enters handler mode at MLT_HBASE (R302); hg30 is the faulting
instruction for level G, and the first that has not issued for level E (R296). The task is to be
faulted when no handler is declared, the fault is one of handler mode (whose record is not written there), or the record write
faults. The core's own L1 copy of the line gives way to the record (DESIGN CHOICE, see assumption 18). -/
def enterHandler (s : State) (n : Nat) (fi : FaultInfo) : State × Bool :=
  let g := (s.core n).e.user
  if g.handler ∨ fi.hm then (s, false)
  else
    let bay := s.bayOn n
    let line := recordLine s bay n
    match access s { core := some n, bay := bay, kind := 6 } line 64 64 .uc with
    | (s, .bad _) => (s, false)
    | (s, .ok ps) =>
      let s := ps.foldl (fun s p => match p.loc with | .phys pa => flushLine s n (pa / 128) | _ => s) s
      let s := writePieces s (some n) false none 0 ps (wordBytes (recordWords s n fi))
      if g.hbase = 0 then (s, false)
      else (s.modG n .user fun g =>
        let at_ := if fi.levelE then g.pc else fi.gpc
        { g with handler := true, hg := #v[line, w64 fi.cause.toNat, zx at_, 0], pc := g.hbase, trapPc := at_ }, true)

/-- Times of a stopped engine moved on by the length of the stop (R299): cycle `e` is what cycle B would have been. -/
def shiftTimes (e : Engine) (d : Nat) : Engine :=
  { e with
    unitFree := e.unitFree.map (· + d)
    drainFree := e.drainFree + d
    macc := e.macc.map fun r => { r with next := r.next + d }
    accLands := e.accLands + d
    mNext := e.mNext + d
    drain := e.drain.map fun r => { r with next := r.next + d }
    tiles := e.tiles.map (· + d)
    drainEnds := e.drainEnds.map (· + d)
    slotQ := e.slotQ.map fun q => q.map fun o => { o with notBefore := o.notBefore + d } }

/-- Times of a generator context that count cycles of issue, moved on. -/
def holdG (g : GenCtx) (d : Nat) : GenCtx :=
  { g with readyAt := g.readyAt + d, k := g.k.map fun x => { x with prepAt := x.prepAt.map (· + d) } }

/-- A core whose clock stands still for `d` cycles: every count of issue is moved on by as much, results in flight included, and the
counts of the 1.2 GHz reference (timeouts) are not (R5, R394, R395). -/
def holdCore (c : Core) (d : Nat) : Core :=
  let e := shiftTimes c.e d
  { c with
    e := { e with
      user := holdG e.user d
      landings := e.landings.map fun l => { l with at_ := l.at_ + d }
      resumed := e.resumed + d
      mBusy := e.mBusy.map fun b => (b.1 + d, b.2)
      xBusy := e.xBusy.map fun b => (b.1 + d, b.2)
      fIssued := (e.fIssued.1 + d, e.fIssued.2)
      copyTurn := e.copyTurn.map fun t => (t.1, t.2 + d) }
    fw := holdG c.fw d
    dmiss := c.dmiss.map fun m => { m with readyAt := m.readyAt + d }
    stallWant := c.stallWant.map fun w => (w.1 + d, w.2)
    stop := c.stop.map fun st => { st with b := st.b + d, at_ := st.at_.map (· + d), first := st.first + d }
    stallUntil := c.stallUntil + d }

/-- No recalibration keeps a core from issuing: it does not stall, and none has been asked for in an earlier cycle (R394). -/
def unstalled (c : Core) (now : Nat) : Bool :=
  decide (c.stallUntil ≤ now) && match c.stallWant with
    | some (b, _) => decide (now ≤ b)
    | none => true

/-- Ends a stop: the engine stream goes on in the next cycle, or when a stall of the core ends, with the snapshot applied from there
(R299, R304, R394). -/
def endStop (s : State) (n : Nat) : State :=
  s.modCore n fun c =>
    match c.stop with
    | none => c
    | some st =>
      let first := max (s.now + 1) c.stallUntil
      { c with stop := none, e := { shiftTimes c.e (first - st.at_.getD s.now) with resumed := first } }

/-- Ends a stop unless more waits: a held fault is taken first, then a stop that waited (R304, R305). -/
def resumeOrNext (s : State) (n : Nat) : State :=
  let c := s.core n
  match c.held with
  | f :: r =>
    s.setCore n { c with held := r, stop := c.stop.map fun st => { st with b := s.now - 1, why := .fault, faults := [f], reached := false } }
  | [] =>
    match c.stopNext with
    | some w =>
      s.setCore n { c with stopNext := none, stop := c.stop.map fun st => { st with b := s.now - 1, why := w, faults := [], reached := false } }
    | none => endStop s n

/-- Returns from handler mode: the generator goes on at hg30, or at the instruction after it, and the engine stream at its
recorded positions (R304, R135). An EMITN that had placed entries keeps their number only when it is resumed itself (R119). -/
def leaveHandler (s : State) (n : Nat) (len : Nat) : State :=
  resumeOrNext (s.modG n .user fun g =>
    let pc := BitVec.ofNat 48 ((rd g.hg 2 0).toNat + len)
    { g with handler := false, hg := Vector.replicate 4 0, pc := pc, eprog := if pc = g.trapPc then g.eprog else 0 }) n

end Sys2Proof.Machine
end

