-- ==== Sys2Proof/Machine/Slot.lean ====
section
/-! DEFINITION. Issue of a slot op: the conditions of R61 on one op, the field checks of R82, faults at issue (R83), tags (R63),
and the landing of results (R62, R298, R299). An op acts on the core, slot, bundle and field that `State.cur` names. -/

namespace Sys2Proof.Machine

/-- The engine that executes. -/
def curE (s : State) : Engine := (s.core s.cur.core).e

/-- The state with the executing engine changed. -/
def modCurE (s : State) (f : Engine → Engine) : State := s.modE s.cur.core f

/-! ### Faults at issue (R83, R307) -/

/-- An op of the firmware context that faults is given up, at the head of its queue or in progress in the M slot (assumption 97). -/
def dropFirmwareOp (s : State) (info : BInfo) (slot : Slot) (core : Nat) : State :=
  if info.ctx = .user then s
  else
    s.modE core fun e =>
      let q := slotQ e slot
      { e with
        slotQ := wr e.slotQ (slotNum slot) (match q with | o :: r => if o.info = info then r else q | [] => q)
        macc := e.macc.bind fun r => if slot = .m ∧ r.info = info then none else some r
        drain := e.drain.bind fun r => if slot = .m ∧ r.info = info then none else some r }

/-- A fault of an op: its cause, address and detail words (R83, R293). -/
def opFault (s : State) (info : BInfo) (bits_ : W64) (slot : Slot) (core : Nat) (cause : BitVec 9) (addr det0 det1 : W64) : State :=
  raise (dropFirmwareOp s info slot core) core
    { src := slotNum slot, cause := cause, levelE := true, async := false, pv := true, ctx := info.ctx, gpc := info.gpc,
      index := info.index, opbits := bits_, eseq := some info.eseq, addr := addr, det0 := det0, det1 := det1 }

/-- A fault of the op that issues. -/
def slotFault (s : State) (cause : BitVec 9) (addr det0 det1 : W64) : State :=
  opFault s s.cur.info s.cur.bits s.cur.slot s.cur.core cause addr det0 det1

/-- The class-0 code of a kind in the executing slot (R307). -/
def class0 (slot : Slot) (kind : Nat) : BitVec 9 := BitVec.ofNat 9 (8 * slotNum slot + kind)

/-! ### Landing (R62) -/

/-- What an op finds at issue: it waits under condition 4 of R61, it faults, or it issues and occupies its unit for so many cycles. -/
inductive Iss where
  | wait
  | fault (cause : BitVec 9) (addr det0 det1 : W64)
  | go (s : State) (beats : Nat)
  deriving DecidableEq, Repr

/-- The tag that an op allocates (R76). -/
def tagOf (taga : BitVec 4) : Option (BitVec 3) := if bitAt taga 3 then some (taga.setWidth 3) else none

/-- TAGA is well formed: no tag named without its enable (R76). -/
def tagaOk (taga : BitVec 4) : Bool := bitAt taga 3 || bits taga 0 3 == 0

/-- The tag is set. -/
def tagSet (e : Engine) (t : Option (BitVec 3)) : Bool :=
  match t with
  | some n => bitAt e.tags n.toNat
  | none => false

/-- A result of an op of slot `sl` of a core that issued in cycle `since`, readable from cycle now + `lat` (R62), with the tag it
clears. Results rank by their issue cycle, then by slot. -/
def landSince (s : State) (core : Nat) (sl : Slot) (since lat : Nat) (ws : List RegWrite) (tag : Option (BitVec 3)) : State :=
  s.modE core fun e =>
    { e with landings := e.landings ++ [{ at_ := s.now + lat, seq := since * 8 + slotNum sl, writes := ws, tag := tag }] }

/-- A result of an op that issues in this cycle. -/
def landAt (s : State) (core : Nat) (sl : Slot) (lat : Nat) (ws : List RegWrite) (tag : Option (BitVec 3)) : State :=
  landSince s core sl s.now lat ws tag

/-- A result of the executing op. -/
def land (s : State) (lat : Nat) (ws : List RegWrite) (tag : Option (BitVec 3)) : State :=
  landAt s s.cur.core s.cur.slot lat ws tag

/-- The tag of an op with no register result clears in the cycle after it has read its operands (R63). -/
def tagOnly (s : State) (tag : Option (BitVec 3)) : State :=
  match tag with
  | none => s
  | some _ => land s 1 [] tag

/-- An op that issues with one result of latency `lat` and occupies its unit for one cycle. -/
def landGo (s : State) (lat : Nat) (ws : List RegWrite) (tag : Option (BitVec 3)) : Iss := .go (land s lat ws tag) 1

/-! ### Conditions 1, 2 and 4 of R61 -/

/-- The engine stream of a core issues: powered, not stalled, resumed (R299), and not stopped before this cycle (R295, R394). -/
def streamRuns (s : State) (n : Nat) : Bool :=
  let c := s.core n
  rd s.powered (n / 160) false && unstalled c s.now && decide (c.e.resumed ≤ s.now) && !c.restoring &&
    match c.stop with
    | none => true
    | some st => !st.reached && st.b == s.now

/-- The unit of a slot is free (R61 condition 1). The M slot's two units are tested by its ops (R177). -/
def unitReady (s : State) (core : Nat) (sl : Slot) : Bool :=
  let e := (s.core core).e
  let free := decide (rd e.unitFree (slotNum sl) 0 ≤ s.now)
  match sl with
  | .s => free && e.swait.isNone
  | .v0 => free && (rd e.vrun 0 none).isNone
  | .v1 => free && (rd e.vrun 1 none).isNone
  | .m => true
  | .x0 => free && (rd e.xrun 0 none).isNone
  | .x1 => free && (rd e.xrun 1 none).isNone

/-- The op leaves its queue, occupies its unit and sets its tag (R61, R63). -/
def issued (s : State) (beats : Nat) (tag : Option (BitVec 3)) : State :=
  modCurE s fun e =>
    { e with
      slotQ := wr e.slotQ (slotNum s.cur.slot) ((slotQ e s.cur.slot).drop 1)
      unitFree := wr e.unitFree (slotNum s.cur.slot) (s.now + beats)
      tags := match tag with
        | some n => setBit e.tags n.toNat true
        | none => e.tags }

/-- The executing op issues again after a stop (R247). -/
def issuesAgain (s : State) : Bool := ((slotQ (curE s) s.cur.slot).head?.bind (·.again)).isSome

/-- Issues an op: nothing until its unit is free and its consume tags are clear; then its field checks, the faults its body finds,
its wait conditions, and its effect (R61, R82, R83). -/
def slotIssue (s : State) (tagw : BitVec 8) (taga : BitVec 4) (unitOk fieldsOk : Bool)
    (body : State → Option (BitVec 3) → Iss) : Out :=
  if !streamRuns s s.cur.core || !unitReady s s.cur.core s.cur.slot || !unitOk ||
      (decide ((curE s).tags &&& tagw ≠ 0) && !issuesAgain s) then .next s
  else if !(tagaOk taga && fieldsOk) then .next (slotFault s (class0 s.cur.slot 1) 0 0 0)
  else
    match body s (tagOf taga) with
    | .fault c a d0 d1 => .next (slotFault s c a d0 d1)
    | .wait => .next s
    | .go s' n => if tagSet (curE s) (tagOf taga) && !issuesAgain s then .next s else .next (issued s' n (tagOf taga))

/-! ### Banks (R195, R250) -/

/-- The banks that hold `n` bytes from an offset. -/
def banksOf (off n : Nat) : BitVec 16 :=
  if n = 0 then 0 else (List.range ((off + n - 1) / 128 + 1 - off / 128)).foldl (fun m i => setBit m ((off / 128 + i) % 16) true) 0

/-- M accesses use banks of a core up to a cycle. -/
def holdBanks (s : State) (core last : Nat) (b : BitVec 16) : State := s.modE core fun e => { e with mBusy := (last, b) :: e.mBusy }

/-- The first cycle in which the unit of an op that completes now is free: the next, or, on a core that stands still, the stop
boundary, from which times are counted on resumption (R299). -/
def freedAt (s : State) (core : Nat) : Nat :=
  match (s.core core).stop.bind (·.at_) with
  | some b => min b (s.now + 1)
  | none => s.now + 1

/-- The banks of a scratchpad that pieces use. -/
def pieceBanks (ps : List Piece) : BitVec 16 :=
  ps.foldl (fun m p => match p.loc with
    | .scratch off => m ||| banksOf off p.len
    | _ => m) 0

/-- Accesses of this cycle use some of the banks. -/
def banksUsed (s : State) (busy : List (Nat × BitVec 16)) (banks : BitVec 16) : Bool :=
  busy.any fun b => decide (s.now ≤ b.1) && banks &&& b.2 != 0

/-- An M access of this cycle uses a bank that a slot access needs, so the slot waits (R195). -/
def bankHeld (s : State) (ps : List Piece) : Bool :=
  let busy := (curE s).mBusy
  !busy.isEmpty && banksUsed s busy (pieceBanks ps)

/-- The banks that slot accesses of the executing op use in this cycle. -/
def useBanks (s : State) (ps : List Piece) : State :=
  let b := pieceBanks ps
  if b = 0 then s else modCurE s fun e => { e with xBusy := (s.now, b) :: e.xBusy }

/-- M and slot accesses of this cycle leave the banks of a core to a copy or a gather (R195). -/
def leftOver (s : State) (core : Nat) (banks : BitVec 16) : Bool :=
  let e := (s.core core).e
  !banksUsed s e.mBusy banks && !banksUsed s e.xBusy banks

/-! ### Writing results (EXPOSED_RESULT_LANDS, FEEDBACK_WRITE, SNAPSHOT_ENTRY_LANDS) -/

/-- One distance under the probe metrics (R41, R173): the accumulator with a contribution. -/
def probeAdd (add mx : Nat → Nat → Nat) (acc : BitVec 32) (zero l1 : Bool) (v : BitVec 32) : BitVec 32 :=
  let a := if zero then 0 else acc.toNat
  BitVec.ofNat 32 (if l1 then add a v.toNat else mx a v.toNat)

/-- A queue with a row more. -/
def pushRow (e : Engine) (n : Nat) (row : V4096) : Engine := { e with oq := wr e.oq n (rd e.oq n [] ++ [row]) }

/-- Writes an SFB's value to a feedback register: valid, or overrun when it was valid already (R70). -/
def fbWrite (g : GenCtx) (n : Nat) (v : W64) : GenCtx :=
  let f := rd g.fb n {}
  { g with fb := wr g.fb n { val := v, valid := true, overrun := f.overrun || f.valid } }

end Sys2Proof.Machine
end

