-- ==== Sys2Proof/Machine/Expand.lean ====
section
/-! DEFINITION. The expander (R57 to R60, R74, R75, R102) and the landing of results in flight (R62, R70, R299). -/

namespace Sys2Proof.Machine

/-! ### Bundles -/

/-- Bundle bits [lo + n - 1 : lo] (R73). -/
def bfield (b : BitVec 384) (lo n : Nat) : Nat := bits b lo n

/-- A bundle with the patches of its entry applied (R58). -/
def patchBundle (b : BitVec 384) (e : EmitEntry) : BitVec 384 :=
  let present (i : Nat) : Bool := bitAt b (4 + i)
  let put (b : BitVec 384) (lane lo n : Nat) (ok : Bool) : BitVec 384 :=
    if bitAt e.pmask lane && ok then setBits b lo n (rd e.pval lane 0).toNat else b
  put (put (put (put b 0 360 24 true) 1 52 12 (present 0)) 2 267 20 (present 4)) 3 323 20 (present 5)

/-- A header that step 4 of R75 refuses. -/
def headerBad (b : BitVec 384) : Bool :=
  let src := bfield b 16 3
  let reg := bfield b 19 6
  let imm := bfield b 360 24
  bfield b 25 7 != 0 || src == 6 || src == 7 || (src == 4 && decide (16 ≤ reg)) ||
    (reg != 0 && (src == 0 || src == 1 || src == 2 || src == 5)) ||
    (imm != 0 && (src == 0 || src == 3 || src == 4 || src == 5)) ||
    (List.range 6).any fun i => bitAt b (10 + i) && !bitAt b (4 + i)

/-- The first bit and width of a slot's field (R73). -/
def slotSpan : Slot → Nat × Nat
  | .s => (32, 48)
  | .v0 => (80, 64)
  | .v1 => (144, 64)
  | .m => (208, 40)
  | .x0 => (248, 56)
  | .x1 => (304, 56)

/-- The first patch value of an entry; 0 when it has none (R65). -/
def firstPatch (e : EmitEntry) : W64 :=
  match (List.range 4).find? (bitAt e.pmask) with
  | some i => rd e.pval i 0
  | none => 0

/-- What the ops of a patched bundle keep of it. -/
def bundleInfo (b : BitVec 384) (e : EmitEntry) : BInfo :=
  { ctx := e.ctx, eseq := e.eseq, gpc := e.gpc, index := e.index, prof := BitVec.ofNat 4 (bfield b 0 4),
    pres := BitVec.ofNat 6 (bfield b 4 6), align := BitVec.ofNat 6 (bfield b 10 6), bcsrc := BitVec.ofNat 3 (bfield b 16 3),
    bcreg := BitVec.ofNat 6 (bfield b 19 6), bcimm := BitVec.ofNat 24 (bfield b 360 24), patch := firstPatch e }

/-- Every op of a context that has still to issue sees a format-register write: those in the slot queues, and the bundle that is
placed with those after it (R24). -/
def fmOld (x : Engine) (ctx : Ctx) (seq : BitVec 32) (w : FmWrite) : Bool :=
  w.ctx == ctx && seqLe w.eseq (seq - 4) &&
    slots.all fun sl => (slotQ x sl).all fun o => o.info.ctx != ctx || seqLe w.eseq (o.info.eseq - 4)

/-- Settled writes without those that a later settled write of the register follows. -/
def dropSettled : List FmWrite → List FmWrite
  | [] => []
  | w :: r =>
    if w.settled && r.any fun x => x.settled && x.ctx == w.ctx && x.n == w.n then dropSettled r else w :: dropSettled r

/-- Format-register writes that every later reader sees are settled, so that their numbers are compared no more (R24, R56). -/
def settleFm (x : Engine) (ctx : Ctx) (seq : BitVec 32) : Engine :=
  { x with fmPend := dropSettled (x.fmPend.map fun w => if fmOld x ctx seq w then { w with settled := true } else w) }

/-- Bundles placed in the slot queues: 2 cycles later, issuing no earlier than the cycle after (R59, R60). -/
def appendOps (s : State) (n : Nat) (b : BitVec 384) (e : EmitEntry) : State :=
  s.modE n fun x =>
    let x := settleFm x e.ctx e.eseq
    { x with slotQ := slots.foldl (fun q sl =>
        if bitAt b (4 + slotNum sl) then
          let sp := slotSpan sl
          wr q (slotNum sl) (rd q (slotNum sl) [] ++
            [{ bits := w64 (bfield b sp.1 sp.2), info := bundleInfo b e, notBefore := s.now + 3 }])
        else q) x.slotQ }

/-! ### Taking an entry (R57, R59, R60) -/

/-- A user bundle is held back: its number is 16 or more past the smallest position (R60). -/
def slipHeld (c : Core) (e : EmitEntry) : Bool :=
  e.ctx == .user && slots.any fun sl => let d := (e.eseq - position c sl).toNat; decide (16 ≤ d ∧ d < 2 ^ 31)

/-- A queue the bundle needs is full (R60). -/
def queueFull (c : Core) (b : BitVec 384) : Bool :=
  slots.any fun sl => bitAt b (4 + slotNum sl) && decide (16 ≤ (slotQ c.e sl).length)

/-- The entry the expander would take next (R57). What uses up the firmware context's share here are the entries that the expander has taken
for it in the window, counted apart from its use of the issue port (DESIGN CHOICE, see assumption 108). -/
def nextEntry (c : Core) : Option EmitEntry :=
  let f := c.e.emitQ.find? (·.ctx = .firmware)
  let u := c.e.emitQ.find? (·.ctx = .user)
  match f, u with
  | some f, some u => if c.fwExpUsed < 16 * c.fwShare.toNat then some f else some u
  | some f, none => some f
  | none, u => u

/-- The emit queue without the first entry of a context. -/
def dropEntry (x : Ctx) : List EmitEntry → List EmitEntry
  | [] => []
  | e :: r => if e.ctx = x then r else e :: dropEntry x r

/-- The dictionary cache with a bundle used or entered: first of its set, the fifth of a set dropped (R59). -/
def cachePut (d : List ((Ctx × BitVec 16) × BitVec 384)) (i : Ctx × BitVec 16) (b : BitVec 384) :
    List ((Ctx × BitVec 16) × BitVec 384) :=
  let same := d.filter fun p => p.1 != i && p.1.2.toNat % 256 == i.2.toNat % 256
  let rest := d.filter fun p => p.1.2.toNat % 256 != i.2.toNat % 256
  (i, b) :: same.take 3 ++ rest

/-- The core takes no new entry: it has stopped before this cycle (R295, R303). -/
def expanderRuns (s : State) (n : Nat) : Bool :=
  let c := s.core n
  c.dmiss.isNone && streamRuns s n

/-- A fault at expansion: SRC 6 with the patched header, or SRC 7 (R301). A fault that a stopped core would meet is raised when the
bundle is expanded again. An entry of the firmware context is given up (assumption 97). -/
def expandFault (s : State) (n : Nat) (e : EmitEntry) (src : Nat) (cause : BitVec 9) (b : BitVec 384) : State :=
  let s := if e.ctx = .firmware then s.modE n fun x => { x with emitQ := dropEntry .firmware x.emitQ } else s
  raise s n
    { src := src, cause := cause, levelE := true, async := false, pv := true, ctx := e.ctx, gpc := e.gpc, index := e.index,
      opbits := if src = 6 then w64 (bfield b 0 32 + bfield b 360 24 * 2 ^ 32) else 0, eseq := some e.eseq }

/-- The profile of an expanded bundle, noted for its RUN's manifest entry (R397). -/
def noteProf (s : State) (n : Nat) (e : EmitEntry) (prof : Nat) : State :=
  match e.ctx, s.taskOn n with
  | .user, some t => s.modRun t.run fun r => { r with profs := setBit r.profs prof true }
  | _, _ => s

/-- Checks a resolved bundle and places its ops; the entry is already out of the queue, and goes back when a check fails. -/
def placeBundle (s : State) (n : Nat) (e : EmitEntry) (raw : BitVec 384) : State :=
  let b := patchBundle raw e
  let back (s : State) : State := s.modE n fun x => { x with emitQ := e :: x.emitQ }
  let fail (cause : BitVec 9) : State :=
    if streamRuns s n then expandFault (back s) n e 6 cause b else back s
  if 4 ≤ bfield b 0 4 then fail 0x035
  else if headerBad b then fail 0x031
  else noteProf (appendOps s n b e) n e (bfield b 0 4)

/-- The state without an entry that the expander takes, and its share counted (R47, R57). -/
def takeEntry (s : State) (n : Nat) (e : EmitEntry) : State :=
  s.modCore n fun c =>
    { c with e := { c.e with emitQ := dropEntry e.ctx c.e.emitQ }
             fwExpUsed := if e.ctx = .firmware then c.fwExpUsed + 1 else c.fwExpUsed }

/-- The dictionary entry that a core was reading is lost (R85, R307): it is not expanded and goes back to the emit queue, and 0x149 is
raised at level E with SRC 7; an entry of the firmware context is given up, as at its other faults (assumption 97). -/
def loseEntry (s : State) (n : Nat) (e : EmitEntry) : State :=
  let s := (s.modCore n fun c => { c with dmiss := none }).modE n fun x => { x with emitQ := e :: x.emitQ }
  if streamRuns s n then expandFault s n e 7 0x149 0 else s

/-- EXPAND_BUNDLE (R57 to R60, R75): the expander takes at most one entry of a cycle. A bundle that R60 holds back is checked when the hold
ends (DESIGN CHOICE, see assumption 109). -/
def execExpandBundle (core : Nat) (s : State) : Out :=
  let c := s.core core
  match (if expanderRuns s core then nextEntry c else none) with
  | none => .next s
  | some e =>
    if slipHeld c e then .next s
    else
      match e.lit with
      | some b => if queueFull c b then .next s else .next (placeBundle (takeEntry s core e) core e b)
      | none =>
        if (dictOf c e.ctx).2 ≤ e.index.toNat then .next (expandFault s core e 7 0x03A 0)
        else
          match c.dcache.lookup (e.ctx, e.index) with
          | some b =>
            if queueFull c b then .next s
            else
              let s := s.modCore core fun c => { c with dcache := cachePut c.dcache (e.ctx, e.index) b }
              .next (placeBundle (takeEntry s core e) core e b)
          | none => .next ((takeEntry s core e).modCore core fun c => { c with dmiss := some { entry := e, readyAt := s.now + 16 } })

/-- DICTIONARY_MISS_FILL (R59, R85): after 16 cycles the 48 bytes are read and cached, and the expander goes on; an entry whose bytes are lost
is not expanded. -/
def execDictionaryMissFill (core : Nat) (s : State) : Out :=
  let c := s.core core
  match c.dmiss with
  | none => .next s
  | some d =>
    let b := readEntry c d.entry
    if s.now < d.readyAt ∨ queueFull c b then .next s
    else if (lostKind s (.loft core) ((dictOf c d.entry.ctx).1 + 48 * d.entry.index.toNat) 48).isSome then .next (loseEntry s core d.entry)
    else
      let s := s.modCore core fun c => { c with dmiss := none, dcache := cachePut c.dcache (d.entry.ctx, d.entry.index) b }
      .next (placeBundle s core d.entry b)

/-! ### Landing -/

/-- A FADD for the probe's accumulator (R41). -/
def probeSum (a b : Nat) : Nat := addRound fp32 .rne a b

/-- The greater of two distances, NaN if either is (R41). -/
def probeMax (a b : Nat) : Nat := maxF fp32 a b

/-- Writes one register of a core (R62). -/
def applyWrite (s : State) (n : Nat) (w : RegWrite) : State :=
  match w with
  | .s i v => s.modE n fun e => sSet e i v
  | .q i b => s.modE n fun e => qSet e i b
  | .v i val bytes => s.modE n fun e => vSet e i val bytes
  | .vbits i val b => s.modE n fun e => { e with v := wr e.v i ((vReg e i &&& ~~~b) ||| (val &&& b)) }
  | .m i val sel => s.modE n fun e => mSet e i val sel
  | .ma i v => s.modE n fun e => { e with ma := wr e.ma i v }
  | .ch i f v => s.modE n fun e => let c := rd e.ch i {}; { e with ch := wr e.ch i { c with prog := wr c.prog f v } }
  | .fb x i v => s.modG n x fun g => fbWrite g i v
  | .probe z l1 v => s.modE n fun e => { e with probe := probeAdd probeSum probeMax e.probe z l1 v }
  | .oq i row => s.modE n fun e => pushRow e i row
  | .bind b => s.modE n fun e => if e.bindings.contains b then e else { e with bindings := e.bindings ++ [b] }
  | .batch i c a b => s.modE n fun e => { e with f := wr e.f i { rd e.f i {} with coord := c, posA := a, posB := b } }
  | .unbind o => s.modE n fun e =>
      { e with bindings := match o with | none => [] | some x => e.bindings.filter fun b => b.obj ≠ x }

/-- Writes the registers of one result and clears its tag (R62, R63). -/
def applyLanding (s : State) (n : Nat) (ws : List RegWrite) (tag : Option (BitVec 3)) : State :=
  let s := ws.foldl (fun s w => applyWrite s n w) s
  match tag with
  | none => s
  | some t => s.modE n fun e => { e with tags := setBit e.tags t.toNat false }

/-- A result that goes to a feedback register. -/
def isFeedback (l : Landing) : Bool :=
  l.writes.any fun w => match w with | .fb .. => true | _ => false

/-- A result placed among results in the order in which their writes apply: by landing cycle, then by issue (R62). -/
def insertLanding (l : Landing) : List Landing → List Landing
  | [] => [l]
  | x :: r => if l.at_ < x.at_ ∨ (l.at_ = x.at_ ∧ l.seq < x.seq) then l :: x :: r else x :: insertLanding l r

/-- Results in the order in which their writes apply. -/
def sortLandings : List Landing → List Landing
  | [] => []
  | l :: r => insertLanding l (sortLandings r)

/-- Writes the results of a core that become readable in the next cycle, of those that `which` selects. -/
def landDue (s : State) (n : Nat) (which : Landing → Bool) : State :=
  let due (l : Landing) : Bool := decide (l.at_ ≤ s.now + 1) && which l
  let ls := (s.core n).e.landings
  let s := s.modE n fun e => { e with landings := ls.filter fun l => !due l }
  (sortLandings (ls.filter due)).foldl (fun s l => applyLanding s n l.writes l.tag) s

/-- EXPOSED_RESULT_LANDS (R62, R63): at the end of a cycle, the results readable from the next are written. -/
def execExposedResultLands (core : Nat) (s : State) : Out := .next (landDue s core fun l => !isFeedback l)

/-- FEEDBACK_WRITE (R70). -/
def execFeedbackWrite (core : Nat) (s : State) : Out := .next (landDue s core isFeedback)

/-- SNAPSHOT_ENTRY_LANDS (R299): entries write their destinations at the end of cycle e + REM - 1, where e is the first cycle of
issue after resumption, as long as the core has not come to the boundary of a later stop, which takes them over (R298); they rank by
their issue before the stop, and before every later op. -/
def execSnapshotEntryLands (core : Nat) (s : State) : Out :=
  let c := s.core core
  let due (x : SnapEntry) : Bool := decide ((c.stop.bind (·.at_)).isNone ∧ c.e.resumed + x.rem ≤ s.now + 1)
  let ls := c.e.snapshot
  let s := s.modE core fun e => { e with snapshot := ls.filter fun x => !due x }
  let sorted := sortLandings ((ls.filter due).map fun x => { at_ := x.rem, seq := x.seq, writes := x.writes, tag := x.tag })
  .next (sorted.foldl (fun s l => applyLanding s core l.writes l.tag) s)

end Sys2Proof.Machine
end

