-- ==== Sys2Proof/Machine/Flags.lean ====
section
/-! DEFINITION. The conditions that compares compute (R110, R141, R153) and the saturations of integer results. -/

namespace Sys2Proof.Machine

/-- The condition of a code on two 64-bit values (R110): 0 EQ, 1 NE, 2 LT, 3 GE signed, 4 LT, 5 GE unsigned, 6 ANY, 7 NONE. -/
def cond64 (cc : Nat) (a b : W64) : Bool :=
  match cc with
  | 0 => a == b
  | 1 => a != b
  | 2 => a.slt b
  | 3 => !a.slt b
  | 4 => a.ult b
  | 5 => !a.ult b
  | 6 => a &&& b != 0
  | _ => a &&& b == 0

/-- The value of an integer clamped to a range. -/
def clampInt (lo hi v : Int) : Int := if v < lo then lo else if hi < v then hi else v

/-- The least and greatest value of a lane type (R20). -/
def laneRange (signed : Bool) (w : Nat) : Int × Int :=
  if signed then (-(2 ^ (w - 1) : Nat), (2 ^ (w - 1) - 1 : Nat)) else (0, (2 ^ w - 1 : Nat))

end Sys2Proof.Machine
end

