-- ==== Sys2Proof/Machine/Generator.lean ====
section
/-! DEFINITION. The generator: issue, completion and waiting (R103 to R106), fetch (R94), arithmetic, compares, branches, loops,
registers and the system instructions (R108 to R114, R121, R123, R134 to R137). -/

namespace Sys2Proof.Machine

/-- The generator context that executes. -/
def curG (s : State) : GenCtx := (s.core s.cur.core).gctx s.cur.ctx

/-- The state with the executing context changed. -/
def modCurG (s : State) (f : GenCtx → GenCtx) : State := s.modG s.cur.core s.cur.ctx f

/-- Raises a level-G fault at the executing instruction, which changes nothing (R106, R293). A fault of the firmware context is
reported to the bay's fault log as 0x178 (R293). -/
def genFault (s : State) (cause : BitVec 9) (addr det0 det1 : W64) : State :=
  let n := s.cur.core
  let g := curG s
  match s.cur.ctx with
  | .firmware => firmwareFault s n cause addr det1
  | .user =>
    raise s n { src := 8, cause := cause, levelE := false, async := false, hm := g.handler, gpc := g.pc, opbits := s.cur.bits,
                addr := addr, det0 := det0, det1 := det1 }

/-- Raises the fault that the access checks found. -/
def genAErr (s : State) (e : AErr) : State := genFault s e.cause e.addr e.det0 e.det1

/-- The core's own part of whether a generator context may issue: the user context needs a task and a core that is not stopped
before this cycle, or a handler that runs (R295, R302); the firmware context a core in service whose image is not being replaced (R391,
R393); either needs power and an island that is not being recalibrated (R394). -/
def coreRuns (s : State) (n : Nat) (x : Ctx) : Bool :=
  let c := s.core n
  rd s.powered (n / 160) false && unstalled c s.now &&
    (if x == .firmware then !c.offline && c.fwNext.isNone
     else
      (decide (c.e.resumed ≤ s.now) && ((s.taskOn n).any fun t => t.stat == .running && !(t.trets.any (·.1 == n))) && !c.restoring &&
        match c.stop with
        | none => true
        | some st =>
          (!st.reached && st.b == s.now && !(st.faults.any fun f => f.src == 8)) || (st.reached && c.e.user.handler && c.stopNext.isNone)))

/-- The executing context may issue an instruction that reads the g registers `rs` (R103): no earlier instruction may still fault
(R106; assumption 105). -/
def genReady (s : State) (rs : List Reg) : Bool :=
  let g := curG s
  coreRuns s s.cur.core s.cur.ctx && g.wait.isNone && !(g.loads.any (·.firm)) && rs.all fun r => !gPending g r

/-- Issues an instruction: it waits until it may issue; in handler mode one that R303 does not allow raises 0x06B. -/
def genIssue (s : State) (rs : List Reg) (inHandler : Bool) (body : State → Out) : Out :=
  if !genReady s rs then .next s
  else if !inHandler && (curG s).handler then .next (genFault s 0x06B 0 0 0)
  else body s

/-- The loop-end check of R53 for the address `a`, over the active loops from the innermost; the program counter already stands at
the next instruction. -/
def loopEnd (a : BitVec 48) : List Nat → GenCtx → GenCtx
  | [], g => g
  | n :: r, g =>
    let l := rd g.lp n {}
    if a ≠ l.lstop then g
    else if l.count.toNat ≤ 1 then
      loopEnd a r { g with lp := wr g.lp n { l with count := 0, active := false }, nest := g.nest.filter (· != n) }
    else { g with lp := wr g.lp n { l with count := l.count - 1 }, pc := l.lstart }

/-- The context after an instruction of `len` bytes completes without branching. -/
def advance (g : GenCtx) (len : Nat) : GenCtx :=
  let g' := { g with pc := g.pc + BitVec.ofNat 48 len }
  if g.handler then g' else loopEnd g.pc g.nest g'

/-- Completes an instruction of `len` bytes that changed `before` into `after`: the program counter advances, or a loop takes it
back (R53). A loop that would take it to a misaligned address faults instead, and the instruction has changed nothing (R95). -/
def genDone (before after : State) (len : Nat) : State :=
  let g := advance (curG after) len
  if g.pc.toNat % 4 ≠ 0 then genFault before 0x060 0 0 0 else modCurG after fun _ => g

/-- Transfers control to an address; a misaligned one raises 0x060 at the instruction (R95). A transfer makes no loop-end check
(R53). -/
def genJump (before after : State) (pc : BitVec 48) : State :=
  if pc.toNat % 4 ≠ 0 then genFault before 0x060 0 0 0 else modCurG after fun g => { g with pc := pc }

/-- An instruction that reads `rs`, has an effect on its context and completes. -/
def genPlain (s : State) (rs : List Reg) (len : Nat) (f : GenCtx → GenCtx) : Out :=
  genIssue s rs true fun s => .next (genDone s (modCurG s f) len)

/-- gD ← f(gA, gB) (R108). -/
def genRRR (s : State) (d a b : Reg) (f : W64 → W64 → W64) : Out :=
  genPlain s [a, b] 4 fun g => gSet g d (f (gReg g a) (gReg g b))

/-- gD ← f(gA, imm) (R108). -/
def genRI (s : State) (d a : Reg) (imm : W64) (f : W64 → W64 → W64) : Out :=
  genPlain s [a] 4 fun g => gSet g d (f (gReg g a) imm)

/-! ### Arithmetic and logic (R108, R109) -/

/-- High half of a signed product. -/
def mulHigh (a b : W64) : W64 := BitVec.ofInt 64 (a.toInt * b.toInt / 2 ^ 64)

/-- High half of an unsigned product. -/
def mulHighU (a b : W64) : W64 := w64 (a.toNat * b.toNat / 2 ^ 64)

/-- GDIV's quotient, toward zero (R108). -/
def divS (a b : W64) : W64 := if b = 0 then BitVec.allOnes 64 else BitVec.ofInt 64 (Int.tdiv a.toInt b.toInt)

/-- GREM's remainder, with the sign of a (R108). -/
def remS (a b : W64) : W64 := if b = 0 then a else BitVec.ofInt 64 (Int.tmod a.toInt b.toInt)

/-- GDIVN's quotient (R108). -/
def divU (a b : W64) : W64 := if b = 0 then BitVec.allOnes 64 else w64 (a.toNat / b.toNat)

/-- GREMN's remainder (R108). -/
def remU (a b : W64) : W64 := if b = 0 then a else w64 (a.toNat % b.toNat)

/-- Signed minimum. -/
def minS (a b : W64) : W64 := if b.slt a then b else a

/-- Signed maximum. -/
def maxS (a b : W64) : W64 := if a.slt b then b else a

/-- GADD (R108). -/
def execGadd (d a b : Reg) (s : State) : Out := genRRR s d a b (· + ·)
/-- GSUB (R108). -/
def execGsub (d a b : Reg) (s : State) : Out := genRRR s d a b (· - ·)
/-- GMUL (R108). -/
def execGmul (d a b : Reg) (s : State) : Out := genRRR s d a b (· * ·)
/-- GMULH (R108). -/
def execGmulh (d a b : Reg) (s : State) : Out := genRRR s d a b mulHigh
/-- GMULHN (R108). -/
def execGmulhn (d a b : Reg) (s : State) : Out := genRRR s d a b mulHighU
/-- GDIV (R108). -/
def execGdiv (d a b : Reg) (s : State) : Out := genRRR s d a b divS
/-- GDIVN (R108). -/
def execGdivn (d a b : Reg) (s : State) : Out := genRRR s d a b divU
/-- GREM (R108). -/
def execGrem (d a b : Reg) (s : State) : Out := genRRR s d a b remS
/-- GREMN (R108). -/
def execGremn (d a b : Reg) (s : State) : Out := genRRR s d a b remU
/-- GAND (R108). -/
def execGand (d a b : Reg) (s : State) : Out := genRRR s d a b (· &&& ·)
/-- GOR (R108). -/
def execGor (d a b : Reg) (s : State) : Out := genRRR s d a b (· ||| ·)
/-- GXOR (R108). -/
def execGxor (d a b : Reg) (s : State) : Out := genRRR s d a b (· ^^^ ·)
/-- GSHL: by gB[5:0] (R108). -/
def execGshl (d a b : Reg) (s : State) : Out := genRRR s d a b fun x y => x <<< (y.toNat % 64)
/-- GSHR: by gB[5:0], filling with zeros (R108). -/
def execGshr (d a b : Reg) (s : State) : Out := genRRR s d a b fun x y => x >>> (y.toNat % 64)
/-- GSRA: by gB[5:0], filling with a[63] (R108). -/
def execGsra (d a b : Reg) (s : State) : Out := genRRR s d a b fun x y => x.sshiftRight (y.toNat % 64)
/-- GMIN (R108). -/
def execGmin (d a b : Reg) (s : State) : Out := genRRR s d a b minS
/-- GMAX (R108). -/
def execGmax (d a b : Reg) (s : State) : Out := genRRR s d a b maxS
/-- GADDI (R108). -/
def execGaddi (d a : Reg) (imm : BitVec 15) (s : State) : Out := genRI s d a (sx imm) (· + ·)
/-- GANDI (R108). -/
def execGandi (d a : Reg) (imm : BitVec 15) (s : State) : Out := genRI s d a (sx imm) (· &&& ·)
/-- GORI (R108). -/
def execGori (d a : Reg) (imm : BitVec 15) (s : State) : Out := genRI s d a (sx imm) (· ||| ·)
/-- GXORI (R108). -/
def execGxori (d a : Reg) (imm : BitVec 15) (s : State) : Out := genRI s d a (sx imm) (· ^^^ ·)
/-- GSHLI (R108). -/
def execGshli (d a : Reg) (sh : BitVec 6) (s : State) : Out := genRI s d a (zx sh) fun x y => x <<< y.toNat
/-- GSHRI (R108). -/
def execGshri (d a : Reg) (sh : BitVec 6) (s : State) : Out := genRI s d a (zx sh) fun x y => x >>> y.toNat
/-- GSRAI (R108). -/
def execGsrai (d a : Reg) (sh : BitVec 6) (s : State) : Out := genRI s d a (zx sh) fun x y => x.sshiftRight y.toNat
/-- GLI: gD ← sext(W2) (R109). -/
def execGli (d : Reg) (w2 : BitVec 32) (s : State) : Out := genPlain s [] 8 fun g => gSet g d (sx w2)
/-- GLIH: gD[63:32] ← W2, gD[31:0] kept (R109). -/
def execGlih (d : Reg) (w2 : BitVec 32) (s : State) : Out :=
  genPlain s [d] 8 fun g => gSet g d (w64 ((gReg g d).toNat % 2 ^ 32 + w2.toNat * 2 ^ 32))

/-! ### Compares, prepared branches and jumps (R110 to R112) -/

/-- Writes the condition of a steer register and sets CV (R50). -/
def setCond (g : GenCtx) (k : BitVec 4) (c : Bool) : GenCtx :=
  { g with k := wr g.k k.toNat { rd g.k k.toNat {} with cv := true, c := c, busy := false } }

/-- Clears CV: a writer of the condition is in flight (R50). -/
def clearCond (g : GenCtx) (k : BitVec 4) : GenCtx :=
  { g with k := wr g.k k.toNat { rd g.k k.toNat {} with cv := false, busy := true } }

/-- GCMP (R110). -/
def execGcmp (k : BitVec 4) (cc : BitVec 3) (a b : Reg) (s : State) : Out :=
  genPlain s [a, b] 4 fun g => setCond g k (cond64 cc.toNat (gReg g a) (gReg g b))

/-- GCMPI (R110). -/
def execGcmpi (k : BitVec 4) (cc : BitVec 3) (a : Reg) (w2 : BitVec 32) (s : State) : Out :=
  genPlain s [a] 8 fun g => setCond g k (cond64 cc.toNat (gReg g a) (sx w2))

/-- Writes TARGET of a steer register and sets TV, and notes the cycle (R50, R51). -/
def setTarget (g : GenCtx) (k : BitVec 4) (now : Nat) (t : BitVec 48) : GenCtx :=
  { g with k := wr g.k k.toNat { rd g.k k.toNat {} with tv := true, target := t, prepAt := some now } }

/-- `n` cycles in which the context issues nothing follow this one (R51, R112). -/
def bubbles (s : State) (n : Nat) : State := modCurG s fun g => { g with readyAt := s.now + 1 + n }

/-- The bubbles of a taken branch: 3 less the cycles since its GPREP (R51). -/
def branchBubbles (s : State) (st : Steer) : Nat :=
  match st.prepAt with
  | some t => 3 - (s.now - t)
  | none => 0

/-- GBR and GBRF: branch when C equals `want` (R50). Of the two faults that one instruction can meet, 0x049 is raised (DESIGN CHOICE, see
assumption 94). -/
def genBranch (s : State) (k : BitVec 4) (want : Bool) : Out :=
  genIssue s [] true fun s =>
    let st := rd (curG s).k k.toNat {}
    if !st.cv then (if st.busy then .next s else .next (genFault s 0x049 0 0 0))
    else if !st.tv then .next (genFault s 0x04A 0 0 0)
    else if st.c = want then .next (genJump s (bubbles s (branchBubbles s st)) st.target)
    else .next (genDone s s 4)

/-- GBR (R112). -/
def execGbr (k : BitVec 4) (s : State) : Out := genBranch s k true
/-- GBRF (R112). -/
def execGbrf (k : BitVec 4) (s : State) : Out := genBranch s k false

/-- GJAL: gD ← PC + 8 and jump to PC + sext(W2), with two bubbles (R112). -/
def execGjal (d : Reg) (w2 : BitVec 32) (s : State) : Out :=
  genIssue s [] true fun s =>
    let pc := (curG s).pc
    .next (genJump s (bubbles (modCurG s fun g => gSet g d (zx (pc + 8))) 2) (pc + w2.signExtend 48))

/-- GJALR: gD ← PC + 4 and jump to gA[47:0], gA read first, with three bubbles (R112). -/
def execGjalr (d a : Reg) (s : State) : Out :=
  genIssue s [a] true fun s =>
    let g := curG s
    .next (genJump s (bubbles (modCurG s fun g => gSet g d (zx (g.pc + 4))) 3) ((gReg g a).setWidth 48))

/-! ### Fetch (R94, R254, R264) -/

/-- `n` bytes of one line of code through a core's instruction cache: from a cached line when it is still held, else from the line as
the point of coherence holds it, which is then cached (R46) and, in another package, leaves as a read (R373). How long a line is held is a free value (assumption 19); `again` is a line
that the same instruction has just read, which is held. -/
def codeRead (s : State) (core pa n : Nat) (again : Bool) : State × List Byte :=
  let ln := pa / 128
  let take (d : BitVec 1024) : List Byte := (List.range n).map fun i => BitVec.ofNat 8 (bits d (8 * (pa % 128 + i)) 8)
  let fill (s : State) : State × List Byte :=
    let s := sendRead s (ln * 128) 128 false
    let d := BitVec.ofNat 1024 (ofBytes (pocRead s (ln * 128) 128))
    (s.modCore core fun c => { c with icache := ((ln, d) :: c.icache.filter (·.1 != ln)).take 256 }, take d)
  match (s.core core).icache.lookup ln with
  | none => fill s
  | some d =>
    if again then (s, take d)
    else
      let (k, s) := s.bump
      if Config.icacheKeeps k then (s, take d) else fill s

/-- Reads `n` bytes of generator code with the right to execute. A shadowed task reads its code as its other data (R336). -/
def fetchBytes (s : State) (core : Nat) (pc n : Nat) (again : Bool) : State × (Nat ⊕ AErr) :=
  let k : Who := { core := some core, bay := s.bayOn core, kind := 0, exe := true, fw := decide (s.cur.ctx = .firmware) }
  match access s k (w64 pc) n 4 .uc with
  | (s, .bad e) => (s, .inr e)
  | (s, .ok ps) =>
    match readKind s (some core) ps with
    | some k => (s, .inr { cause := class2 0 k, addr := w64 pc })
    | none =>
      match ps with
      | [{ loc := .phys pa, .. }] => let (s, b) := codeRead s core pa n again; (s, .inl (ofBytes b))
      | _ => let (s, b) := readPieces s (some core) false none [] ps; (s, .inl (ofBytes b))

/-- Fetches the instruction at an address: its word, W2 above, when its opcode has one. -/
def fetch (s : State) (core : Nat) (pc : BitVec 48) : State × (Nat ⊕ AErr) :=
  match fetchBytes s core pc.toNat 4 false with
  | (s, .inr e) => (s, .inr e)
  | (s, .inl w) =>
    if genLength w = 4 then (s, .inl w)
    else
      match fetchBytes s core (pc + 4).toNat 4 (decide ((pc + 4).toNat % 128 ≠ 0)) with
      | (s, .inr e) => (s, .inr e)
      | (s, .inl w2) => (s, .inl (w + w2 * 2 ^ 32))

/-- Starts the fetch at a prepared target: its word comes into the instruction cache, as it stands in this cycle (R50). A fetch that
would fault is dropped: only the branch that takes the target reports it. -/
def prefetch (s : State) (core : Nat) (pc : BitVec 48) : State :=
  match fetchBytes s core pc.toNat 4 false with
  | (s, .inl _) => s
  | (_, .inr _) => s

/-- GPREP: writes TARGET, sets TV and starts the fetch there (R50, R111). -/
def genPrep (s : State) (rs : List Reg) (k : BitVec 4) (target : GenCtx → BitVec 48) : Out :=
  genIssue s rs true fun s =>
    let t := target (curG s)
    .next (genDone s (prefetch (modCurG s fun g => setTarget g k s.now t) s.cur.core t) 8)

/-- GPREP relative to the program counter (R111). -/
def execGprepPc (k : BitVec 4) (w2 : BitVec 32) (s : State) : Out := genPrep s [] k fun g => g.pc + w2.signExtend 48

/-- GPREP relative to gA (R111). -/
def execGprepReg (k : BitVec 4) (a : Reg) (w2 : BitVec 32) (s : State) : Out :=
  genPrep s [a] k fun g => (gReg g a + sx w2).setWidth 48

/-! ### Hardware loops (R113, R114) -/

/-- Starts a loop, or goes on after its last instruction when the count is 0; the three faults in their order (R113). With a count of 0
no loop-end check is made, neither for the GLOOP's own address nor for the end it passes over; and an end that is no multiple of 4,
which takes control to a misaligned address whatever the length there (R95), raises 0x060 with no fetch of that length (DESIGN CHOICE, see
assumption 25). -/
def startLoop (s : State) (n : Nat) (count : BitVec 32) (start stop : BitVec 48) (setArch : Bool) : Out :=
  let g := curG s
  let l := rd g.lp n {}
  if 4 ≤ g.nest.length then .next (genFault s 0x050 0 0 0)
  else if l.active then .next (genFault s 0x052 0 0 0)
  else if stop.toNat < start.toNat then .next (genFault s 0x051 0 0 0)
  else
    let l := if setArch then { l with start := start, stop := stop } else l
    if count = 0 ∧ stop.toNat % 4 ≠ 0 then .next (genFault s 0x060 0 0 0)
    else if count = 0 then
      let after := modCurG s fun g => { g with lp := wr g.lp n { l with count := 0, lstart := start, lstop := stop } }
      match fetchBytes after s.cur.core stop.toNat 4 false with
      | (_, .inr e) => .next (genAErr s e)
      | (after, .inl w) => .next (genJump s after (stop + BitVec.ofNat 48 (genLength w)))
    else
      .next (genDone s (modCurG s fun g =>
        { g with lp := wr g.lp n { l with count := count, active := true, lstart := start, lstop := stop }, nest := n :: g.nest }) 8)

/-- GLOOP, explicit form (R113). -/
def execGloop (n : BitVec 2) (a : Reg) (w2 : BitVec 32) (s : State) : Out :=
  genIssue s [a] false fun s =>
    let g := curG s
    startLoop s n.toNat ((gReg g a).setWidth 32) (g.pc + 8) (g.pc + w2.signExtend 48) true

/-- GLOOP.RE (R113). -/
def execGloopRe (n : BitVec 2) (a : Reg) (s : State) : Out :=
  genIssue s [a] false fun s =>
    let g := curG s
    let l := rd g.lp n.toNat {}
    startLoop s n.toNat ((gReg g a).setWidth 32) l.start l.stop false

/-- GLPGET (R114). -/
def execGlpget (d : Reg) (n f : BitVec 2) (s : State) : Out :=
  genPlain s [] 4 fun g =>
    let l := rd g.lp n.toNat {}
    gSet g d (if f = 0 then zx l.count else if f = 1 then zx l.start else if f = 2 then zx l.stop else if l.active then 1 else 0)

/-- GLPSET (R54, R114). -/
def execGlpset (n f : BitVec 2) (a : Reg) (s : State) : Out :=
  genIssue s [a] false fun s =>
    let v := gReg (curG s) a
    if f = 3 ∧ bitAt v 0 then .next (genFault s 0x053 0 0 0)
    else
      .next (genDone s (modCurG s fun g =>
        let l := rd g.lp n.toNat {}
        let put (l : Loop) : GenCtx := { g with lp := wr g.lp n.toNat l }
        if f = 0 then put { l with count := v.setWidth 32 }
        else if f = 1 then put { l with start := v.setWidth 48 }
        else if f = 2 then put { l with stop := v.setWidth 48 }
        else { put { l with active := false } with nest := g.nest.filter (· != n.toNat) }) 4)

/-! ### Waiting (R104, R105) -/

/-- What testing a waiting instruction's condition answers. -/
inductive Try where
  /-- the condition does not hold -/
  | notYet
  /-- the instruction has its effect in this state, and completes -/
  | done (s : State)
  /-- the instruction faults and does not complete -/
  | fault (s : State)
  deriving DecidableEq, Repr

/-- The timeout of a wait: gB, or MLT_TMO when gB is g0 (R104). -/
def waitTime (g : GenCtx) (b : Reg) : W64 := if b = 0 then g.tmo else gReg g b

/-- Ends a wait by a fault: the instruction has changed no state, so its steer register is again what it was (R106). -/
def faultWaiting (s : State) : State :=
  modCurG s fun g =>
    { g with wait := none
             k := match g.wait.bind (·.steer) with
               | some (n, st) => wr g.k n st
               | none => g.k }

/-- Ends a wait: the instruction completes and the program counter advances. -/
def endWait (before after : State) (len : Nat) : State :=
  let after := modCurG after fun g => { g with wait := none }
  genDone (faultWaiting before) after len

/-- The expiry of a wait: C = 0 in its steer register and nothing else (R104). -/
def expireWait (s : State) (k : BitVec 4) : State := endWait s (modCurG s fun g => setCond g k false) 4

/-- A waiting instruction of steer register `k` at issue: CV is cleared, the condition is tested in the issue cycle, and a
timeout of 0 expires at once (R50, R104). `test` writes C itself on success. -/
def startWait (s : State) (i : Instr) (k : BitVec 4) (t : W64) (note : Nat) (test : State → GenWait → Try) : Out :=
  let (m, s') := s.bump
  let w : GenWait := { instr := i, since := s.now, timeout := t, mark := m, note := note,
                       steer := some (k.toNat, rd (curG s).k k.toNat {}) }
  let s' := modCurG s' fun g => { clearCond g k with wait := some w }
  match test s' w with
  | .done a => .next (endWait s' a 4)
  | .fault a => .next (faultWaiting a)
  | .notYet => if t = 0 then .next (expireWait s' k) else .next s'

/-- The timeout of a wait has run out. -/
def waitExpired (s : State) (w : GenWait) : Bool := w.timeout != BitVec.allOnes 64 && decide (w.since + w.timeout.toNat ≤ s.now)

/-! ### Feedback and step registers (R123) -/

/-- GFB's condition and effect. -/
def tryGfb (k : BitVec 4) (n : BitVec 3) (a : Reg) (s : State) (_ : GenWait) : Try :=
  let f := rd (curG s).fb n.toNat {}
  if !f.valid then .notYet
  else .done (modCurG s fun g =>
    setCond { gSet g a f.val with fb := wr g.fb n.toNat { rd g.fb n.toNat {} with valid := false } } k true)

/-- GFB (R123). -/
def execGfb (k : BitVec 4) (n : BitVec 3) (a b : Reg) (s : State) : Out :=
  genIssue s [b] false fun s => startWait s (.gfb k n a b) k (waitTime (curG s) b) 0 (tryGfb k n a)

/-- The step registers of the task on a core. -/
def stepRegs (s : State) (n : Nat) : Vector W64 16 := ((s.taskOn n).map (·.ms)).getD (Vector.replicate 16 0)

/-- GMS (R123). -/
def execGms (d : Reg) (n : BitVec 4) (s : State) : Out :=
  genPlain s [] 4 fun g => gSet g d (rd (stepRegs s s.cur.core) n.toNat 0)

/-! ### Compose registers (R121) -/

/-- A CLDD's reply is still to come, so the compose registers wait (R103). -/
def composePending (g : GenCtx) : Bool := g.loads.any fun l => l.dest = .compose

/-- CSET (R121). -/
def execCset (n : BitVec 3) (a : Reg) (s : State) : Out :=
  if composePending (curG s) then .next s
  else genPlain s [a] 4 fun g => { g with c := wr g.c n.toNat (gReg g a) }

/-- CGET (R121). -/
def execCget (d : Reg) (n : BitVec 3) (s : State) : Out :=
  if composePending (curG s) then .next s
  else genPlain s [] 4 fun g => gSet g d (rd g.c n.toNat 0)

/-- CLDD: 48 bytes of a dictionary entry from the Loft (R121). -/
def execCldd (idx : BitVec 16) (s : State) : Out :=
  if composePending (curG s) then .next s
  else genIssue s [] false fun s =>
    let g := curG s
    if g.dlen ≤ idx.toNat then .next (genFault s 0x05B 0 0 0)
    else
      let v := ofBytes (memRead (s.core s.cur.core).loft (g.dbase.toNat + 48 * idx.toNat) 48)
      let (id, s') := s.bump
      .next (genDone s (modCurG s' fun g => let l : GenLoad := { id := id, dest := .compose, val := BitVec.ofNat 384 v, gpc := g.pc, bits := s.cur.bits }
        { g with loads := g.loads ++ [l] }) 4)

/-- A reply written to its register (R103). -/
def applyLoad (g : GenCtx) (l : GenLoad) : GenCtx :=
  let g := { g with loads := g.loads.filter (·.id != l.id) }
  match l.dest with
  | .g r => if r = 0 then g else { g with g := wr g.g r.toNat (l.val.setWidth 64) }
  | .hg n => { g with hg := wr g.hg n (l.val.setWidth 64) }
  | .compose => { g with c := Vector.ofFn fun i => w64 (l.val.toNat / 2 ^ (64 * i.val)) }

/-- GEN_LOAD_REPLY: the data of a GLD, GAMO or CLDD arrives in its register (R103, R116). -/
def execGenLoadReply (core : Nat) (ctx : Ctx) (id : Nat) (s : State) : Out :=
  match ((s.core core).gctx ctx).loads.find? (·.id == id) with
  | none => .next s
  | some l => .next (s.modG core ctx fun g => applyLoad g l)

/-! ### System instructions (R134 to R137) -/

/-- GTRAP: a software trap with IMM15 as its first detail word (R134). -/
def execGtrap (imm : BitVec 15) (s : State) : Out := genIssue s [] true fun s => .next (genFault s 0x078 0 (zx imm) 0)

/-- GERET: leaves handler mode (R135, R304), once hg30 holds what was written to it (R103); a reply still to come for another handler
register is discarded with it. The length of the instruction that GERET #1 passes over is that of the word at hg30, or of
the word in the fault record when that one cannot be fetched (DESIGN CHOICE, see assumption 95). -/
def execGeret (st : BitVec 1) (s : State) : Out :=
  genIssue s (if (curG s).handler then [30] else []) true fun s =>
    let n := s.cur.core
    let g := curG s
    if !g.handler then .next (genFault s 0x06A 0 0 0)
    else
      let f := ((s.core n).stop.bind fun x => x.faults.head?)
      if st = 1 ∧ (f.map (·.levelE)).getD false then .next (genFault s 0x041 0 0 0)
      else
        let at_ : BitVec 48 := (rd g.hg 2 0).setWidth 48
        let len := if st = 0 then 0 else
          match (fetchBytes s n at_.toNat 4 false).2 with
          | .inl w => genLength w
          | .inr _ => genLength ((f.map (·.opbits.toNat)).getD 0)
        if (at_.toNat + len) % 4 ≠ 0 then .next (genFault s 0x060 0 0 0)
        else
          let stays (l : GenLoad) : Bool := match l.dest with
            | .hg _ => false
            | _ => true
          .next (leaveHandler (modCurG s fun g => { g with loads := g.loads.filter stays }) n len)

/-- The control registers that exist (R47). -/
def ctlExists (n : Nat) : Bool := n ≤ 7 || n == 0x10

/-- The user context may write a control register (R47). -/
def ctlWritable (n : Nat) : Bool := n == 1 || n == 2

/-- The value of a control register (R47). -/
def ctlRead (s : State) (core : Nat) (g : GenCtx) (n : Nat) : W64 :=
  match n with
  | 0 => zx g.eseq
  | 1 => zx g.hbase
  | 2 => g.tmo
  | 3 => g.dbase
  | 4 => w64 g.dlen
  | 5 => w64 (((List.range 8).map fun i =>
      let f := rd g.fb i {}
      (if f.valid then 2 ^ i else 0) + (if f.overrun then 2 ^ (8 + i) else 0)).sum)
  | 6 => w64 core
  | 7 => w64 g.eprog
  | _ => zx (s.core core).fwShare

/-- GCRR (R136, R48); reading MLT_FBSTAT clears the overrun bits. -/
def execGcrr (d : Reg) (n : BitVec 15) (s : State) : Out :=
  genIssue s [] true fun s =>
    if !ctlExists n.toNat then .next (genFault s 0x069 0 0 0)
    else if n.toNat = 0x10 ∧ s.cur.ctx = .user then .next (genFault s 0x068 0 0 0)
    else
      let v := ctlRead s s.cur.core (curG s) n.toNat
      .next (genDone s (modCurG s fun g =>
        let g := if n.toNat = 5 then { g with fb := g.fb.map fun f => { f with overrun := false } } else g
        gSet g d v) 4)

/-- GCRW (R136, R48). What the firmware context may write is DEDUCED, see assumption 9. -/
def execGcrw (n : BitVec 15) (a : Reg) (s : State) : Out :=
  genIssue s [a] true fun s =>
    let v := gReg (curG s) a
    if !ctlExists n.toNat then .next (genFault s 0x069 0 0 0)
    else if s.cur.ctx = .user ∧ !ctlWritable n.toNat then .next (genFault s 0x068 0 0 0)
    else
      match n.toNat with
      | 1 =>
        if v.toNat % 4 ≠ 0 then .next (genFault s 0x060 0 0 0)
        else .next (genDone s (modCurG s fun g => { g with hbase := v.setWidth 48 }) 4)
      | 2 => .next (genDone s (modCurG s fun g => { g with tmo := v }) 4)
      | 0 => .next (genDone s (modCurG s fun g => { g with eseq := v.setWidth 32 }) 4)
      | 3 => .next (genDone s (modCurG s fun g => { g with dbase := v }) 4)
      | 4 => .next (genDone s (modCurG s fun g => { g with dlen := v.toNat }) 4)
      | 7 => .next (genDone s (modCurG s fun g => { g with eprog := v.toNat % 2 ^ 15 }) 4)
      | 0x10 => .next (genDone s (s.modCore s.cur.core fun c => { c with fwShare := v.setWidth 4 }) 4)
      | _ => .next (genDone s s 4)

/-- GNOP (R137). -/
def execGnop (s : State) : Out := genPlain s [] 4 id

/-- Entries a context emitted that are not yet expanded. -/
def unexpanded (c : Core) (x : Ctx) : Bool :=
  c.e.emitQ.any (·.ctx = x) || (match c.dmiss with | some d => d.entry.ctx = x | none => false)

/-- GIFENCE: once every entry the context emitted is expanded, the instruction cache and the dictionary cache are emptied (R137).
Generator stores are performed at their issue (assumption 6). -/
def execGifence (s : State) : Out :=
  genIssue s [] true fun s =>
    if unexpanded (s.core s.cur.core) s.cur.ctx then .next s
    else .next (genDone s (s.modCore s.cur.core fun c => { c with dcache := [], icache := [] }) 4)

end Sys2Proof.Machine
end

