-- ==== Sys2Proof/Machine/Scalar.lean ====
section
/-! DEFINITION. The S-slot instructions (R139 to R148). -/

namespace Sys2Proof.Machine

/-! ### Shared forms -/

/-- Issues an S op under its predicate (R139): with the predicate false it takes its cycle and its tag, and nothing else. -/
def sIssue (s : State) (tagw : BitVec 8) (taga pred : BitVec 4) (fieldsOk : Bool) (body : State → Option (BitVec 3) → Iss) : Out :=
  slotIssue s tagw taga true fieldsOk fun s tag =>
    if qReg (curE s) pred.toNat then body s tag else .go (tagOnly s tag) 1

/-- sD ← f(sA, sB), latency 1 (R140). -/
def sRRR (s : State) (f : SOp) (fieldsOk : Bool) (g : W64 → W64 → W64) : Out :=
  sIssue s f.tagw f.taga f.pred fieldsOk fun s tag =>
    let e := curE s
    landGo s 1 [.s f.dst.toNat (g (sReg e f.a.toNat) (sReg e f.b.toNat))] tag

/-- sD ← f(sA, IMM12), latency 1 (R140). -/
def sRI (s : State) (f : SIOp) (g : W64 → BitVec 12 → W64) : Out :=
  sIssue s f.tagw f.taga f.pred true fun s tag =>
    landGo s 1 [.s f.dst.toNat (g (sReg (curE s) f.a.toNat) f.imm)] tag

/-- A field below a bound. -/
def below {n : Nat} (b : BitVec n) (m : Nat) : Bool := decide (b.toNat < m)

/-! ### Arithmetic, logic and moves (R140) -/

/-- SNOP (R140): all fields zero but the tags. -/
def execSnop (f : SOp) (s : State) : Out :=
  slotIssue s f.tagw f.taga true (f.pred == 0 && f.mod == 0 && f.b == 0 && f.a == 0 && f.dst == 0) fun s tag => .go (tagOnly s tag) 1

/-- SADD (R140). -/
def execSadd (f : SOp) (s : State) : Out := sRRR s f (f.mod == 0) (· + ·)
/-- SADDI (R140). -/
def execSaddi (f : SIOp) (s : State) : Out := sRI s f fun a i => a + sx i
/-- SSUB (R140). -/
def execSsub (f : SOp) (s : State) : Out := sRRR s f (f.mod == 0) (· - ·)
/-- SMUL (R140). -/
def execSmul (f : SOp) (s : State) : Out := sRRR s f (f.mod == 0) (· * ·)
/-- SAND (R140). -/
def execSand (f : SOp) (s : State) : Out := sRRR s f (f.mod == 0) (· &&& ·)
/-- SOR (R140). -/
def execSor (f : SOp) (s : State) : Out := sRRR s f (f.mod == 0) (· ||| ·)
/-- SXOR (R140). -/
def execSxor (f : SOp) (s : State) : Out := sRRR s f (f.mod == 0) (· ^^^ ·)
/-- SSHL (R140). -/
def execSshl (f : SOp) (s : State) : Out := sRRR s f (f.mod == 0) fun a b => a <<< (b.toNat % 64)
/-- SSHR (R140). -/
def execSshr (f : SOp) (s : State) : Out := sRRR s f (f.mod == 0) fun a b => a >>> (b.toNat % 64)
/-- SSRA (R140). -/
def execSsra (f : SOp) (s : State) : Out := sRRR s f (f.mod == 0) fun a b => a.sshiftRight (b.toNat % 64)
/-- SMIN: signed, or unsigned with .N (R140). -/
def execSmin (f : SOp) (s : State) : Out :=
  sRRR s f (below f.mod 2) fun a b => if f.mod = 0 then minS a b else if b.ult a then b else a
/-- SMAX: signed, or unsigned with .N (R140). -/
def execSmax (f : SOp) (s : State) : Out :=
  sRRR s f (below f.mod 2) fun a b => if f.mod = 0 then maxS a b else if a.ult b then b else a
/-- SLI (R140). -/
def execSli (f : SIOp) (s : State) : Out := sRI s f fun a i => a <<< 12 ||| zx i

/-- SSEL (R140). -/
def execSsel (f : SOp) (s : State) : Out :=
  sIssue s f.tagw f.taga f.pred (below f.mod 16) fun s tag =>
    let e := curE s
    landGo s 1 [.s f.dst.toNat (if qReg e f.mod.toNat then sReg e f.a.toNat else sReg e f.b.toNat)] tag

/-- SMS (R144, R148). -/
def execSms (f : SOp) (s : State) : Out :=
  sIssue s f.tagw f.taga f.pred (below f.a 16 && f.b == 0 && f.mod == 0) fun s tag =>
    landGo s 2 [.s f.dst.toNat (rd (stepRegs s s.cur.core) f.a.toNat 0)] tag

/-- STIME (R71, R144). -/
def execStime (f : SOp) (s : State) : Out :=
  sIssue s f.tagw f.taga f.pred (f.a == 0 && f.b == 0 && f.mod == 0) fun s tag => landGo s 1 [.s f.dst.toNat (w64 s.now)] tag

/-! ### Predicates (R141, R142) -/

/-- SCMP (R141). -/
def execScmp (f : SOp) (s : State) : Out :=
  sIssue s f.tagw f.taga f.pred (below f.dst 16 && below f.mod 8) fun s tag =>
    let e := curE s
    landGo s 1 [.q f.dst.toNat (cond64 f.mod.toNat (sReg e f.a.toNat) (sReg e f.b.toNat))] tag

/-- SCMPI: DST[5:4] holds the condition (R141). -/
def execScmpi (f : SIOp) (s : State) : Out :=
  sIssue s f.tagw f.taga f.pred true fun s tag =>
    landGo s 1 [.q (bits f.dst 0 4) (cond64 (bits f.dst 4 2) (sReg (curE s) f.a.toNat) (sx f.imm))] tag

/-- The predicate functions (R142). -/
def predFn (fn : Nat) (a b : Bool) : Bool :=
  match fn with
  | 0 => a && b
  | 1 => a || b
  | 2 => a != b
  | 3 => a && !b
  | 4 => a || !b
  | 5 => a
  | 6 => true
  | _ => false

/-- SPRED (R142). The op uses A and B, though .MOV, .SET and .CLR do not read both, so any predicates stand there (DEDUCED, see assumption
111). -/
def execSpred (f : SOp) (s : State) : Out :=
  sIssue s f.tagw f.taga f.pred (below f.dst 16 && below f.a 16 && below f.b 16 && below f.mod 8) fun s tag =>
    let e := curE s
    landGo s 1 [.q f.dst.toNat (predFn f.mod.toNat (qReg e f.a.toNat) (qReg e f.b.toNat))] tag

/-! ### Feedback, format, address and mask registers (R144 to R146) -/

/-- SFB: its value is visible to the generator 4 cycles on (R70); it has no s or q result (R148), so its tag clears once sA is read
(assumption 37). -/
def execSfb (f : SOp) (s : State) : Out :=
  sIssue s f.tagw f.taga f.pred (below f.dst 8 && f.b == 0 && f.mod == 0) fun s tag =>
    .go (tagOnly (land s 4 [.fb s.cur.info.ctx f.dst.toNat (sReg (curE s) f.a.toNat)] none) tag) 1

/-- SSETFM (R24, R145): kept with its bundle's number. -/
def execSsetfm (f : SOp) (s : State) : Out :=
  sIssue s f.tagw f.taga f.pred (below f.dst 4 && f.b == 0 && f.mod == 0) fun s tag =>
    let i := s.cur.info
    let v := (sReg (curE s) f.a.toNat).setWidth 32
    .go (tagOnly (modCurE s fun e =>
      { e with fmPend := e.fmPend ++ [{ ctx := i.ctx, eseq := i.eseq, n := f.dst.toNat, val := v }] }) tag) 1

/-- SSETMA (R145). -/
def execSsetma (f : SOp) (s : State) : Out :=
  sIssue s f.tagw f.taga f.pred (below f.dst 8 && f.b == 0 && f.mod == 0) fun s tag =>
    landGo s 1 [.ma f.dst.toNat (sReg (curE s) f.a.toNat)] tag

/-- The mask bits of elements lo to hi - 1 of `w` bits. -/
def spanMask (w lo hi : Nat) : M512 := BitVec.ofNat 512 (2 ^ (hi * (w / 8)) - 2 ^ (min lo hi * (w / 8)))

/-- SSETMK (R146). The op uses B, though its mode .PRE does not read it, so any B stands there (DEDUCED, see assumption 111). -/
def execSsetmk (f : SOp) (s : State) : Out :=
  let mode := bits f.mod 0 2
  let wc := bits f.mod 2 2
  let ok := below f.dst 8 && below f.mod 16 && mode != 3 && wc != 3 && (mode != 2 || wc == 0)
  sIssue s f.tagw f.taga f.pred ok fun s tag =>
    let e := curE s
    let a := sReg e f.a.toNat
    let b := sReg e f.b.toNat
    let w := 8 * 2 ^ wc
    let n := 4096 / w
    let wr_ : RegWrite :=
      if mode = 0 then .m f.dst.toNat (spanMask w 0 (min a.toNat n)) (BitVec.allOnes 512)
      else if mode = 1 then .m f.dst.toNat (spanMask w (min a.toNat n) (min b.toNat n)) (BitVec.allOnes 512)
      else
        let k := 64 * (b.toNat % 8)
        .m f.dst.toNat (BitVec.ofNat 512 (a.toNat * 2 ^ k)) (BitVec.ofNat 512 ((2 ^ 64 - 1) * 2 ^ k))
    landGo s 1 [wr_] tag

/-! ### Copy-channel programs (R147) -/

/-- The width of a channel program field. -/
def chWidth (n : Nat) : Nat :=
  if n < 0x18 then (if n % 4 = 1 ∨ n % 4 = 2 then 40 else 24)
  else match n with
    | 0x18 => 64
    | 0x19 => 64
    | 0x1A => 17
    | 0x1B => 2
    | 0x1C => 26
    | 0x1D => 32
    | 0x1E => 5
    | 0x1F => 13
    | 0x20 => 9
    | 0x21 => 64
    | 0x22 => 19
    | _ => 32

/-- A value that a channel program field refuses: too wide, or an innermost length that is 0, above 65,536 or no multiple of 4. -/
def chRefuses (n : Nat) (v : W64) : Bool :=
  if n < 0x18 ∧ (n % 4 = 1 ∨ n % 4 = 2) then bits v 39 25 != 0 && bits v 39 25 != 2 ^ 25 - 1
  else decide (2 ^ chWidth n ≤ v.toNat) || (n == 0x1A && (v.toNat == 0 || decide (65536 < v.toNat) || v.toNat % 4 != 0))

/-- SSETCH (R147): waits while the channel runs. -/
def execSsetch (f : SOp) (s : State) : Out :=
  sIssue s f.tagw f.taga f.pred (below f.dst 8 && f.b == 0 && below f.mod 0x24) fun s tag =>
    let e := curE s
    let v := sReg e f.a.toNat
    let n := f.mod.toNat
    if chRefuses n v then .fault (class0 .s 2) 0 0 0
    else if (rd e.ch f.dst.toNat {}).running then .wait
    else landGo s 1 [.ch f.dst.toNat n (w64 (v.toNat % 2 ^ chWidth n))] tag

/-! ### SWAIT (R143) -/

/-- Every selected counter is at or below a limit (R68, R143). -/
def countersMet (e : Engine) (sel : BitVec 6) (limit : Nat) : Bool :=
  (!bitAt sel 0 || decide (e.cL ≤ limit)) && (!bitAt sel 1 || decide (e.cS ≤ limit)) && (!bitAt sel 2 || decide (e.cC ≤ limit)) &&
    (!bitAt sel 3 || decide (e.cT ≤ limit))

/-- A 5-bit timeout code has run out: 0 polls once, n waits 2^(n+4) cycles, 31 waits without bound (R143, R198). -/
def codeExpired (code since now : Nat) : Bool :=
  if code = 31 then false else if code = 0 then true else decide (since + 2 ^ (code + 4) ≤ now)

/-- SWAIT (R143). -/
def execSwait (f : SOp) (s : State) : Out :=
  sIssue s f.tagw f.taga f.pred (below f.dst 16 && below f.b 32 && below f.mod 16) fun s tag =>
    let e := curE s
    let limit := (sReg e f.a.toNat).toNat % 256
    if countersMet e f.mod limit then landGo s 1 [.q f.dst.toNat true] tag
    else if codeExpired f.b.toNat s.now s.now then landGo s 1 [.q f.dst.toNat false] tag
    else .go (modCurE s fun e => { e with swait := some { f := f, since := s.now, limit := limit } }) 1

/-- SWAIT_COMPLETE (R143): the first cycle in which the counters are met, or in which the timeout has run out. -/
def execSwaitComplete (core : Nat) (s : State) : Out :=
  let e := (s.core core).e
  match e.swait with
  | none => .next s
  | some r =>
    let met := countersMet e r.f.mod r.limit
    if !met && !codeExpired r.f.b.toNat r.since s.now then .next s
    else
      let s := landSince s core .s r.since 1 [.q r.f.dst.toNat met] (tagOf r.f.taga)
      .next (s.modE core fun e => { e with swait := none, unitFree := wr e.unitFree 0 (freedAt s core) })

end Sys2Proof.Machine
end

