-- ==== Sys2Proof/Machine/Keccak.lean ====
section
/-! DEFINITION. SHAKE256 (R396, R397), which the manual names and does not define: the function of FIPS 202 (PRESUMED, see
assumption 15). -/

namespace Sys2Proof.Machine

/-- Rotation offsets of the 25 lanes, lane (x, y) at 5y + x. -/
def rhoOffsets : List Nat :=
  [0, 1, 62, 28, 27, 36, 44, 6, 55, 20, 3, 10, 43, 25, 39, 41, 45, 15, 21, 8, 18, 2, 61, 56, 14]

/-- Round constants. -/
def roundConstants : List W64 :=
  [0x0000000000000001, 0x0000000000008082, 0x800000000000808A, 0x8000000080008000, 0x000000000000808B, 0x0000000080000001,
   0x8000000080008081, 0x8000000000008009, 0x000000000000008A, 0x0000000000000088, 0x0000000080008009, 0x000000008000000A] ++
  [0x000000008000808B, 0x800000000000008B, 0x8000000000008089, 0x8000000000008003, 0x8000000000008002, 0x8000000000000080,
   0x000000000000800A, 0x800000008000000A, 0x8000000080008081, 0x8000000000008080, 0x0000000080000001, 0x8000000080008008]

/-- Lane `i` of a state. -/
def laneOf (a : List W64) (i : Nat) : W64 := (a[i]?).getD 0

/-- One round. -/
def keccakRound (a : List W64) (rc : W64) : List W64 :=
  let c := (List.range 5).map fun x => (List.range 5).foldl (fun v y => v ^^^ laneOf a (5 * y + x)) 0
  let d := (List.range 5).map fun x => laneOf c ((x + 4) % 5) ^^^ (laneOf c ((x + 1) % 5)).rotateLeft 1
  let t := (List.range 25).map fun i => laneOf a i ^^^ laneOf d (i % 5)
  -- lane (x, y) moves to (y, 2x + 3y)
  let b := (List.range 25).map fun i =>
    let x' := i % 5
    let y' := i / 5
    let x := (x' + 3 * y') % 5
    let y := x'
    (laneOf t (5 * y + x)).rotateLeft ((rhoOffsets[5 * y + x]?).getD 0)
  let e := (List.range 25).map fun i =>
    let y := i / 5
    laneOf b i ^^^ (~~~laneOf b (5 * y + (i % 5 + 1) % 5) &&& laneOf b (5 * y + (i % 5 + 2) % 5))
  e.set 0 (laneOf e 0 ^^^ rc)

/-- The permutation. -/
def keccakF (a : List W64) : List W64 := roundConstants.foldl keccakRound a

/-- Absorbs a block of 136 bytes. -/
def absorbBlock (a : List W64) (b : List Byte) : List W64 :=
  keccakF (a.zipIdx.map fun p => if p.2 < 17 then p.1 ^^^ w64 (ofBytes ((b.drop (8 * p.2)).take 8)) else p.1)

/-- Absorbs so many blocks of padded bytes. -/
def absorb (a : List W64) : Nat → List Byte → List W64
  | 0, _ => a
  | n + 1, b => absorb (absorbBlock a (b.take 136)) n (b.drop 136)

/-- SHAKE256 with 64 bytes of output. -/
def shake256 (b : List Byte) : List Byte :=
  let k := 136 - b.length % 136
  let pad : List Byte := if k = 1 then [0x9F] else [0x1F] ++ List.replicate (k - 2) 0 ++ [0x80]
  let p := b ++ pad
  ((absorb (List.replicate 25 0) (p.length / 136) p).take 8).flatMap fun w => toBytes 8 w.toNat

end Sys2Proof.Machine
end

