-- ==== Sys2Proof/Machine/GenMemory.lean ====
section
/-! DEFINITION. Generator memory access and the atomics of the generator and of the X slots (R115 to R118, R217, R278, R338). -/

namespace Sys2Proof.Machine

/-! ### Atomics (R117) -/

/-- One FP32 lane of an FADD. -/
def fadd32 (a b : Nat) : Nat := addRound fp32 .rne a b

/-- The new value of an atomic of `w` bits (R117). -/
def amoNew (op w old b cmp : Nat) : Nat :=
  let m := 2 ^ w
  let old := old % m
  let b := b % m
  let s (v : Nat) := signedOf w v
  match op with
  | 0 => (old + b) % m
  | 1 => Nat.land old b
  | 2 => Nat.lor old b
  | 3 => Nat.xor old b
  | 4 => if s b < s old then b else old
  | 5 => if s old < s b then b else old
  | 6 => if b < old then b else old
  | 7 => if old < b then b else old
  | 8 => b
  | 9 => if old = cmp % m then b else old
  | _ => if w = 32 then fadd32 old b else fadd32 (old % 2 ^ 32) (b % 2 ^ 32) + fadd32 (old / 2 ^ 32) (b / 2 ^ 32) * 2 ^ 32

/-- Bytes of an atomic. -/
def amoLen (wide : Bool) : Nat := if wide then 8 else 4

/-- The checks of an atomic: those of R202 with the atomic codes, the access table for both directions, and the span of an FADD in
a deterministic bay (R117, R338, R370). -/
def amoAccess (s : State) (core : Nat) (op : Nat) (wide : Bool) (va : W64) (slot : Option Nat) : State × Acc :=
  let task := (s.core core).task
  let k : Who := { core := some core, bay := s.bayOn core, kind := 4, slot := slot, task := task, fw := decide (s.cur.ctx = .firmware) }
  match access s k va (amoLen wide) (amoLen wide) .uc with
  | (s, .bad e) => (s, .bad e)
  | (s, .ok ps) =>
    let spans := ((task.bind s.taskAt).bind fun t => (s.runAt t.run).map (·.buffers)).getD []
    let ored := spans.any fun u =>
      u.ored && decide (u.addr.toNat ≤ va.toNat) && decide (va.toNat + amoLen wide ≤ u.addr.toNat + u.len * 64)
    if op = 10 ∧ (s.eff k.bay).det ∧ task.isSome ∧ !ored then (s, .bad { cause := 0x131, addr := va })
    else (s, .ok ps)

/-- The physical address, package and HBM offset of a piece that lies in another package. -/
def remoteOf (s : State) (p : Piece) : Option (Nat × Nat × Nat) :=
  match p.loc with
  | .phys pa => (otherPackage s pa).map fun x => (pa, x.1, x.2)
  | _ => none

/-- A FADD of a deterministic bay is kept for commit: one on the task's shadow, or one on a span marked ORED (R338). -/
def faddKept (s : State) (task : Option Nat) (op : Nat) (ps : List Piece) : Option Nat :=
  if op ≠ 10 ∨ !(ps.any fun p => match p.loc with | .phys _ => true | _ => false) then none
  else (task.bind s.taskAt).bind fun t => if (s.eff t.bay).det then some t.id else none

/-- The bytes of an atomic are lost: its read ends with an uncorrectable error (R202, R389). -/
def amoLost (s : State) (core : Nat) (ps : List Piece) : Option Nat := ps.findSome? fun p => placeKind s (some core) p.loc p.len

/-- An atomic of the task on a core has its shadow line (R338); a FADD that is kept needs none. -/
def amoRoom (s : State) (core op : Nat) (ps : List Piece) : Bool :=
  let task := (s.core core).task
  (faddKept s task op ps).isSome || shadowRoom s task ps

/-- A core's own older stores to a place leave its L1 and its write buffer before an atomic on it (R278). -/
def settleOwn (s : State) (core : Nat) (p : Piece) : State :=
  match p.loc with
  | .phys pa => flushLine s core (pa / 128)
  | .loft n _ => drainUpTo s core fun w => match w.loc with
    | .loft m _ => m == n
    | _ => false
  | .scratch _ => s

/-- The bytes that an atomic finds. At a point of coherence its read and its write are one access, which its write counts (R258). -/
def amoRead (s : State) (core : Nat) (task : Option Nat) (ps : List Piece) : State × List Byte :=
  match shadowTask s task, ps with
  | none, [{ loc := .phys pa, len := len, .. }] => let (_, s) := s.bump; (s, pocRead s pa len)
  | _, _ => readPieces s (some core) false task [] ps

/-- Performs a checked atomic and answers the old value: at the bank, at the Loft, or at the point of coherence after the core's
own line is written back and invalidated (R278). In a deterministic bay it acts on the task's shadow, and an FADD is kept for
commit and answers 0, whether the task's stores still go to its shadow or not (R336, R338). Any other atomic on another package leaves
as a request and is performed there, so its old value is not in this state (R373, assumption 12). -/
def amoPerform (s : State) (core : Nat) (op : Nat) (wide : Bool) (va : W64) (ps : List Piece) (operand cmp : W64) : State × W64 :=
  let task := (s.core core).task
  match faddKept s task op ps with
  | some id => (s.modTask id fun t => { t with fadds := t.fadds ++ [{ va := va, wide := wide, operand := operand }] }, 0)
  | none =>
    let s := ps.foldl (fun s p => settleOwn s core p) s
    match (if (shadowTask s task).isSome then none else ps.findSome? (remoteOf s)) with
    | some (pa, pkg, off) =>
      let (_, s) := s.bump
      ({ s with sent := s.sent ++ [.flit ((linkTo s pkg pa).getD 0) pkg off (.atomic (BitVec.ofNat 4 op) wide operand cmp)] },
        w64 (ofBytes (pocRead s pa (amoLen wide))))
    | none =>
      let (s, b) := amoRead s core task ps
      let old := ofBytes b
      let new := amoNew op (8 * amoLen wide) old operand.toNat cmp.toNat
      (writePieces s (some core) false task 0 ps (toBytes (amoLen wide) new), w64 old)

/-! ### Loads and stores (R115, R116) -/

/-- The policy of a generator access (R115). -/
def genPol (pol : BitVec 2) : Pol := if pol = 0 then .wb else if pol = 1 then .stream else .uc

/-- The agent of a generator access. -/
def genWho (s : State) (kind : Nat) : Who :=
  { core := some s.cur.core, bay := s.bayOn s.cur.core, kind := kind, task := (s.core s.cur.core).task, fw := decide (s.cur.ctx = .firmware) }

/-- Bytes of a load or store type (R115). -/
def typeLen (t : Nat) : Nat := 2 ^ (t % 4)

/-- The loaded value, zero- or sign-extended (R115). -/
def extendLoad (t v : Nat) : W64 :=
  let w := 8 * typeLen t
  if t < 4 then w64 (v % 2 ^ w) else BitVec.ofInt 64 (signedOf w v)

/-- A reply to come for a register, of the executing instruction of an access kind; one still to come for the same register is
overtaken. A `firm` one may end with a fault, so nothing later issues before it (R106; assumption 105). -/
def addLoad (g : GenCtx) (id : Nat) (d : Reg) (v bits_ : W64) (kind : Nat) (va : W64) (firm : Bool) : GenCtx :=
  let l : GenLoad := { id := id, dest := destOf g d, val := v.setWidth 384, gpc := g.pc, bits := bits_, kind := kind, va := va,
                       hm := g.handler, firm := firm }
  { g with loads := overtake (destOf g d) g.loads ++ [l] }

/-- A load of checked pieces may still end with a fault after its issue: it reads memory beyond the core (R106). -/
def mayFail (s : State) (n : Nat) (ps : List Piece) : Bool :=
  ps.any fun p => !l1Holds s n p && match p.loc with
    | .phys _ => true
    | _ => false

/-- GLD (R115, R116): the access is made at issue and its data reaches gD with the reply (assumption 6), which may be a fault while it
reads memory beyond the core (R106, R374, R389). -/
def execGld (d a : Reg) (t : BitVec 3) (pol : BitVec 2) (w2 : BitVec 32) (s : State) : Out :=
  genIssue s [a] true fun s =>
    let va := gReg (curG s) a + sx w2
    let len := typeLen t.toNat
    match access s (genWho s 0) va len len (genPol pol) with
    | (s, .bad e) => .next (genAErr s e)
    | (s, .ok ps) =>
      match loadKind s s.cur.core ps with
      | some f => .next (genFault (dropRead s (genWho s 0) f va len) (class2 0 f) va 0 0)
      | none =>
        let firm := mayFail s s.cur.core ps
        let (s, b) := readPieces s (some s.cur.core) true (s.core s.cur.core).task [] ps
        let (id, s) := s.bump
        .next (genDone s (modCurG s fun g => addLoad g id d (extendLoad t.toNat (ofBytes b)) s.cur.bits 0 va firm) 8)

/-- A store whose pieces lie in another package has still to be acknowledged, and may be denied or lost there: its reply writes no
register (R106, R370, R374). A store to a line that the L1 holds, or to a shadow, stays in this package for now. -/
def awaitAck (before after : State) (ps : List Piece) (va : W64) : State :=
  let n := before.cur.core
  if (shadowTask before (before.core n).task).isNone && ps.any fun p => !l1Holds before n p && (remoteOf before p).isSome then
    let (id, s) := after.bump
    modCurG s fun g => addLoad g id 0 0 s.cur.bits 1 va true
  else after

/-- GST (R115, R116). -/
def execGst (a b : Reg) (t pol : BitVec 2) (col : BitVec 3) (w2 : BitVec 32) (s : State) : Out :=
  genIssue s [a, b] true fun s =>
    let g := curG s
    let va := gReg g a + sx w2
    let len := typeLen t.toNat
    match access s (genWho s 1) va len len (genPol pol) with
    | (s, .bad e) => .next (genAErr s e)
    | (s, .ok ps) =>
      if ps.any fun p => pieceDenied s p false true then .next (genFault s 0x08C va 0 0)
      else if !shadowRoom s (s.core s.cur.core).task ps then .next (starve s s.cur.core)
      else
        let after := writePieces s (some s.cur.core) true (s.core s.cur.core).task col ps (toBytes len (gReg g b).toNat)
        .next (genDone s (awaitAck s after ps va) 8)

/-- Brings a line into a core's L1 under WB, unless it is held there already or the page is uncached (R116, R205). -/
def prefetchPiece (s : State) (core : Nat) (p : Piece) : State :=
  match p.loc, p.pol with
  | .phys _, .uc => s
  | .phys pa, _ =>
    if (shadowTask s (s.core core).task).isSome ∨ pieceDenied s p true false then s
    else
      match findLine s core (pa / 128) with
      | some _ => s
      | none =>
        let s := sendRead (l2Read s (some core) (pa / 128 * 128) 128 p.ca) (pa / 128 * 128) 128 false
        putLine s core (freshLine s core (pa / 128))
  | _, _ => s

/-- Brings a line into its home L2 slice, unless its page is uncached (R116, R205). -/
def prefetchL2 (s : State) (p : Piece) : State :=
  match p.loc with
  | .phys pa => if p.ca || (shadowTask s (s.core s.cur.core).task).isSome || pieceDenied s p true false then s
    else l2Read s (some s.cur.core) (pa / 128 * 128) 128 false
  | _ => s

/-- GPREF (R116): an address that would fault is dropped; with L = 1 the line goes to its home L2 slice only. -/
def execGpref (a : Reg) (l : BitVec 1) (w2 : BitVec 32) (s : State) : Out :=
  genIssue s [a] true fun s =>
    let va := gReg (curG s) a + sx w2
    match access s (genWho s 0) va 1 1 .wb with
    | (s, .bad _) => .next (genDone s s 8)
    | (s, .ok ps) =>
      let after := ps.foldl (fun s p => if l = 0 then prefetchPiece s s.cur.core p else prefetchL2 s p) s
      .next (genDone s after 8)

/-- GAMO (R117): gD receives the old value with the reply. -/
def execGamo (d a b : Reg) (op : BitVec 4) (z : BitVec 1) (col : BitVec 3) (s : State) : Out :=
  let _ := col
  genIssue s (if op = 9 then [a, b, d] else [a, b]) true fun s =>
    let g := curG s
    let va := gReg g a
    let wide := z = 1
    match amoAccess s s.cur.core op.toNat wide va none with
    | (s, .bad e) => .next (genAErr s e)
    | (s, .ok ps) =>
      if ps.any fun p => pieceDenied s p true true then .next (genFault s 0x0A4 va 0 0)
      else if (amoLost s s.cur.core ps).isSome then .next (genFault (dropRead s (genWho s 4) 6 va (amoLen wide)) 0x0A6 va 0 0)
      else if !amoRoom s s.cur.core op.toNat ps then .next (starve s s.cur.core)
      else
        let (after, old) := amoPerform s s.cur.core op.toNat wide va ps (gReg g b) (gReg g d)
        let (id, after) := after.bump
        .next (genDone s (modCurG after fun g => addLoad g id d old s.cur.bits 4 va (mayFail s s.cur.core ps)) 4)

end Sys2Proof.Machine
end

