-- ==== Sys2Proof/Machine/Operands.lean ====
section
/-! DEFINITION. The operand forms of the engine slots: lanes and masks (R66, R67), element types (R20), the broadcast port (R65),
the b operand (R149), format registers (R21 to R24), and pops of the drain queues (R174). -/

namespace Sys2Proof.Machine

/-! ### Lanes -/

/-- Lane width of an element type (R20). -/
def etw (t : Nat) : Nat := if t < 2 then 8 else if t < 4 ∨ t = 6 ∨ t = 7 then 16 else 32

/-- The type is a signed integer (R20). -/
def etSigned (t : Nat) : Bool := t % 2 == 0

/-- The floating format of an element type (R20). -/
def etFmt (t : Nat) : FFmt := if t = 6 then bf16 else if t = 7 then fp16 else fp32

/-- Lane `i` of width `w`. -/
def lane (v w i : Nat) : Nat := v / 2 ^ (w * i) % 2 ^ w

/-- A register of `n` lanes of width `w`. -/
def ofLanes (w n : Nat) (f : Nat → Nat) : V4096 :=
  BitVec.ofNat 4096 ((List.range n).foldl (fun acc i => acc + f i % 2 ^ w * 2 ^ (w * i)) 0)

/-- The value of an integer lane of a type (R151). -/
def laneInt (t v : Nat) : Int := if etSigned t then signedOf (etw t) v else Int.ofNat (v % 2 ^ etw t)

/-- Element lane `i` of width `w` is enabled: it obeys the bit of its lowest byte (R66). -/
def laneOn (m : M512) (w i : Nat) : Bool := bitAt m (i * (w / 8))

/-- All byte lanes of the element lanes of width `w` below `n` that `on` selects. -/
def laneMask (w n : Nat) (on : Nat → Bool) : M512 :=
  BitVec.ofNat 512 ((List.range n).foldl (fun acc i => if on i then acc + (2 ^ (w / 8) - 1) * 2 ^ (i * (w / 8)) else acc) 0)

/-- The byte lanes of the element lanes of width `w` that a mask enables. -/
def spread (m : M512) (w : Nat) : M512 := laneMask w (4096 / w) (laneOn m w)

/-! ### The broadcast port (R65) -/

/-- The 64-bit pattern of a bundle's broadcast operand. -/
def bcPattern (s : State) (core : Nat) (i : BInfo) : W64 :=
  match i.bcsrc.toNat with
  | 1 => sx i.bcimm
  | 2 => w64 (i.bcimm.toNat * 256)
  | 3 => sReg (s.core core).e i.bcreg.toNat
  | 4 => rd (stepRegs s core) i.bcreg.toNat 0
  | 5 => i.patch
  | _ => 0

/-- The element that every lane of a type takes from the broadcast operand. -/
def bcElem (s : State) (core : Nat) (i : BInfo) (t : Nat) : Nat :=
  let p := (bcPattern s core i).toNat
  if i.bcsrc = 2 ∧ (t = 6 ∨ t = 7) then convertFloat (decodeF fp32 (p % 2 ^ 32)) (etFmt t) .rne false else p % 2 ^ etw t

/-- What a multi-beat op keeps of its bundle: the broadcast operand as it was read in the issue cycle (R65, R150). -/
def freezeBc (s : State) (core : Nat) (i : BInfo) : BInfo :=
  if i.bcsrc = 3 ∨ i.bcsrc = 4 then { i with bcsrc := 5, patch := bcPattern s core i } else i

/-! ### Pops of the drain queues (R149, R174) -/

/-- A drain into a queue is in flight: it runs, or a row of it has still to be readable. The last of the 256 rows of an MDRAIN counts as
poppable in its own time also when the row mask keeps it back (R178, R191; DEDUCED, see assumption 106). -/
def drainFlying (now : Nat) (e : Engine) (q : Nat) : Bool :=
  let rowFor (ws : List RegWrite) : Bool := ws.any fun w => match w with | .oq n _ => n == q | _ => false
  (match e.drain with
    | some r => r.kind != .load && bits r.f.sel 0 2 == q
    | none => false) ||
  decide (now < rd e.drainEnds q 0) || e.landings.any (fun l => rowFor l.writes) || e.snapshot.any fun x => rowFor x.writes

/-- The queue that a V op pops: oqC under BK 11, or by VPOPQ. -/
def popsQueue (b : W64) : Option Nat :=
  if bits b 28 2 = 3 then some (bits b 23 5) else if bits b 0 8 = 0x3A then some (bits b 23 5) else none

/-- Rows that a pop needs: two for the second of two pops of one queue that one ALIGN mask names (R174). -/
def rowsNeeded (s : State) (q : Nat) : Nat :=
  let i := s.cur.info
  match s.cur.slot, (slotQ (curE s) .v0).head? with
  | .v1, some o =>
    if bitAt i.align 1 && bitAt i.align 2 && decide (o.info.ctx = i.ctx ∧ o.info.eseq = i.eseq) && popsQueue o.bits == some q then 2 else 1
  | _, _ => 1

/-- A pop of a queue: the head row and the state without it, or an underflow, or a wait. -/
def popRow (s : State) (q : Nat) (k : State → V4096 → Iss) : Iss :=
  let e := curE s
  match rd e.oq q [] with
  | row :: rest =>
    if rest.length + 1 < rowsNeeded s q then
      if drainFlying s.now e q then .wait else .fault (class0 s.cur.slot 4) 0 0 0
    else k (modCurE s fun e => { e with oq := wr e.oq q rest }) row
  | [] => if drainFlying s.now e q then .wait else .fault (class0 s.cur.slot 4) 0 0 0

/-! ### The b operand (R79, R149) -/

/-- BK and B are well formed; `pops` says that the op accepts BK 11 (R79). -/
def bkOk (f : VOp) (pops : Bool) : Bool :=
  match f.bk.toNat with
  | 0 => true
  | 1 => f.b == 0
  | 2 => decide (f.b.toNat < 8)
  | _ => pops && decide (f.c.toNat < 4)

/-- C is zero unless it names the queue of a pop. -/
def cFree (f : VOp) : Bool := f.bk == 3 || f.c == 0

/-- B is zero and BK 00: an op with no b operand. -/
def noB (f : VOp) : Bool := f.bk == 0 && f.b == 0

/-- The b operand of beat `j` as lanes of its type; `row` is the popped row. -/
def bVec (s : State) (core : Nat) (f : VOp) (i : BInfo) (row : V4096) (j : Nat) : Nat → Nat :=
  let t := f.etype.toNat
  let e := (s.core core).e
  match f.bk.toNat with
  | 0 => lane (vReg e (f.b.toNat + j)).toNat (etw t)
  | 1 => let x := bcElem s core i t; fun _ => x
  | 2 => lane (rd e.f (f.b.toNat % 8) {}).coord.toNat (etw t)
  | _ => lane row.toNat (etw t)

/-- Goes on with the popped row of an op under BK 11, and with nothing popped otherwise. -/
def withPop (s : State) (f : VOp) (k : State → V4096 → Iss) : Iss :=
  if f.bk = 3 then popRow s f.c.toNat k else k s 0

/-! ### Format registers (R21 to R24) -/

/-- The fields of a format register value (R21). -/
def fmFamily (v : BitVec 32) : Nat := bits v 0 4
/-- WIDTH: the integer width, the Grist M, or the variant. -/
def fmWidth (v : BitVec 32) : Nat := bits v 4 4
/-- SGN. -/
def fmSigned (v : BitVec 32) : Bool := bitAt v 8
/-- SENC is sign-magnitude. -/
def fmSignMag (v : BitVec 32) : Bool := bitAt v 9
/-- SUBST. -/
def fmSubst (v : BitVec 32) : Nat := bits v 11 2

/-- A format register value is valid (R22). -/
def fmValid (v : BitVec 32) : Bool :=
  let w := fmWidth v
  let plain := bits v 8 5 == 0
  let group := bits v 13 3
  bits v 16 16 == 0 &&
    match fmFamily v with
    | 0 => (w == 2 || w == 3 || w == 4 || w == 6 || w == 8) && bits v 10 1 == 0 && (bitAt v 8 || plain) && group == 0
    | 1 => (w == 2 || w == 4 || w == 7) && plain && group == 1
    | 2 => decide (w ≤ 5) && plain && group == 2
    | 3 => decide (w ≤ 1) && plain && group == 0
    | 4 => w == 0 && plain && group == 0
    | 5 => w == 0 && plain && group == 0
    | 6 => w == 0 && plain && group == 0
    | _ => false

/-- An op of a context and bundle sees a format-register write of bundle `w`: four or more bundles earlier (R24). An op sees the
writes of its own context only (DESIGN CHOICE, see assumption 93). -/
def fmSeen (i : BInfo) (ctx : Ctx) (w : BitVec 32) : Bool := ctx == i.ctx && seqLe w (i.eseq - 4)

/-- The latest settled write of a context to a format register, the task-start value when there is none. -/
def fmSettled (e : Engine) (ctx : Ctx) (k : Nat) : BitVec 32 :=
  match (e.fmPend.filter fun w => w.settled && w.ctx == ctx && w.n == k).getLast? with
  | some w => w.val
  | none => rd e.fm k 6

/-- The value of a format register that an op of a bundle reads; none while an SSETFM it must see has not issued (R24). -/
def fmRead (s : State) (core : Nat) (i : BInfo) (k : Nat) : Option (BitVec 32) :=
  let e := (s.core core).e
  let pending := (slotQ e .s).any fun o =>
    bits o.bits 0 8 == 0x13 && bits o.bits 8 2 == k && fmSeen i o.info.ctx o.info.eseq
  if pending then none
  else
    let ws := e.fmPend.filter fun w => !w.settled && w.n == k && fmSeen i w.ctx w.eseq
    some (match ws with
      | [] => fmSettled e i.ctx k
      | w :: r => (r.foldl (fun a b => if seqLe a.eseq b.eseq then b else a) w).val)

/-- Goes on with a format register's value, waiting for it (R24). -/
def withFm (s : State) (k : Nat) (go : BitVec 32 → Iss) : Iss :=
  match fmRead s s.cur.core s.cur.info k with
  | none => .wait
  | some v => go v

/-! ### V ops -/

/-- Issues a V op. -/
def vIssue (s : State) (f : VOp) (fieldsOk : Bool) (body : State → Option (BitVec 3) → Iss) : Out :=
  slotIssue s f.tagw f.taga true fieldsOk body

/-- A beat range of registers passes v31 (R150). -/
def beyond (f : VOp) (r : BitVec 5) : Bool := decide (31 < r.toNat + f.beats.toNat)

/-- The mask that a V op names. -/
def maskOf (s : State) (core : Nat) (f : VOp) : M512 := mReg (s.core core).e f.msk.toNat

/-- What one beat of a V op writes: from the state, the bundle, the mask, VSEL's mask, the beat and the popped row. -/
abbrev BeatFn := State → Nat → BInfo → M512 → M512 → Nat → V4096 → List RegWrite

/-- One beat of a lane-wise op: d(DST + j)[i] ← fn(i, a, b, c) in the enabled lanes (R150). -/
def laneBeat (f : VOp) (fn : Nat → Nat → Nat → Nat → Nat) : BeatFn := fun s core i mask sel j row =>
  let t := f.etype.toNat
  let w := etw t
  let e := (s.core core).e
  let a := (vReg e (f.a.toNat + j)).toNat
  let c := (vReg e (f.c.toNat + j)).toNat
  let b := bVec s core f i row j
  [.v (f.dst.toNat + j) (ofLanes w (4096 / w) fun n =>
    fn (if laneOn sel w n then 1 else 0) (lane a w n) (b n) (lane c w n)) (spread mask w)]

/-- Issues an op of one or more beats (R150): beat 0 now, the others one a cycle. -/
def beatIssue (s : State) (i : Instr) (f : VOp) (fieldsOk outOfRange : Bool) (lat : Nat) (sel : State → M512) (beat : BeatFn) : Out :=
  vIssue s f (fieldsOk && (f.beats == 0 || f.bk == 0 || f.bk == 1)) fun s tag =>
    if outOfRange then .fault (class0 s.cur.slot 2) 0 0 0
    else withPop s f fun s' row =>
      let n := s.cur.core
      let info := freezeBc s n s.cur.info
      let mask := maskOf s n f
      let m := sel s
      let ws := beat s n info mask m 0 row
      if f.beats = 0 then landGo s' lat ws tag
      else
        let k := slotNum s.cur.slot - 1
        .go (modCurE (land s' lat ws none) fun e =>
          { e with vrun := wr e.vrun k (some { instr := i, info := info, beat := 1, mask := mask, sel := m }) }) (f.beats.toNat + 1)

/-- An op of one beat: its register writes with latency `lat`. -/
def vOnce (s : State) (f : VOp) (fieldsOk outOfRange : Bool) (lat : Nat)
    (writes : State → Nat → M512 → V4096 → List RegWrite) : Out :=
  vIssue s f (fieldsOk && f.beats == 0) fun s tag =>
    if outOfRange then .fault (class0 s.cur.slot 2) 0 0 0
    else withPop s f fun s' row => landGo s' lat (writes s s.cur.core (maskOf s s.cur.core f) row) tag

end Sys2Proof.Machine
end

