-- ==== Sys2Proof/Machine/XAccess.lean ====
section
/-! DEFINITION. Loads, stores, line operations, atomics, gathers and scatters of the X slots (R197 to R205, R214 to R217), and the
replies of counted accesses (R199, R297). A counted access is checked at issue and performed later, in its slot's order (R200). -/

namespace Sys2Proof.Machine

/-! ### Shared forms -/

/-- Issues an op of the XR form that Q gates: with the predicate false it takes its cycle and has no effect (R197). -/
def xGated (s : State) (f : XROp) (fieldsOk : Bool) (body : State → Option (BitVec 3) → Iss) : Out :=
  slotIssue s f.tagw f.taga true (f.rsv == 0 && f.tmo == 0 && fieldsOk) fun s tag =>
    if qReg (curE s) f.q.toNat then body s tag else .go (tagOnly s tag) 1

/-- A class-0 fault of the executing X op. -/
def xFault (s : State) (kind : Nat) : Iss := .fault (class0 s.cur.slot kind) 0 0 0

/-- The fault that the access checks found. -/
def errFault (e : AErr) : Iss := .fault e.cause e.addr e.det0 e.det1

/-- The agent of an access of the executing slot. -/
def slotWho (s : State) (kind : Nat) : Who :=
  { core := some s.cur.core, bay := s.bayOn s.cur.core, kind := kind, slot := some (slotNum s.cur.slot), task := (s.core s.cur.core).task,
    fw := decide (s.cur.ctx = .firmware) }

/-- The agent of a gather, scatter or other access whose end of the scratchpad is a bound of its kind (R202). -/
def slotWhoBound (s : State) (kind : Nat) : Who := { slotWho s kind with slot := none }

/-- The policy of a POL field with a read count (R81, R203). -/
def xPol (pol : BitVec 2) (n : Nat) : Pol :=
  match pol.toNat with
  | 0 => .wb
  | 1 => .stream
  | 2 => .uc
  | _ => .rc n

/-- The place of a fault in the order of the access checks (R202). -/
def errOrder (e : AErr) : Nat :=
  let c := e.cause.toNat
  if c < 0x40 then 3
  else if 0xC0 ≤ c then 7
  else match c % 8 with
    | 2 => 1
    | 3 => 2
    | 5 => if e.addr.toNat / 2 ^ 60 = 0 then 5 else 4
    | _ => 5

/-- The checks of several accesses: all their pieces, or the first fault in the order of the checks, then of the accesses. -/
def accessAll (s : State) (who : Who) (align : Nat) (pol : Pol) : List (W64 × Nat) → State × Acc
  | [] => (s, .ok [])
  | (va, len) :: r =>
    match access s who va len align pol with
    | (s, a) =>
      match a, accessAll s who align pol r with
      | .ok ps, (s, .ok qs) => (s, .ok (ps ++ qs))
      | .ok _, (s, .bad e) => (s, .bad e)
      | .bad e, (s, .ok _) => (s, .bad e)
      | .bad e, (s, .bad x) => (s, .bad (if errOrder x < errOrder e then x else e))

/-- A piece lies in the core's scratchpad. -/
def inScratch (p : Piece) : Bool := match p.loc with | .scratch _ => true | _ => false

/-- Scratchpad bytes as a load of the executing slot reads them in its issue cycle: the bank, and an X0 store of the cycle when one
ALIGN mask names both (R200). -/
def scratchNow (s : State) (off n : Nat) : List Byte :=
  let c := s.core s.cur.core
  let sees := s.cur.slot == .x1 && bitAt s.cur.info.align 4 && bitAt s.cur.info.align 5
  let m := if sees then c.endStores.foldl (fun m p => memSet m p.1 p.2) c.scratch else c.scratch
  memRead m off n

/-- The bytes of a load's scratchpad pieces. -/
def scratchBytes (s : State) (ps : List Piece) : List Byte :=
  ps.flatMap fun p => match p.loc with | .scratch off => scratchNow s off p.len | _ => []

/-- Scratchpad bytes of a store, written at the end of the cycle (R200). -/
def storeAtEnd (s : State) : List Piece → List Byte → State
  | [], _ => s
  | p :: r, data =>
    let s := match p.loc with
      | .scratch off => s.modCore s.cur.core fun c =>
          { c with endStores := c.endStores ++ (data.take p.len).zipIdx.map fun x => (off + x.2, x.1) }
      | _ => s
    storeAtEnd s r (data.drop p.len)

/-- The bytes of a store's other pieces. -/
def otherBytes : List Piece → List Byte → List Byte
  | [], _ => []
  | p :: r, data => (if inScratch p then [] else data.take p.len) ++ otherBytes r (data.drop p.len)

/-- A counted access of the executing op, entered in the core's list. -/
def enterAcc (s : State) (kind : AccKind) (ps : List Piece) (data : List Byte) (col : BitVec 3) (tag : Option (BitVec 3)) : State :=
  let (id, s) := s.bump
  modCurE s fun e =>
    { e with xacc := e.xacc ++ [{ id := id, slot := s.cur.slot, kind := kind, pieces := ps, data := data, col := col, since := s.now,
                                  tag := tag, info := s.cur.info, bits := s.cur.bits }] }

/-- An op counted in L that issues: it waits while the counter stands at 255 (R68). -/
def countL (s : State) (beats : Nat) (f : State → State) : Iss :=
  if 255 ≤ (curE s).cL then .wait else .go (f (modCurE s fun e => { e with cL := e.cL + 1 })) beats

/-- An op counted in S that issues. -/
def countS (s : State) (beats : Nat) (f : State → State) : Iss :=
  if 255 ≤ (curE s).cS then .wait else .go (f (modCurE s fun e => { e with cS := e.cS + 1 })) beats

/-- A store: its scratchpad bytes at the end of the cycle, the rest when it is performed; counted in S, its tag clears once its
operands are read (R63, R199, R200). -/
def storeIssue (s : State) (beats : Nat) (ps : List Piece) (data : List Byte) (col : BitVec 3) (tag : Option (BitVec 3)) : Iss :=
  if bankHeld s ps then .wait else countS s beats fun s =>
    tagOnly (enterAcc (storeAtEnd (useBanks s ps) ps data) .store (ps.filter fun p => !inScratch p) (otherBytes ps data) col none) tag

/-! ### Loads and stores (R201 to R204) -/

/-- The address of an XM op with scale `z`; under RC the upper four bits of OFS hold the count (R201, R204). -/
def xmAddr (s : State) (f : XMOp) (z : Nat) : W64 :=
  let o : W64 := if f.pol = 3 then sx (BitVec.ofNat 16 f.ofs.toNat) else sx f.ofs
  sReg (curE s) f.base.toNat + o * w64 z

/-- The read count of an RC access (R204). -/
def rcCount (s : State) (f : XMOp) : Nat :=
  let n := bits f.ofs 16 4
  if n = 0 then (sReg (curE s) (f.base.toNat + 1)).toNat % 16 else n

/-- Fields of an XM op: the policy is one of the op's, and an RC access with no count in OFS needs s(B + 1). -/
def polOk (f : XMOp) (rc : Bool) : Bool := f.pol != 3 || (rc && !(f.base == 63 && bits f.ofs 16 4 == 0))

/-- The addresses of the 128 lanes of a strided access. -/
def strideAddrs (s : State) (f : XMOp) : List (W64 × Nat) :=
  let a := xmAddr s f 4
  let d := sReg (curE s) (f.base.toNat + 1)
  (List.range 128).map fun i => (a + w64 i * d, 4)

/-- A fault that a reply carries, reported asynchronously (R202, R294, R297). -/
def replyFault (s : State) (core : Nat) (ctx : Ctx) (cause : BitVec 9) (addr : W64) : State :=
  raise s core { src := 10, cause := cause, levelE := true, async := true, ctx := ctx, addr := addr }

/-- VLD and SLD: to the scratchpad at exposed latency 6, counted elsewhere (R64, R199). Lost bytes of the scratchpad write no register, and
their fault is reported as that of a reply (R202). -/
def loadIssue (s : State) (f : XMOp) (len align : Nat) (kind : AccKind) (write : Nat → RegWrite) (tag : Option (BitVec 3)) : Iss :=
  if f.pol = 3 ∧ rcCount s f = 0 then xFault s 2
  else
    match access s (slotWho s 2) (xmAddr s f len) len align (xPol f.pol (rcCount s f)) with
    | (_, .bad e) => errFault e
    | (s, .ok ps) =>
      if bankHeld s ps then .wait
      else if ps.all inScratch then
        match loadKind s s.cur.core ps with
        | none => landGo (useBanks s ps) 6 [write (ofBytes (scratchBytes s ps))] tag
        | some k => landGo (replyFault (useBanks s ps) s.cur.core s.cur.ctx (class2 2 k) (xmAddr s f len)) 6 [] tag
      else countL s 1 fun s => enterAcc (useBanks s ps) kind ps [] 0 tag

/-- VLD (R201). -/
def execVld (f : XMOp) (s : State) : Out :=
  slotIssue s f.tagw f.taga true (decide (f.reg.toNat < 32) && f.col == 0 && polOk f true) fun s tag =>
    loadIssue s f 512 64 (.loadV f.reg.toNat) (fun v => .v f.reg.toNat (BitVec.ofNat 4096 v) (BitVec.allOnes 512)) tag

/-- SLD (R201). -/
def execSld (f : XMOp) (s : State) : Out :=
  slotIssue s f.tagw f.taga true (f.col == 0 && polOk f true) fun s tag =>
    loadIssue s f 8 8 (.loadS f.reg.toNat) (fun v => .s f.reg.toNat (w64 v)) tag

/-- VLDS: counted in every space; its scratchpad lanes are read in the issue cycle (R199 to R201). -/
def execVlds (f : XMOp) (s : State) : Out :=
  slotIssue s f.tagw f.taga true (decide (f.reg.toNat < 32) && f.col == 0 && polOk f false && f.base != 63) fun s tag =>
    match accessAll s (slotWho s 2) 4 (xPol f.pol 0) (strideAddrs s f) with
    | (_, .bad e) => errFault e
    | (s, .ok ps) => if bankHeld s ps then .wait else countL s 4 fun s => enterAcc (useBanks s ps) (.loadV f.reg.toNat) ps (scratchBytes s ps) 0 tag

/-- VST (R201). -/
def execVst (f : XMOp) (s : State) : Out :=
  slotIssue s f.tagw f.taga true (decide (f.reg.toNat < 32) && polOk f false) fun s tag =>
    match access s (slotWho s 3) (xmAddr s f 512) 512 64 (xPol f.pol 0) with
    | (_, .bad e) => errFault e
    | (s, .ok ps) => storeIssue s 1 ps (toBytes 512 (vReg (curE s) f.reg.toNat).toNat) f.col tag

/-- SST (R201). -/
def execSst (f : XMOp) (s : State) : Out :=
  slotIssue s f.tagw f.taga true (polOk f false) fun s tag =>
    match access s (slotWho s 3) (xmAddr s f 8) 8 8 (xPol f.pol 0) with
    | (_, .bad e) => errFault e
    | (s, .ok ps) => storeIssue s 1 ps (toBytes 8 (sReg (curE s) f.reg.toNat).toNat) f.col tag

/-- VSTS: lanes in ascending order (R201). -/
def execVsts (f : XMOp) (s : State) : Out :=
  slotIssue s f.tagw f.taga true (decide (f.reg.toNat < 32) && polOk f false && f.base != 63) fun s tag =>
    match accessAll s (slotWho s 3) 4 (xPol f.pol 0) (strideAddrs s f) with
    | (_, .bad e) => errFault e
    | (s, .ok ps) => storeIssue s 4 ps (toBytes 512 (vReg (curE s) f.reg.toNat).toNat) f.col tag

/-- PREF: the lines of the 512 bytes into L1 under WB; an address that fails a check is dropped (R205). -/
def execPref (f : XMOp) (s : State) : Out :=
  slotIssue s f.tagw f.taga true (f.reg == 0 && f.col == 0 && decide (f.pol.toNat ≤ 1)) fun s tag =>
    match access s (slotWho s 2) (xmAddr s f 512) 512 1 .wb with
    | (_, .bad _) => .go (tagOnly s tag) 1
    | (s, .ok ps) => .go (tagOnly (ps.foldl (fun s p => if f.pol = 0 then prefetchPiece s s.cur.core p else prefetchL2 s p) s) tag) 1

/-- XNOP (R100). -/
def execXnop (f : XROp) (s : State) : Out :=
  slotIssue s f.tagw f.taga true (f.rsv == 0 && f.sc == 0 && f.q == 0 && f.tmo == 0 && f.fn == 0 && f.c == 0 && f.b == 0 && f.a == 0)
    fun s tag => .go (tagOnly s tag) 1

/-! ### Line operations (R205) -/

/-- The physical ranges of the pages of a span that translate with a right, page by page from `va` to `hi`. -/
def spanRanges (s : State) (bay hi : Nat) : Nat → Nat → List (Nat × Nat)
  | 0, _ => []
  | fuel + 1, va =>
    if hi ≤ va then []
    else
      match walk s bay va with
      | .leaf t =>
        let e := min hi (t.va + t.size)
        let rest := spanRanges s bay hi fuel (t.va + t.size)
        if t.r || t.w || t.x then (t.pa + (va - t.va), t.pa + (e - t.va)) :: rest else rest
      | .notMapped f =>
        let size := if f.lvl = 0 then 2 ^ 39 else leafSize f.lvl false
        spanRanges s bay hi fuel (va - va % size + size)

/-- The lines of a core's L1 that overlap a span of space 0x0. -/
def spanLines (s : State) (core : Nat) (va len : Nat) : List Nat :=
  let rs := spanRanges s (s.bayOn core) (va + len) (len / 4096 + 2) va
  ((s.core core).l1.filter fun l => rs.any fun r => decide (r.1 < (l.pa + 1) * 128 ∧ l.pa * 128 < r.2)).map (·.pa)

/-- Writes back the dirty bytes of the L1 lines that overlap a span, and invalidates them unless they are kept. -/
def treatSpan (s : State) (core : Nat) (va len : Nat) (keep : Bool) : State :=
  (spanLines s core va len).foldl (fun s ln => if keep then cleanLine s core ln else flushLine s core ln) s

/-- INVL and WBL: their lines are treated when they are performed. -/
def lineIssue (s : State) (f : XROp) (keep : Bool) : Out :=
  xGated s f (f.sc == 0 && f.fn == 0 && f.c == 0) fun s tag =>
    let a := sReg (curE s) f.a.toNat
    let n := sReg (curE s) f.b.toNat
    let sp := a.toNat / 2 ^ 60
    if n ≠ 0 ∧ (4 ≤ sp ∨ (sp = 0 ∧ 2 ^ 56 < a.toNat + n.toNat)) then .fault 0x09A a 0 0
    else countS s 1 fun s => tagOnly (enterAcc s (.lines a (if sp = 0 then n else 0) keep) [] [] 0 none) tag

/-- INVL (R205). -/
def execInvl (f : XROp) (s : State) : Out := lineIssue s f false

/-- WBL (R205). -/
def execWbl (f : XROp) (s : State) : Out := lineIssue s f true

/-! ### Atomics, gathers, scatters (R214 to R217) -/

/-- An atomic of the executing op on the scratchpad is performed at its bank in its issue cycle, so that it keeps its place among the
slot's other scratchpad accesses; under an ALIGN mask it follows the X0 store of the cycle (R200). Lost bytes fault it with its reply
(R202, R389). -/
def scratchAmo (s : State) (id op : Nat) (wide : Bool) (operand cmp : W64) (ps : List Piece) : State :=
  match ps.head?.map fun p => p.loc with
  | some (Loc.scratch off) =>
    let n := amoLen wide
    let mark (s : State) (f : XAcc → XAcc) : State :=
      modCurE s fun e => { e with xacc := e.xacc.map fun x => if x.id = id then f { x with done := true } else x }
    let lost := placeKind s (some s.cur.core) (.scratch off) n
    if lost.isSome then mark s fun x => { x with fails := lost } else
    let old := ofBytes (scratchNow s off n)
    let new := toBytes n (amoNew op (8 * n) old operand.toNat cmp.toNat)
    let s := s.modCore s.cur.core fun c =>
      let meets := c.endStores.any fun x => decide (off ≤ x.1 ∧ x.1 < off + n)
      let sees := s.cur.slot == .x1 && bitAt s.cur.info.align 4 && bitAt s.cur.info.align 5
      { c with scratch := memWrite c.scratch off new
               endStores := if meets && sees then c.endStores ++ new.zipIdx.map fun x => (off + x.2, x.1) else c.endStores }
    mark s fun x => { x with got := toBytes 8 old }
  | _ => s

/-- AMO (R217). -/
def execAmo (f : XROp) (s : State) : Out :=
  let op := bits f.fn 0 4
  let wide := bitAt f.fn 4
  xGated s f (decide (op ≤ 10) && !bitAt f.fn 5) fun s tag =>
    let e := curE s
    let va := sReg e f.b.toNat
    match amoAccess s s.cur.core op wide va none with
    | (_, .bad x) => errFault x
    | (s, .ok ps) =>
      if bankHeld s ps then .wait else countL s 1 fun s =>
        scratchAmo (enterAcc (useBanks s ps) (.atomic (BitVec.ofNat 4 op) wide (sReg e f.c.toNat) (sReg e f.a.toNat) f.a.toNat) ps [] f.sc tag)
          s.fresh op wide (sReg e f.c.toNat) (sReg e f.a.toNat) ps

/-- The count of a gather or scatter: sF[7:0], with the bits above zero. -/
def laneCount (s : State) (f : XROp) : Option Nat :=
  let v := (sReg (curE s) f.fn.toNat).toNat
  if 255 < v ∨ 128 < v then none else some v

/-- The addresses that a gather or scatter forms. -/
def laneAddrs (s : State) (f : XROp) (n size : Nat) : List (W64 × Nat) :=
  let e := curE s
  let v := (vReg e (f.a.toNat % 32)).toNat
  (List.range n).map fun i => (sReg e f.b.toNat + w64 (lane v 32 i), size)

/-- GAPUSH (R214): its scratchpad elements are read in its issue cycle where other accesses leave their banks over (R195). -/
def execGapush (f : XROp) (s : State) : Out :=
  xGated s f (decide (f.a.toNat < 32) && decide (f.c.toNat ≤ 2) && f.sc == 0) fun s tag =>
    let size := 2 ^ f.c.toNat
    match laneCount s f with
    | none => xFault s 2
    | some n =>
      if n = 0 then .go (tagOnly s tag) 4
      else if 512 < (curE s).gq.length + n then xFault s 3
      else
        match accessAll s (slotWhoBound s 2) size .wb (laneAddrs s f n size) with
        | (_, .bad e) => errFault e
        | (s, .ok ps) =>
          countL s 4 fun s =>
            let id := s.fresh
            let data := if leftOver s s.cur.core (pieceBanks ps) then scratchBytes s ps else []
            modCurE (enterAcc s (.gather size) ps data 0 tag) fun e =>
              { e with gq := e.gq ++ List.replicate n { acc := id, size := size, val := none } }

/-- SCPUSH (R216). A = 31 is found in the op's own bits, so it faults whatever the predicate reads (R197). -/
def execScpush (f : XROp) (s : State) : Out :=
  slotIssue s f.tagw f.taga true (f.rsv == 0 && f.tmo == 0 && decide (f.a.toNat < 32) && decide (f.c.toNat ≤ 2)) fun s tag =>
    let size := 2 ^ f.c.toNat
    if f.a = 31 then xFault s 2
    else if !qReg (curE s) f.q.toNat then .go (tagOnly s tag) 1
    else
      match laneCount s f with
      | none => xFault s 2
      | some n =>
        if n = 0 then .go (tagOnly s tag) 4
        else
          match accessAll s (slotWhoBound s 3) size .wb (laneAddrs s f n size) with
          | (_, .bad e) => errFault e
          | (s, .ok ps) =>
            let v := (vReg (curE s) (f.a.toNat + 1)).toNat
            storeIssue s 4 ps ((List.range n).flatMap fun i => toBytes size (lane v 32 i)) f.sc tag

/-! ### Performing a counted access (R199, R200) -/

/-- The bytes of a load, its scratchpad bytes taken as they were read at issue; those of a gather that has not read them yet are read now. -/
def loadPieces (s : State) (core : Nat) (task : Option Nat) (seen : List Nat) (data : List Byte) : List Piece → State × List Byte
  | [] => (s, [])
  | p :: r =>
    if inScratch p && !data.isEmpty then
      let (s, b) := loadPieces s core task seen (data.drop p.len) r
      (s, data.take p.len ++ b)
    else
      let ln := match p.loc with | .phys pa => pa / 128 | _ => 0
      let (s, a) := readPiece s (some core) true task (!seen.contains ln) p
      let (s, b) := loadPieces s core task (ln :: seen) data r
      (s, a ++ b)

/-- The access kind of a counted access (R307). -/
def accClass (k : AccKind) : Nat :=
  match k with
  | .store => 3
  | .lines .. => 3
  | .atomic .. => 4
  | _ => 2

/-- The fault kind that a counted access meets at its target: 4 where an access table denies it, or that of the bytes that it reads (R202,
R370, R389). A line that the L1 holds is not read again. -/
def targetFault (s : State) (core : Nat) (a : XAcc) : Option Nat :=
  let k := accClass a.kind
  if a.pieces.any fun p => pieceDenied s p (k != 3) (k != 2) then some 4
  else if k = 3 then none
  else (a.pieces.filter fun p => k == 4 || !l1Holds s core p).findSome? fun p => placeKind s (some core) p.loc p.len

/-- Performs an access: at its banks, in its L1 or at its point of coherence; one that meets a fault at its target has no effect there
(R202, R370). -/
def performAcc (s : State) (core : Nat) (a : XAcc) : State :=
  let task := (s.core core).task
  let mark (s : State) (f : XAcc → XAcc) : State :=
    s.modE core fun e => { e with xacc := e.xacc.map fun x => if x.id = a.id then f { x with done := true } else x }
  if a.done then s
  else if (targetFault s core a).isSome then mark s fun x => { x with fails := targetFault s core a }
  else
    match a.kind with
    | .store => mark (writePieces s (some core) true task a.col a.pieces a.data) id
    | .lines va len keep => mark (treatSpan s core va.toNat len.toNat keep) id
    | .atomic op wide operand cmp _ =>
      let va := (a.pieces.head?.map (·.va)).getD 0
      let (s, old) := amoPerform s core op.toNat wide va a.pieces operand cmp
      mark s fun x => { x with got := toBytes 8 old.toNat }
    | _ =>
      let (s, b) := loadPieces s core task [] a.data a.pieces
      mark s fun x => { x with got := b }

/-- The accesses of a slot from the oldest up to one, in order. -/
def upTo (l : List XAcc) (a : XAcc) : List XAcc := l.filter fun x => x.slot = a.slot ∧ x.id ≤ a.id

/-- A REL of the slot stands before an access: the access is performed only after its increment (R220). -/
def behindRel (e : Engine) (a : XAcc) : Bool :=
  e.bg.any fun b => b.slot == some a.slot && decide (b.id < a.id) && match b.kind with | .rel .. => true | _ => false

/-- What an access writes has room in the shadow arena (R338). -/
def accRoom (s : State) (core : Nat) (a : XAcc) : Bool :=
  match a.kind with
  | .store => shadowRoom s (s.core core).task a.pieces
  | .atomic op _ _ _ _ => amoRoom s core op.toNat a.pieces
  | _ => true

/-- An access, or an older one of its slot, waits for a line of the shadow arena. -/
def accStarves (s : State) (core : Nat) (a : XAcc) : Bool := (upTo (s.core core).e.xacc a).any fun x => !x.done && !accRoom s core x

/-- An access of a slot waits for a line of the shadow arena. -/
def slotStarves (s : State) (core : Nat) (slot : Slot) : Bool :=
  (s.core core).e.xacc.any fun x => x.slot == slot && !x.done && !accRoom s core x

/-- Performs an access after the older ones of its slot. -/
def performUpTo (s : State) (core : Nat) (a : XAcc) : State := (upTo (s.core core).e.xacc a).foldl (fun s x => performAcc s core x) s

/-- Removes a counted access. -/
def dropAcc (s : State) (core id : Nat) : State := s.modE core fun e => { e with xacc := e.xacc.filter fun x => x.id ≠ id }

/-- The access reads. -/
def accReads (a : XAcc) : Bool := accClass a.kind != 3

/-- An access has met a fault kind at its target: the fault is reported with its address, and an uncorrectable error in a cell of the Cask
invalidates its entry (R202, R297, R364). -/
def accFault (s : State) (core : Nat) (a : XAcc) (kind : Nat) : State :=
  let who : Who := { core := some core, bay := s.bayOn core, kind := accClass a.kind, task := (s.core core).task }
  let s := if accReads a then a.pieces.foldl (fun s p => dropRead s who kind p.va p.len) s else s
  replyFault s core a.info.ctx (class2 (accClass a.kind) kind) ((a.pieces.head?.map (·.va)).getD 0)

/-- What the reply of an access reports: the fault that it met at its target, if any. -/
def accReport (s : State) (core : Nat) (a : XAcc) : State :=
  match a.fails with
  | some k => accFault s core a k
  | none => s

/-- An access leaves for another package when it is performed, and its reply or acknowledgement comes later (R370, R373, R374). -/
def departs (s : State) (core : Nat) (a : XAcc) : Bool :=
  !a.done && (shadowTask s (s.core core).task).isNone && a.pieces.any fun p => (remoteOf s p).isSome && !l1Holds s core p

/-- What the reply of a load or atomic writes. -/
def replyWrites (a : XAcc) : List RegWrite :=
  let v := ofBytes a.got
  match a.kind with
  | .loadV n => [.v n (BitVec.ofNat 4096 v) (BitVec.allOnes 512)]
  | .loadS n => [.s n (w64 v)]
  | .atomic _ _ _ _ d => [.s d (w64 v)]
  | _ => []

/-- The access of a number that an event may complete: issued in an earlier cycle, and behind no REL of its slot. -/
def accReady (s : State) (core id : Nat) : Option XAcc :=
  match (s.core core).e.xacc.find? (·.id = id) with
  | none => none
  | some a => if a.since < s.now ∧ !behindRel (s.core core).e a then some a else none

/-- COUNTED_REPLY (R199, R297): the reply of a load or atomic arrives; its register is written, or its fault is reported, its count
is released, and its tag clears in the next cycle. An access to another package takes two such events: its request leaves, and its reply
arrives. -/
def execCountedReply (core id : Nat) (s : State) : Out :=
  match accReady s core id with
  | none => .next s
  | some a =>
    match a.kind with
    | .store => .next s
    | .lines .. => .next s
    | .gather _ => .next s
    | _ =>
      if accStarves s core a then .next (starve s core)
      else if departs s core a then .next (performUpTo s core a)
      else
        let s := performUpTo s core a
        match (s.core core).e.xacc.find? (·.id = id) with
        | none => .next s
        | some a =>
          let s := (dropAcc s core id).modE core fun e => { e with cL := e.cL - 1 }
          let s := landSince s core a.slot a.since 1 (if a.fails.isSome then [] else replyWrites a) a.tag
          .next (accReport s core a)

/-- STORE_PERFORMED (R199): a store, or an INVL or WBL, is performed and its S count released; a store to another package leaves first and
is performed with the acknowledgement (R273). -/
def execStorePerformed (core id : Nat) (s : State) : Out :=
  match accReady s core id with
  | none => .next s
  | some a =>
    let isStore := match a.kind with | .store => true | .lines .. => true | _ => false
    if !isStore then .next s
    else if accStarves s core a then .next (starve s core)
    else if departs s core a then .next (performUpTo s core a)
    else
      let s := performUpTo s core a
      match (s.core core).e.xacc.find? (·.id = id) with
      | none => .next s
      | some a =>
        .next (accReport ((dropAcc s core id).modE core fun e => { e with cS := e.cS - 1 }) core a)

/-- The first element of a gather that has not arrived takes its value; `k` counts those that have. -/
def arrive (id : Nat) (val : Nat → BitVec 32) : Nat → List GElem → List GElem
  | _, [] => []
  | k, g :: r =>
    if g.acc = id then (match g.val with | some _ => g :: arrive id val (k + 1) r | none => { g with val := some (val k) } :: r)
    else g :: arrive id val k r

/-- A gather that found scratchpad banks taken in its issue cycle reads them in a later cycle that leaves them over (R195). -/
def lateGather (a : XAcc) : Bool := !a.done && a.data.isEmpty && a.pieces.any inScratch

/-- GATHER_ELEMENT_ARRIVAL (R214): the next element of a gather returns; with the last the gather completes. -/
def execGatherElementArrival (core id : Nat) (s : State) : Out :=
  match accReady s core id with
  | none => .next s
  | some a =>
    match a.kind with
    | .gather size =>
      if accStarves s core a then .next (starve s core)
      else if lateGather a && !leftOver s core (pieceBanks a.pieces) then .next s
      else if departs s core a then .next (performUpTo s core a)
      else
        let s := performUpTo s core a
        match (s.core core).e.xacc.find? (·.id = id) with
        | none => .next s
        | some a =>
          let (n, s) := s.bump
          let val (k : Nat) : BitVec 32 :=
            if a.fails.isSome then Config.lostElement n else BitVec.ofNat 32 (ofBytes ((a.got.drop (k * size)).take size))
          let s := s.modE core fun e => { e with gq := arrive id val 0 e.gq }
          if (s.core core).e.gq.any fun g => g.acc == id && g.val.isNone then .next s
          else
            let s := (dropAcc s core id).modE core fun e => { e with cL := e.cL - 1 }
            .next (accReport (landSince s core a.slot a.since 1 [] a.tag) core a)
    | _ => .next s

end Sys2Proof.Machine
end

