-- ==== Sys2Proof/Machine/Fibre.lean ====
section
/-! DEFINITION. Fibre streams (R229 to R247, R315): their ops, the examination of elements, delivery, malformed data, parking on a
replayable fault, and stopping at an element boundary. -/

namespace Sys2Proof.Machine

/-! ### Streams -/

/-- Stream `n` of a core. -/
def fStream (s : State) (core n : Nat) : FStream := rd (s.core core).e.f n {}

/-- The state with a stream changed. -/
def modF (s : State) (core n : Nat) (f : FStream → FStream) : State :=
  s.modE core fun e => { e with f := wr e.f n (f (rd e.f n {})) }

/-- The stream fN of an A field. -/
def fN (f : XROp) : Nat := bits f.a 0 3

/-- The stream fM of an A field. -/
def fM (f : XROp) : Nat := bits f.a 3 3

/-- The streams a fibre op names, and its opcode (R237). -/
def fibreNames : Instr → List Nat × Nat
  | .fopen f => ([fN f], 0x30)
  | .fnext f => ([fN f], 0x32)
  | .fint f => ([fN f, fM f], 0x33)
  | .funi f => ([fN f, fM f], 0x34)
  | .fskip f => ([fN f], 0x35)
  | .fchild f => ([fN f, fM f], 0x36)
  | .fload f => ([fN f], 0x39)
  | .fval f => ([fN f], 0x3A)
  | _ => ([], 0)

/-- The tag of a memory-reading fibre op. -/
def fibreTag : Instr → Option (BitVec 3)
  | .fopen f => tagOf f.taga
  | .fnext f => tagOf f.taga
  | .fint f => tagOf f.taga
  | .funi f => tagOf f.taga
  | .fskip f => tagOf f.taga
  | .fchild f => tagOf f.taga
  | .fload f => tagOf f.taga
  | .fval f => tagOf f.taga
  | _ => none

/-! ### Issue (R234, R235, R238) -/

/-- Two lists of streams share one. -/
def meet (a b : List Nat) : Bool := a.any fun n => b.contains n

/-- An op on one of these streams has issued and not completed, or an X0 op of this cycle names one (R235). -/
def fBusy (s : State) (names : List Nat) : Bool :=
  let e := curE s
  e.xrun.toArray.toList.any (fun r => match r with | some r => meet (fibreNames r.instr).1 names | none => false) ||
    e.xacc.any (fun a => bits a.bits 0 7 == 0x38 && a.kind == .store && names.contains (bits a.bits 7 3)) ||
    (e.fIssued.1 == s.now && meet e.fIssued.2 names)

/-- An op that names streams waits: one of them is busy, or pending for another op (R235). -/
def fWait (s : State) (names : List Nat) (opc : Nat) : Bool :=
  fBusy s names || names.any fun n =>
    let f := rd (curE s).f n {}
    f.pend != 0 && !(f.popc.toNat == opc && f.pslot == (s.cur.slot == .x1))

/-- Notes that an op of this cycle names streams. -/
def noteStreams (s : State) (core : Nat) (names : List Nat) : State :=
  s.modE core fun e => { e with fIssued := (s.now, if e.fIssued.1 = s.now then names ++ e.fIssued.2 else names) }

/-- An op of X0 that names streams. -/
def noteX0 (s : State) (names : List Nat) : State := if s.cur.slot = .x0 then noteStreams s s.cur.core names else s

/-- A closed stream among those named (R238); what an op that has not completed makes of its own stream is not yet known. -/
def anyClosed (s : State) (names : List Nat) : Bool := names.any fun n => !(rd (curE s).f n {}).isOpen && !fBusy s [n]

/-- What the ops that a stop found in progress had read of these streams: another op acts on them now, so it is read again. -/
def forgetRead (s : State) (names : List Nat) : State :=
  let drop (o : QOp) : QOp :=
    { o with again := o.again.map fun r =>
        { r with examined := r.examined.filter fun p => !names.contains p.1, words := r.words.filter fun p => !names.contains p.1 } }
  modCurE s fun e => { e with slotQ := e.slotQ.map (·.map drop) }

/-- Issues a fibre op. What its fields and operands show is refused as soon as conditions 1 to 3 of R61 hold, whether it must wait for its
streams or not (R83), a closed stream as soon as no op on that stream is in progress (R235, R238). One that a stop found in progress goes
on with what it had read; a false predicate leaves it without effect (R197, R247). `pairOk` are the conditions on its stream and
vector numbers, `open_` the streams that must be open, `early` what its operands show. -/
def fibreIssue (s : State) (f : XROp) (names : List Nat) (opc : Nat) (gated fieldsOk pairOk : Bool) (open_ : List Nat)
    (early : State → Option Iss) (body : State → Option (BitVec 3) → Iss) : Out :=
  slotIssue s f.tagw f.taga true (f.rsv == 0 && f.tmo == 0 && fieldsOk) fun s tag =>
    let waits := fWait s names opc
    match (slotQ (curE s) s.cur.slot).head?.bind (·.again) with
    | some r =>
      if waits then .wait
      else
        .go (modCurE (noteX0 s names) fun e =>
          { e with xrun := wr e.xrun (slotNum s.cur.slot - 4) (some { r with since := s.now }) }) 1
    | none =>
      if !pairOk then xFault s 2
      else if gated && !qReg (curE s) f.q.toNat then (if waits then .wait else .go (tagOnly (noteX0 s names) tag) 1)
      else if anyClosed s open_ then xFault s 2
      else
        match early s with
        | some x => x
        | none => if waits then .wait else body (forgetRead (noteX0 s names) names) tag

/-- An op that assembles pairs. -/
def pairOp : Instr → Bool
  | .fnext _ => true
  | .fint _ => true
  | .funi _ => true
  | _ => false

/-- A memory-reading op takes its unit; one that assembles pairs takes those that fN's batch register holds for it (R240, R315). -/
def fibreRun (s : State) (i : Instr) (arg : W64) (note : Nat) (vec : V4096) (ps : List Piece) : Iss :=
  let names := (fibreNames i).1
  let f := fStream s s.cur.core (names.headD 0)
  let r : XRun :=
    { instr := i, slot := s.cur.slot, info := s.cur.info, bits := s.cur.bits, since := s.now, arg := arg, note := note, pieces := ps
      vec := vec, lane := if pairOp i then f.pend.toNat else 0, vals := if pairOp i then f.coord else 0
      posA := if pairOp i then f.posA else 0, posB := if pairOp i then f.posB else 0, got := scratchBytes s ps
      found := names.map fun n => let x := fStream s s.cur.core n; (n, x.popc, x.pslot) }
  .go (modCurE (useBanks s ps) fun e => { e with xrun := wr e.xrun (slotNum s.cur.slot - 4) (some r) }) 1

/-- A field A that names one stream only. -/
def oneStream (f : XROp) : Bool := bits f.a 3 3 == 0

/-- An operand with bits above 31 is refused (R238). -/
def wideOperand (r : Nat) (s : State) : Option Iss := if 2 ^ 32 ≤ (sReg (curE s) r).toNat then some (xFault s 2) else none

/-- Nothing in the operands is refused. -/
def noneEarly (_ : State) : Option Iss := none

/-- The access of FSAVE and FLOAD is refused for what the checks of R202 find. -/
def stateAccessBad (kind r : Nat) (s : State) : Option Iss :=
  match access s (slotWho s kind) (sReg (curE s) r) 64 64 .wb with
  | (_, .bad e) => some (errFault e)
  | (_, .ok _) => none

/-- Stream and vector numbers that FINT and FUNI accept (R238). -/
def pairFields (f : XROp) : Bool := fN f != fM f && f.b != 31

/-- FOPEN (R237 to R239). -/
def execFopen (f : XROp) (s : State) : Out :=
  fibreIssue s f [fN f] 0x30 true (oneStream f && bits f.fn 2 4 == 0 && f.sc == 0) true [] (wideOperand f.c.toNat) fun s _ =>
    fibreRun s (.fopen f) (sReg (curE s) f.b.toNat) (sReg (curE s) f.c.toNat).toNat 0 []

/-- FCLOSE (R238). -/
def execFclose (f : XROp) (s : State) : Out :=
  fibreIssue s f [fN f] 0x31 true (oneStream f && f.b == 0 && f.c == 0 && f.fn == 0 && f.sc == 0) true [] noneEarly fun s tag =>
    .go (tagOnly (modF s s.cur.core (fN f) fun x => { x with isOpen := false }) tag) 1

/-- FNEXT (R240). -/
def execFnext (f : XROp) (s : State) : Out :=
  fibreIssue s f [fN f] 0x32 true (oneStream f && decide (f.b.toNat < 32) && f.fn == 0 && f.sc == 0) true [fN f] noneEarly fun s _ =>
    fibreRun s (.fnext f) 0 0 0 []

/-- FINT (R240). -/
def execFint (f : XROp) (s : State) : Out :=
  fibreIssue s f [fN f, fM f] 0x33 true (decide (f.b.toNat < 32) && f.fn == 0 && f.sc == 0) (pairFields f) [fN f, fM f] noneEarly
    fun s _ => fibreRun s (.fint f) 0 0 0 []

/-- FUNI (R240). -/
def execFuni (f : XROp) (s : State) : Out :=
  fibreIssue s f [fN f, fM f] 0x34 true (decide (f.b.toNat < 32) && f.fn == 0 && f.sc == 0) (pairFields f) [fN f, fM f] noneEarly
    fun s _ => fibreRun s (.funi f) 0 0 0 []

/-- FSKIP (R240). -/
def execFskip (f : XROp) (s : State) : Out :=
  fibreIssue s f [fN f] 0x35 true (oneStream f && f.c == 0 && f.fn == 0 && f.sc == 0) true [fN f] (wideOperand f.b.toNat) fun s _ =>
    fibreRun s (.fskip f) (sReg (curE s) f.b.toNat) 0 0 []

/-- FCHILD (R239). -/
def execFchild (f : XROp) (s : State) : Out :=
  fibreIssue s f [fN f, fM f] 0x36 true (f.b == 0 && f.fn == 0 && f.sc == 0) true [fN f, fM f] (wideOperand f.c.toNat) fun s _ =>
    fibreRun s (.fchild f) 0 (sReg (curE s) f.c.toNat).toNat 0 []

/-- The position that the element at CUR would have (R242). -/
def curPos (f : FStream) : BitVec 32 :=
  match f.kind.toNat with
  | 0 => f.vbase + f.cur
  | 1 => f.cur
  | 2 => f.vbase + f.run
  | _ => f.ppos

/-- A stream is at end (R233). -/
def atEnd (f : FStream) : Bool := f.cur == f.endp

/-- FPOS (R242). -/
def execFpos (f : XROp) (s : State) : Out :=
  fibreIssue s f [fN f] 0x37 false (oneStream f && f.b == 0 && f.fn == 0 && f.q == 0 && f.sc == 0) true [fN f] noneEarly fun s tag =>
    let x := rd (curE s).f (fN f) {}
    landGo s 2 [.s f.c.toNat (w64 ((curPos x).toNat + if atEnd x then 2 ^ 63 else 0))] tag

/-- FEND (R242). -/
def execFend (f : XROp) (s : State) : Out :=
  fibreIssue s f [fN f] 0x3B false (oneStream f && f.b == 0 && f.c == 0 && f.fn == 0 && f.sc == 0) true [fN f] noneEarly fun s tag =>
    landGo s 1 [.q f.q.toNat (atEnd (rd (curE s).f (fN f) {}))] tag

/-- The 64-byte state of a stream (R233). -/
def streamWords (f : FStream) : List W64 :=
  let b (x : Bool) : Nat := if x then 1 else 0
  [f.desc,
   w64 (f.vfmt.toNat * 2 ^ 57 + b f.lv * 2 ^ 56 + b f.pslot * 2 ^ 55 + f.popc.toNat * 2 ^ 48 + f.pend.toNat * 2 ^ 40 +
     b f.parked * 2 ^ 39 + b f.cw * 2 ^ 38 + b f.nu * 2 ^ 37 + b f.isOpen * 2 ^ 36 + f.kind.toNat * 2 ^ 34 + f.level.toNat * 2 ^ 32 +
     f.ppos.toNat),
   w64 (f.endp.toNat * 2 ^ 32 + f.cur.toNat), w64 (f.nval.toNat * 2 ^ 32 + f.last.toNat),
   w64 (f.stated.toNat * 2 ^ 32 + f.run.toNat), f.arr1, w64 (f.extent.toNat * 2 ^ 32 + f.vbase.toNat), f.values]

/-- FSAVE: a slot store of 64 bytes (R243). -/
def execFsave (f : XROp) (s : State) : Out :=
  fibreIssue s f [fN f] 0x38 false (oneStream f && f.c == 0 && f.fn == 0 && f.q == 0) true [fN f] (stateAccessBad 3 f.b.toNat) fun s tag =>
    match access s (slotWho s 3) (sReg (curE s) f.b.toNat) 64 64 .wb with
    | (_, .bad e) => errFault e
    | (s, .ok ps) => storeIssue s 1 ps (wordBytes (streamWords (rd (curE s).f (fN f) {}))) f.sc tag

/-- FLOAD: a slot load of 64 bytes, which reads the scratchpad in its issue cycle (R200, R243). -/
def execFload (f : XROp) (s : State) : Out :=
  fibreIssue s f [fN f] 0x39 false (oneStream f && f.c == 0 && f.fn == 0 && f.q == 0 && f.sc == 0) true [] (stateAccessBad 2 f.b.toNat) fun s _ =>
    match access s (slotWho s 2) (sReg (curE s) f.b.toNat) 64 64 .wb with
    | (_, .bad e) => errFault e
    | (s, .ok ps) =>
      if bankHeld s ps then .wait
      else fibreRun s (.fload f) (sReg (curE s) f.b.toNat) (if ps.all inScratch then (loadKind s s.cur.core ps).getD 0 else 0) 0 ps

/-- FVAL (R241). -/
def execFval (f : XROp) (s : State) : Out :=
  fibreIssue s f [fN f] 0x3A true (oneStream f && decide (f.b.toNat < 32) && decide (f.c.toNat < 32) && f.sc == 0) true [fN f]
    (fun s => if 128 < (sReg (curE s) f.fn.toNat).toNat then some (xFault s 2) else none)
    fun s _ => fibreRun s (.fval f) 0 (sReg (curE s) f.fn.toNat).toNat (vReg (curE s) f.c.toNat) []

/-! ### Work of an op in progress -/

/-- An op in progress: the state, its pairs or lanes so far, the elements it has examined, the bitmap words it has read, by stream, and
whether the firmware context emitted it (R370). -/
structure FWork where
  s : State
  n : Nat
  co : V4096
  pa : V4096
  pb : V4096
  ex : List (Nat × Option (Nat × Nat))
  words : List (Nat × Nat × W64)
  fw : Bool
  deriving DecidableEq, Repr

/-- What stops an op: a class-3 condition of a stream (R244), or a fault of a stream read. -/
inductive FErr where
  | trap (stream kind : Nat) (addr det0 det1 : W64)
  | access (stream : Nat) (e : AErr)
  deriving DecidableEq, Repr

/-- What one step of an op answers. -/
inductive FStep where
  | more (w : FWork)
  | done (w : FWork)
  | stop (w : FWork) (e : FErr)
  deriving DecidableEq, Repr

/-- What reading an entry answers. -/
inductive FRead where
  | ok (w : FWork) (v : Nat)
  | bad (w : FWork) (e : FErr)
  deriving DecidableEq, Repr

/-- Reads an entry of `len` bytes for a stream: a load of the slot through the L1 under WB, of access kind 7 (R236). -/
def fRead (w : FWork) (core stream : Nat) (va : W64) (len : Nat) : FRead :=
  let task := (w.s.core core).task
  let who : Who := { core := some core, bay := w.s.bayOn core, kind := 7, task := task, agent := some (8 + stream), fw := w.fw }
  match access w.s who va len len .wb with
  | (s, .bad e) => .bad { w with s := s } (.access stream e)
  | (s, .ok ps) =>
    match loadKind s core ps with
    | some k => .bad { w with s := dropRead s who k va len } (.access stream { cause := class2 7 k, addr := va })
    | none =>
      let (s, b) := readPieces s (some core) true task [] ps
      .ok { w with s := s } (ofBytes b)

/-- A stream changed. -/
def wStream (w : FWork) (core stream : Nat) (f : FStream → FStream) : FWork := { w with s := modF w.s core stream f }

/-- Bytes of a coordinate. -/
def coordLen (cw : Bool) : Nat := if cw then 4 else 2

/-- The pages that an open stream's cursor comes to in its coordinate array or bitmap (R267). -/
def streamPages (f : FStream) : List (Nat × Nat) :=
  let z := coordLen f.cw
  let range : Nat × Nat := match f.kind.toNat with
    | 1 => (f.arr1.toNat + z * f.cur.toNat, z * (f.endp - f.cur).toNat)
    | 2 => (f.arr1.toNat + f.cur.toNat / 64 * 8, (f.endp.toNat + 63) / 64 * 8 - f.cur.toNat / 64 * 8)
    | 3 => (f.arr1.toNat + z * f.ppos.toNat, z)
    | _ => (0, 0)
  (pagesOf range.1 (min range.2 (34 * 4096))).map fun x => (7, x)

/-- The translation of a page by the fibre streams of a core that come to it (R267); a parked one translates nothing ahead. -/
def streamsAhead (s : State) (core va : Nat) : State :=
  (List.range 8).foldl (fun s n =>
    let f := fStream s core n
    let who : Who := { core := some core, bay := s.bayOn core, kind := 7, task := (s.core core).task, agent := some (8 + n) }
    if f.isOpen && f.park.isNone && isAhead (streamPages f) 7 (va / 4096) then keepAhead s core who va else s) s

/-! ### Examining and consuming an element (R231, R232, R240) -/

/-- The element at CUR of a stream, as examined. -/
def setEx (w : FWork) (stream : Nat) (x : Option (Nat × Nat)) : FWork :=
  { w with ex := (stream, x) :: w.ex.filter fun p => p.1 != stream }

/-- A bitmap word of a stream: each is read once. -/
def bitmapWord (w : FWork) (core stream i : Nat) (va : W64) : FRead :=
  match w.words.find? fun p => p.1 == stream && p.2.1 == i with
  | some p => .ok w p.2.2.toNat
  | none =>
    match fRead w core stream va 8 with
    | .bad w e => .bad w e
    | .ok w v => .ok { w with words := (stream, i, w64 v) :: w.words.filter fun p => p.1 != stream } v

/-- Moves CUR of a B stream over clear bits, word by word, onto the next set bit or to ENDP. -/
def scanBits (core stream : Nat) : Nat → FWork → FWork × Option FErr
  | 0, w => (w, none)
  | fuel + 1, w =>
    let f := fStream w.s core stream
    if f.cur = f.endp then (w, none)
    else
      let i := f.cur.toNat / 64
      let lo := f.cur.toNat % 64
      match bitmapWord w core stream i (f.arr1 + w64 (8 * i)) with
      | .bad w e => (w, some e)
      | .ok w v =>
        let n := min (64 - lo) (f.endp - f.cur).toNat
        match (List.range n).find? fun j => v.testBit (lo + j) with
        | some j => (wStream w core stream fun f => { f with cur := f.cur + BitVec.ofNat 32 j }, none)
        | none => scanBits core stream fuel (wStream w core stream fun f => { f with cur := f.cur + BitVec.ofNat 32 n })

/-- Examines the element at CUR of a stream (R240). -/
def examine (w : FWork) (core stream : Nat) : FWork × Option FErr :=
  if (w.ex.lookup stream).isSome then (w, none)
  else
    let f := fStream w.s core stream
    match f.kind.toNat with
    | 0 => (setEx w stream (if atEnd f then none else some (f.cur.toNat, (curPos f).toNat)), none)
    | 2 =>
      match scanBits core stream ((f.endp - f.cur).toNat / 64 + 2) w with
      | (w, some e) => (w, some e)
      | (w, none) =>
        let f := fStream w.s core stream
        let bad (bit n : Nat) : FErr := .trap stream 3 (f.arr1 + w64 (8 * (bit / 64))) (zx f.cur) (w64 n)
        if atEnd f then
          if f.run = f.stated then (setEx w stream none, none) else (w, some (bad ((f.endp - 1).toNat) f.run.toNat))
        else if f.stated.toNat < f.run.toNat + 1 then (w, some (bad f.cur.toNat (f.run.toNat + 1)))
        else (setEx w stream (some ((f.cur - f.ppos * f.extent).toNat, (curPos f).toNat)), none)
    | k =>
      if atEnd f then (setEx w stream none, none)
      else
        let va := f.arr1 + w64 (coordLen f.cw * (if k = 1 then f.cur.toNat else f.ppos.toNat))
        match fRead w core stream va (coordLen f.cw) with
        | .bad w e => (w, some e)
        | .ok w x =>
          if k = 1 && f.lv && (decide (x < f.last.toNat) || (x == f.last.toNat && !f.nu)) then
            (w, some (.trap stream 0 va (zx f.cur) (w64 x)))
          else if f.extent.toNat ≤ x then (w, some (.trap stream 1 va (zx f.cur) (w64 x)))
          else (setEx w stream (some (x, (curPos f).toNat)), none)

/-- The element of a stream as examined; none at end. -/
def element (w : FWork) (stream : Nat) : Option (Nat × Nat) := (w.ex.lookup stream).bind id

/-- Consumes the element at CUR (R240). -/
def consume (w : FWork) (core stream : Nat) : FWork :=
  let x := ((element w stream).getD (0, 0)).1
  let w := wStream w core stream fun f =>
    { f with last := BitVec.ofNat 32 x, lv := true, run := if f.kind = 2 then f.run + 1 else f.run, cur := f.cur + 1 }
  { w with ex := w.ex.filter fun p => p.1 != stream }

/-- A pair assembled. -/
def addPair (w : FWork) (x a b : Nat) : FWork :=
  { w with n := w.n + 1, co := setBits w.co (32 * w.n) 32 x, pa := setBits w.pa (32 * w.n) 32 a, pb := setBits w.pb (32 * w.n) 32 b }

/-! ### Steps of the ops (R240, R241) -/

/-- An NU stream among those named raises kind 5 (R240, R244). -/
def nuTrap (w : FWork) (core opc : Nat) (names : List Nat) : Option FErr :=
  (names.find? fun n => (fStream w.s core n).nu).map fun n =>
    let f := fStream w.s core n
    .trap n 5 f.desc (w64 opc) (w64 (f.level.toNat + f.kind.toNat * 16 + 64))

/-- FNEXT examines the next element; it assigns no second position part. -/
def stepNext (w : FWork) (core n : Nat) : FStep :=
  if 128 ≤ w.n then .done w
  else
    match examine w core n with
    | (w, some e) => .stop w e
    | (w, none) =>
      match element w n with
      | none => .done w
      | some (x, p) => .more (consume (addPair w x p (lane w.pb.toNat 32 w.n)) core n)

/-- FINT and FUNI examine fN, then fM, and pair, skip or take them. -/
def stepPair (w : FWork) (core opc n m : Nat) (union : Bool) : FStep :=
  match nuTrap w core opc [n, m] with
  | some e => .stop w e
  | none =>
    if 128 ≤ w.n then .done w
    else
      match examine w core n with
      | (w, some e) => .stop w e
      | (w, none) =>
        match examine w core m with
        | (w, some e) => .stop w e
        | (w, none) =>
          let none32 := 2 ^ 32 - 1
          match element w n, element w m with
          | none, none => .done w
          | some (x, p), none => if union then .more (consume (addPair w x p none32) core n) else .done w
          | none, some (y, q) => if union then .more (consume (addPair w y none32 q) core m) else .done w
          | some (x, p), some (y, q) =>
            if x < y then .more (consume (if union then addPair w x p none32 else w) core n)
            else if y < x then .more (consume (if union then addPair w y none32 q else w) core m)
            else .more (consume (consume (addPair w x p q) core n) core m)

/-- A D stream under FSKIP: CUR moves to the target, and the last element passed is recorded as consumed (R240). -/
def skipDense (f : FStream) (t : Nat) : FStream :=
  let cur := min (max f.cur.toNat t) f.extent.toNat
  if cur = f.cur.toNat then f else { f with cur := BitVec.ofNat 32 cur, last := BitVec.ofNat 32 (cur - 1), lv := true }

/-- FSKIP passes the elements below its target; a D stream reads nothing. -/
def stepSkip (w : FWork) (core n : Nat) (t : Nat) : FStep :=
  match nuTrap w core 0x35 [n] with
  | some e => .stop w e
  | none =>
    if (fStream w.s core n).kind = 0 then
      .done (wStream w core n fun f => skipDense f t)
    else
      match examine w core n with
      | (w, some e) => .stop w e
      | (w, none) =>
        match element w n with
        | none => .done w
        | some (x, _) => if x < t then .more (consume w core n) else .done w

/-- Bytes of a value of a stream. -/
def valueLen (code : Nat) : Nat := if code ≤ 8 then etw code / 8 else 2 ^ (Config.valueSize code).val

/-- FVAL takes the value of its next lane. -/
def stepVal (w : FWork) (core n count : Nat) (vec : V4096) : FStep :=
  if count ≤ w.n then .done w
  else
    let f := fStream w.s core n
    let p := lane vec.toNat 32 w.n
    let z := valueLen f.vfmt.toNat
    let put (w : FWork) (v : Nat) : FWork := { w with n := w.n + 1, co := setBits w.co (8 * z * w.n) (8 * z) v }
    if p = 2 ^ 32 - 1 then .more (put w 0)
    else if f.nval.toNat ≤ p then .stop w (.trap n 1 (f.values + w64 (z * p)) (w64 w.n) (w64 p))
    else
      match fRead w core n (f.values + w64 (z * p)) z with
      | .bad w e => .stop w e
      | .ok w v => .more (put w v)

/-! ### FOPEN and FCHILD (R229, R230, R239) -/

/-- An array address that R230 refuses. -/
def arrayBad (a align : Nat) : Bool := decide (4 ≤ a / 2 ^ 60) || a % align != 0

/-- The first bad field of a descriptor header, from the lowest bit: its byte offset and its value. -/
def headerFieldBad (h : Nat) : Option (Nat × Nat) :=
  let rank := h % 8
  let vf := h / 8 % 16
  if rank = 0 ∨ 4 < rank then some (0, rank)
  else if 8 < vf then some (0, vf)
  else if h / 2 ^ 7 % 2 ^ 57 ≠ 0 then some (0, h / 2 ^ 7 % 2 ^ 57)
  else if arrayBad (h / 2 ^ 64 % 2 ^ 64) (etw vf / 8) then some (8, h / 2 ^ 64 % 2 ^ 64)
  else if h / 2 ^ 160 % 2 ^ 32 ≠ 0 then some (20, h / 2 ^ 160 % 2 ^ 32)
  else if h / 2 ^ 192 ≠ 0 then some (24, h / 2 ^ 192 % 2 ^ 64)
  else none

/-- The first bad field of a level entry, from the lowest bit; `nuOk` says that the next level allows NU. -/
def entryFieldBad (e lvl : Nat) (nuOk : Bool) : Option (Nat × Nat) :=
  let kind := e % 4
  let cw := e / 4 % 2
  let nu := e / 8 % 2
  let arr1 := e / 2 ^ 64 % 2 ^ 64
  let arr2 := e / 2 ^ 128 % 2 ^ 64
  if kind = 3 ∧ lvl = 0 then some (0, kind)
  else if cw = 1 ∧ (kind = 0 ∨ kind = 2) then some (0, cw)
  else if nu = 1 ∧ (kind ≠ 1 ∨ !nuOk) then some (0, nu)
  else if e / 16 % 2 ^ 28 ≠ 0 then some (0, e / 16 % 2 ^ 28)
  else if e / 2 ^ 32 % 2 ^ 32 = 0 then some (4, 0)
  else if (if kind = 0 then arr1 != 0 else arrayBad arr1 (if kind = 2 then 8 else coordLen (cw == 1))) then some (8, arr1)
  else if (if kind = 0 ∨ kind = 3 then arr2 != 0 else arrayBad arr2 4) then some (16, arr2)
  else if e / 2 ^ 192 ≠ 0 then some (24, e / 2 ^ 192 % 2 ^ 64)
  else none

/-- What FCHILD takes from fM for the singleton rule: NU, VBASE, its coordinate array and width. -/
structure ParentInfo where
  nu : Bool
  vbase : Nat
  arr1 : W64
  cw : Bool
  deriving DecidableEq, Repr

/-- Reads entries of one length one after another. -/
def fReads (core stream len : Nat) : List W64 → FWork → FWork × (List Nat ⊕ FErr)
  | [], w => (w, .inl [])
  | a :: r, w =>
    match fRead w core stream a len with
    | .bad w e => (w, .inr e)
    | .ok w v =>
      match fReads core stream len r w with
      | (w, .inl l) => (w, .inl (v :: l))
      | (w, .inr e) => (w, .inr e)

/-- The singleton rule for an S child below an NU level (R232, R239): its S coordinates, then the parent's, of p and p - 1. -/
def singleton (w : FWork) (core n p : Nat) (arr1 : W64) (cw : Bool) (par : ParentInfo) : FWork × Option FErr :=
  if !(par.nu && decide (par.vbase + 1 ≤ p)) then (w, none)
  else
    let at_ (base : W64) (cw : Bool) (i : Nat) : W64 := base + w64 (coordLen cw * i)
    match fReads core n (coordLen cw) [at_ arr1 cw p, at_ arr1 cw (p - 1)] w with
    | (w, .inr e) => (w, some e)
    | (w, .inl l) =>
      match fReads core n (coordLen par.cw) [at_ par.arr1 par.cw p, at_ par.arr1 par.cw (p - 1)] w with
      | (w, .inr e) => (w, some e)
      | (w, .inl m) =>
        let x := l.getD 0 0
        let y := l.getD 1 0
        if m.getD 0 0 ≠ m.getD 1 0 ∨ y < x then (w, none)
        else if x = y then (w, some (.trap n 6 (at_ arr1 cw p) (w64 p) (w64 x)))
        else (w, some (.trap n 0 (at_ arr1 cw p) 0 (w64 x)))

/-- Opens stream `n` on level `lvl` of a descriptor under parent position `p` (R239). -/
def openStream (w : FWork) (core n opc : Nat) (desc : W64) (lvl p : Nat) (par : Option ParentInfo) : FStep :=
  let d := desc.toNat
  let bad (w : FWork) (off v : Nat) : FStep := .stop w (.trap n 4 desc (w64 off) (w64 v))
  if arrayBad d 32 then bad w (2 ^ 64 - 1) d
  else
    match fRead w core n desc 32 with
    | .bad w e => .stop w e
    | .ok w h =>
      match headerFieldBad h with
      | some (off, v) => bad w off v
      | none =>
        let rank := h % 8
        if rank ≤ lvl then .stop w (.trap n 5 desc (w64 opc) (w64 lvl))
        else
          let base := 32 + 32 * lvl
          match fRead w core n (desc + w64 base) 32 with
          | .bad w e => .stop w e
          | .ok w e =>
            let kind := e % 4
            let nu := e / 8 % 2 == 1
            let next : FRead := if nu && decide (lvl + 1 < rank) then fRead w core n (desc + w64 (base + 32)) 8 else .ok w 0
            match next with
            | .bad w x => .stop w x
            | .ok w nxt =>
              match entryFieldBad e lvl (nxt % 4 == 3) with
              | some (off, v) => bad w (base + off) v
              | none =>
                let ext := e / 2 ^ 32 % 2 ^ 32
                let arr1 := w64 (e / 2 ^ 64)
                let arr2 := w64 (e / 2 ^ 128)
                let cw := e / 4 % 2 == 1
                if (lvl = 0 ∧ p ≠ 0) ∨ (kind = 0 ∧ 2 ^ 32 - 1 < p * ext + ext) then .stop w (.trap n 1 (desc + w64 base) 0 (w64 p))
                else
                  let pos (i : Nat) : W64 := arr2 + w64 (4 * (p + i))
                  match (if kind = 1 ∨ kind = 2 then fReads core n 4 [pos 0, pos 1] w else (w, .inl [0, 0])) with
                  | (w, .inr x) => .stop w x
                  | (w, .inl ends) =>
                    let lo := ends.getD 0 0
                    let hi := ends.getD 1 0
                    if hi < lo then .stop w (.trap n 2 (pos 1) (w64 p) (w64 hi))
                    else
                      match (match par with
                        | some q => if kind = 3 then singleton w core n p arr1 cw q else (w, none)
                        | none => (w, none)) with
                      | (w, some x) => .stop w x
                      | (w, none) =>
                        let n32 (v : Nat) : BitVec 32 := BitVec.ofNat 32 v
                        let (cur, endp, vbase) : Nat × Nat × Nat := match kind with
                          | 0 => (0, ext, p * ext)
                          | 1 => (lo, hi, lo)
                          | 2 => (p * ext, (p + 1) * ext, lo)
                          | _ => (0, 1, p)
                        let w := { w with s := w.s.modCore core fun c => { c with ahead := c.ahead.filter (·.agent != 8 + n) } }
                        .done (wStream w core n fun f =>
                          { f with
                            desc := desc, level := BitVec.ofNat 2 lvl, ppos := n32 p, kind := BitVec.ofNat 2 kind, nu := nu, cw := cw,
                            vfmt := BitVec.ofNat 4 (h / 8), values := w64 (h / 2 ^ 64), nval := n32 (h / 2 ^ 128), extent := n32 ext,
                            arr1 := arr1, vbase := n32 vbase, cur := n32 cur, endp := n32 endp,
                            stated := if kind = 2 then n32 (hi - lo) else 0, run := 0, last := 0, lv := false, pend := 0,
                            popc := 0, pslot := false, parked := false, isOpen := true })

/-- FLOAD: the state read, from the scratchpad at its issue, replaces the stream's, or leaves it closed (R243). -/
def loadStream (w : FWork) (core n : Nat) (got : List Byte) (ps : List Piece) : FStep :=
  let (s, b) := loadPieces w.s core (w.s.core core).task [] got ps
  let w := { w with s := s }
  let word (i : Nat) : W64 := w64 (ofBytes ((b.drop (8 * i)).take 8))
  let w1 := word 1
  let lo (i : Nat) : BitVec 32 := BitVec.ofNat 32 (word i).toNat
  let hi (i : Nat) : BitVec 32 := BitVec.ofNat 32 (bits (word i) 32 32)
  let pend := bits w1 40 8
  let popc := bits w1 48 7
  let bad (v : Nat) : FStep :=
    .stop (wStream w core n fun f => { f with isOpen := false }) (.trap n 4 (word 0) 0 (w64 v))
  if bits w1 61 3 ≠ 0 then bad (bits w1 61 3)
  else if 128 < pend then bad pend
  else if pend ≠ 0 ∧ (popc < 0x32 ∨ 0x34 < popc) then bad popc
  else if bitAt w1 36 && decide ((hi 2).toNat < (lo 2).toNat) then bad (lo 2).toNat
  else
    .done (wStream w core n fun f =>
      { f with
        desc := word 0, ppos := lo 1, level := BitVec.ofNat 2 (bits w1 32 2), kind := BitVec.ofNat 2 (bits w1 34 2), isOpen := bitAt w1 36,
        nu := bitAt w1 37, cw := bitAt w1 38, parked := bitAt w1 39, pend := BitVec.ofNat 8 pend, popc := BitVec.ofNat 7 popc,
        pslot := bitAt w1 55, lv := bitAt w1 56, vfmt := BitVec.ofNat 4 (bits w1 57 4), cur := lo 2, endp := hi 2, last := lo 3, nval := hi 3,
        run := lo 4, stated := hi 4, arr1 := word 5, vbase := lo 6, extent := hi 6, values := word 7 })

/-! ### Running an op -/

/-- One step of a memory-reading op: one element, one lane, or all of an opening or a load. -/
def fStep (core : Nat) (r : XRun) (w : FWork) : FStep :=
  match r.instr with
  | .fnext f => stepNext w core (fN f)
  | .fint f => stepPair w core 0x33 (fN f) (fM f) false
  | .funi f => stepPair w core 0x34 (fN f) (fM f) true
  | .fskip f => stepSkip w core (fN f) r.arg.toNat
  | .fval f => stepVal w core (fN f) r.note r.vec
  | .fopen f => openStream w core (fN f) 0x30 r.arg (bits f.fn 0 2) r.note none
  | .fchild f =>
    let m := fStream w.s core (fM f)
    openStream w core (fN f) 0x36 m.desc (m.level.toNat + 1) r.note (some { nu := m.nu, vbase := m.vbase.toNat, arr1 := m.arr1, cw := m.cw })
  | .fload f => loadStream w core (fN f) r.got r.pieces
  | _ => .done w

/-- Steps an op until it ends or stops. -/
def runSteps (core : Nat) (r : XRun) : Nat → FWork → FStep
  | 0, w => .done w
  | fuel + 1, w =>
    match fStep core r w with
    | .more w => runSteps core r fuel w
    | x => x

/-- Steps an op at most so often, ending before a step that would end or stop it. -/
def someSteps (core : Nat) (r : XRun) : Nat → FWork → FWork
  | 0, w => w
  | fuel + 1, w =>
    match fStep core r w with
    | .more w => someSteps core r fuel w
    | _ => w

/-- An op's work as it stands: its pairs or lanes so far, and what it has read and not consumed (R240, R246). -/
def startWork (s : State) (r : XRun) : FWork :=
  { s := s, n := r.lane, co := r.vals, pa := r.posA, pb := r.posB, ex := r.examined, words := r.words
    fw := decide (r.info.ctx = .firmware) }

/-- An op with the work it has done. -/
def keepWork (w : FWork) (r : XRun) : XRun :=
  { r with lane := w.n, vals := w.co, posA := w.pa, posB := w.pb, examined := w.ex, words := w.words }

/-- More steps than an op can take. -/
def fibreFuel (s : State) (core : Nat) (r : XRun) : Nat :=
  400 + ((fibreNames r.instr).1.map fun n => let f := fStream s core n; (f.endp - f.cur).toNat).sum

/-- The register results of an op that completes with what it has (R240, R241). -/
def fibreWrites (w : FWork) (core : Nat) (r : XRun) : List RegWrite :=
  let k := laneMask 32 w.n fun _ => true
  let coord := ofLanes 32 128 fun i => if i < w.n then lane w.co.toNat 32 i else 2 ^ 32 - 1
  match r.instr with
  | .fnext f => [.batch (fN f) coord w.pa w.pb, .v f.b.toNat w.pa k, .s f.c.toNat (w64 w.n)]
  | .fint f => [.batch (fN f) coord w.pa w.pb, .v f.b.toNat w.pa k, .v (f.b.toNat + 1) w.pb k, .s f.c.toNat (w64 w.n)]
  | .funi f => [.batch (fN f) coord w.pa w.pb, .v f.b.toNat w.pa k, .v (f.b.toNat + 1) w.pb k, .s f.c.toNat (w64 w.n)]
  | .fval f => [.v f.b.toNat w.co (laneMask (8 * valueLen (fStream w.s core (fN f)).vfmt.toNat) w.n fun _ => true)]
  | _ => []

/-- The op of a slot that holds its unit. -/
def xHolder (s : State) (core : Nat) (slot : Slot) : Option XRun :=
  if slotNum slot < 4 then none else rd (s.core core).e.xrun (slotNum slot - 4) none

/-- An op completes: its results are readable from the next cycle, its streams have no pending op and are not parked; what a stop or a
park had noted of the op is as the op found it (R247). -/
def finishFibre (w : FWork) (core : Nat) (slot : Slot) (r : XRun) : State :=
  let names := (fibreNames r.instr).1
  let keeps := match r.instr with | .fload _ => true | _ => false
  let clear (s : State) (n : Nat) : State := modF s core n fun f =>
    let f := { f with pend := 0, parked := false, park := none }
    match (if pairOp r.instr then r.found.lookup n else none) with
    | some (c, p) => { f with popc := c, pslot := p }
    | none => f
  let s := if keeps then w.s else names.foldl clear w.s
  let s := landSince s core slot r.since 1 (fibreWrites w core r) (fibreTag r.instr)
  (noteStreams s core names).modE core fun e =>
    { e with xrun := wr e.xrun (slotNum slot - 4) none, unitFree := wr e.unitFree (slotNum slot) (freedAt s core) }

/-- A fault of a fibre op that has completed (R245). -/
def fibreFault (s : State) (core : Nat) (slot : Slot) (r : XRun) (e : FErr) : State :=
  match e with
  | .trap n k addr d0 d1 => opFault s r.info r.bits slot core (BitVec.ofNat 9 (0x0C0 + 8 * n + k)) addr d0 d1
  | .access _ e => opFault s r.info r.bits slot core e.cause e.addr e.det0 e.det1

/-- The streams of an op record the pairs it has assembled (R246, R315). -/
def notePend (w : FWork) (core : Nat) (slot : Slot) (r : XRun) : State :=
  let (names, opc) := fibreNames r.instr
  if !pairOp r.instr then w.s
  else
    names.foldl (fun s n => modF s core n fun f =>
      { f with pend := BitVec.ofNat 8 w.n, popc := BitVec.ofNat 7 opc, pslot := slot == .x1 }) w.s

/-- The pairs that an op has assembled are held in the batch register of fN, pending for it (R247, R315). -/
def keepPairs (w : FWork) (core : Nat) (slot : Slot) (r : XRun) : State :=
  let keep (new old : V4096) : V4096 := setBits old 0 (32 * w.n) new.toNat
  let s := notePend w core slot r
  if !pairOp r.instr then s
  else
    modF s core ((fibreNames r.instr).1.headD 0) fun f =>
      { f with coord := keep w.co f.coord, posA := keep w.pa f.posA, posB := keep w.pb f.posB }

/-- An op parks on a replayable fault, keeping its unit and its pairs; the batch register is written when it completes or stops (R234,
R246). -/
def parkFibre (w : FWork) (core : Nat) (slot : Slot) (r : XRun) (n : Nat) (e : AErr) : State :=
  let s := modF (notePend w core slot r) core n fun f => { f with parked := true, park := some (.wanting e.cause e.addr e.walk e.rp) }
  s.modE core fun x => { x with xrun := wr x.xrun (slotNum slot - 4) (some (keepWork w r)) }

/-- A REL of the slot has not made its increment (R220). -/
def relPending (e : Engine) (slot : Slot) : Bool :=
  e.bg.any fun b => b.slot == some slot && match b.kind with | .rel .. => true | _ => false

/-- The accesses of a slot performed in order (R200). -/
def performSlot (s : State) (core : Nat) (slot : Slot) : State :=
  ((s.core core).e.xacc.filter fun a => a.slot = slot).foldl (fun s a => performAcc s core a) s

/-- An op whose stream is parked waits for the host. -/
def isParked (s : State) (core : Nat) (r : XRun) : Bool := (fibreNames r.instr).1.any fun n => (fStream s core n).park.isSome

/-- FIBRE_OP_COMPLETE (R234, R240, R245, R246): a memory-reading op of a slot examines its elements and completes, stops with a
fault, or parks. -/
def execFibreOpComplete (core : Nat) (slot : Slot) (s : State) : Out :=
  match xHolder s core slot with
  | none => .next s
  | some r =>
    let e := (s.core core).e
    if (fibreNames r.instr).1.isEmpty || decide (s.now ≤ r.since) || !streamRuns s core || isParked s core r || relPending e slot ||
        slotStarves s core slot then .next s
    else
      let s := performSlot s core slot
      match (match r.instr with
        | .fload _ => if r.got.isEmpty then loadKind s core r.pieces else if r.note = 0 then none else some r.note
        | _ => none) with
      | some k =>
        .next (replyFault (finishFibre (startWork s r) core slot r) core r.info.ctx (class2 2 k) r.arg)
      | none =>
        match runSteps core r (fibreFuel s core r) (startWork s r) with
        | .more w => .next w.s
        | .done w => .next (finishFibre w core slot r)
        | .stop w x =>
          match x with
          | .access n a =>
            if a.replayable then .next (parkFibre w core slot r n a)
            else if (s.core core).stop.isSome then .next s
            else .next (fibreFault (finishFibre w core slot r) core slot r x)
          | .trap .. => if (s.core core).stop.isSome then .next s else .next (fibreFault (finishFibre w core slot r) core slot r x)

/-- The op in progress on a stream, of either slot, completes with what it has and faults (R245). -/
def endFibre (s : State) (core n : Nat) (e : FErr) : State :=
  let at_ (slot : Slot) : Option XRun := (xHolder s core slot).bind fun r => if (fibreNames r.instr).1.contains n then some r else none
  let go (slot : Slot) (r : XRun) : State := fibreFault (finishFibre (startWork s r) core slot r) core slot r e
  match at_ .x0, at_ .x1 with
  | some r, _ => go .x0 r
  | none, some r => go .x1 r
  | none, none => s

/-- The host refuses the access of a parked stream: its op completes with what it has and traps with kind 7 (R246, R269). -/
def refuseFibre (s : State) (core n : Nat) (addr : W64) : State :=
  endFibre s core n (.trap n 7 addr (zx (fStream s core n).cur) 0x0BF)

/-- A read of a stream has returned an uncorrectable data error: the op on it stops there (R245). -/
def loseFibre (s : State) (core n : Nat) (addr : W64) : State :=
  endFibre s core n (.access n { cause := class2 7 6, addr := addr })

/-- A stop finds a memory-reading op in progress: after some elements more, or at once when it is parked, it stops with its pairs
kept, and issues again on resumption (R247, R315). How far it has come is not architected (assumption 13). -/
def stopFibre (s : State) (core : Nat) (slot : Slot) : State :=
  match xHolder s core slot with
  | none => s
  | some r =>
    let names := (fibreNames r.instr).1
    if names.isEmpty then s
    else
      let (k, s) := s.bump
      let early := isParked s core r || relPending (s.core core).e slot || slotStarves s core slot || r.instr matches .fload _
      let s := if early then s else performSlot s core slot
      let w := startWork s r
      let w := if early then w else someSteps core r (Config.stopElements k) w
      let s := keepPairs { w with s := if early then s else w.s } core slot r
      let s := names.foldl (fun s n => modF s core n fun f => { f with park := none }) s
      s.modE core fun e =>
        { e with
          xrun := wr e.xrun (slotNum slot - 4) none
          slotQ := wr e.slotQ (slotNum slot) ({ bits := r.bits, info := r.info, notBefore := s.now, again := some (keepWork w r) } :: slotQ e slot) }

end Sys2Proof.Machine
end

