-- ==== Sys2Proof/Machine/Convert.lean ====
section
/-! DEFINITION. Conversions between number formats (R19, R26 to R31) and the codes of the narrow and block formats (R14 to R18). -/

namespace Sys2Proof.Machine

/-! ### Integers -/

/-- An integer as a value. -/
def numOfInt (i : Int) : Num := .fin (decide (i < 0)) i.natAbs 0

/-- A value rounded to an integer, NaN as 0, infinities as beyond every range (R29). -/
def toInt (mode : Rnd) : Num → Int
  | .nan => 0
  | .inf neg => if neg then -(2 ^ 200 : Nat) else (2 ^ 200 : Nat)
  | .fin neg sig exp =>
    if 200 < exp then (if sig = 0 then 0 else if neg then -(2 ^ 200 : Nat) else (2 ^ 200 : Nat))
    else let m : Int := Int.ofNat (roundAt mode neg sig exp 0 false); if neg then -m else m

/-- The value of a narrow integer's code; none for a reserved code under SUBST 11 (R19). A sign-magnitude -0 reads as the integer 0, which
a float lane takes as +0 (DESIGN CHOICE, see assumption 110). -/
def narrowInt (v : BitVec 32) (code : Nat) : Option Int :=
  let w := fmWidth v
  let c := code % 2 ^ w
  let top := 2 ^ (w - 1)
  if !fmSigned v then some c
  else if fmSignMag v then
    if c = top then (if fmSubst v = 3 then none else some 0)
    else some (if top < c then -(Int.ofNat (c - top)) else c)
  else if c = top then
    match fmSubst v with
    | 0 => some (-(Int.ofNat top))
    | 1 => some (-(Int.ofNat (top - 1)))
    | 2 => some 0
    | _ => none
  else some (signedOf w c)

/-- The range of a narrow integer's encoder: it never emits a reserved code while SUBST is not 00 (R29). -/
def narrowRange (v : BitVec 32) : Int × Int :=
  let w := fmWidth v
  if !fmSigned v then (0, (2 ^ w - 1 : Nat))
  else if fmSignMag v || fmSubst v != 0 then (-(2 ^ (w - 1) - 1 : Nat), (2 ^ (w - 1) - 1 : Nat))
  else (-(2 ^ (w - 1) : Nat), (2 ^ (w - 1) - 1 : Nat))

/-- The code of an integer within the range. -/
def narrowCode (v : BitVec 32) (x : Int) : Nat :=
  let w := fmWidth v
  if fmSigned v && fmSignMag v then (if x < 0 then 2 ^ (w - 1) + x.natAbs else x.natAbs) else unsignedOf w x

/-- The code of an integer limited to the range. -/
def narrowClamp (v : BitVec 32) (x : Int) : Nat := let r := narrowRange v; narrowCode v (clampInt r.1 r.2 x)

/-- The code that an integer wraps to: its low bits, a reserved code replaced (R29). -/
def narrowWrap (v : BitVec 32) (x : Int) : Nat :=
  let w := fmWidth v
  let c := unsignedOf w x
  if fmSigned v && c == 2 ^ (w - 1) then
    if fmSignMag v then 0
    else match fmSubst v with
      | 0 => c
      | 2 => 0
      | _ => 2 ^ (w - 1) + 1
  else c

/-- A lane of a V element type as a value: an integer or a float (R20). -/
def laneNum (t code : Nat) : Num := if t ≤ 5 then numOfInt (laneInt t code) else decodeF (etFmt t) (code % 2 ^ etw t)

/-- The exact integer of an integer lane. -/
def laneExact (t code : Nat) : Int := laneInt t code

/-- Conversion into a lane type (R28, R29); `int` gives the exact integer of an integer source. -/
def toLane (td : Nat) (mode : Rnd) (sat : Bool) (x : Num) (int : Option Int) : Nat :=
  if td ≤ 5 then
    let w := etw td
    let r := laneRange (etSigned td) w
    match int with
    | some i => if sat then unsignedOf w (clampInt r.1 r.2 i) else unsignedOf w i
    | none => unsignedOf w (clampInt r.1 r.2 (toInt mode x))
  else convertFloat x (etFmt td) mode sat

/-! ### Narrow formats named by a format register -/

/-- The floating format of OCP FP8 (R13, R22). -/
def fp8Fmt (v : BitVec 32) : FFmt := if fmWidth v = 0 then e4m3 else e5m2

/-- The width of a narrow element of families 0 and 3. -/
def narrowWidth (v : BitVec 32) : Nat := if fmFamily v = 0 then fmWidth v else 8

/-- Conversion into a narrow element of families 0 and 3 (R28, R29). -/
def toNarrow (v : BitVec 32) (mode : Rnd) (sat : Bool) (x : Num) (int : Option Int) : Nat :=
  if fmFamily v = 0 then
    match int with
    | some i => if sat then narrowClamp v i else narrowWrap v i
    | none => narrowClamp v (toInt mode x)
  else convertFloat x (fp8Fmt v) mode sat

/-! ### Grist blocks (R17, R18, R31) -/

/-- Bits of a Grist block of M magnitude bits. -/
def gristBits (m : Nat) : Nat := 16 + 16 * (m + 1)

/-- The value of an element code of a Grist block with shared exponent `e` and its pair's μ bit (R18). -/
def gristNum (m e : Nat) (mu : Bool) (code : Nat) : Num :=
  if e = 255 then .nan
  else
    let mag := code % 2 ^ m
    .fin (code.testBit m && mag != 0) mag (Int.ofNat e - 127 - (if mu then 1 else 0) - (Int.ofNat m - 1))

/-- Element `j` of a Grist block. -/
def gristElem (m block j : Nat) : Num :=
  gristNum m (block % 256) ((block / 256).testBit (j / 2)) (block / 2 ^ (16 + j * (m + 1)) % 2 ^ (m + 1))

/-- The greater of two magnitudes. -/
def magMax (x y : Num) : Num := match cmpNum x y with | .lt => y | _ => x

/-- ⌊log2⌋ of a nonzero magnitude. -/
def floorLog2 : Num → Int
  | .fin _ sig exp => exp + bitlen sig - 1
  | _ => 0

/-- A magnitude times 2^k, rounded to an integer. -/
def roundScaled (mode : Rnd) (x : Num) (k : Int) : Nat :=
  match x with
  | .fin neg sig exp => if sig = 0 then 0 else roundAt mode neg sig (exp + k) 0 false
  | _ => 0

/-- A zero value. -/
def isZero : Num → Bool
  | .fin _ sig _ => sig == 0
  | _ => false

/-- A value is an infinity. -/
def isInf : Num → Bool
  | .inf _ => true
  | _ => false

/-- The sign of a value. -/
def isNeg : Num → Bool
  | .inf n => n
  | .fin n _ _ => n
  | .nan => false

/-- Conversion of 16 values into a Grist block (R31); `mode j` rounds element j. -/
def toGrist (m : Nat) (mode : Nat → Rnd) (sat : Bool) (xs : List Num) : Nat :=
  if xs.any isNan || (xs.any isInf && !sat) then 255
  else
    let top : Int := 127 - (Int.ofNat m - 1)
    let xs := xs.map fun x => if isInf x then .fin (isNeg x) (2 ^ m - 1) top else x
    let at_ (j : Nat) : Num := xs.getD j (.fin false 0 0)
    let a := (xs.map absNum).foldl magMax (.fin false 0 0)
    if isZero a then 0
    else
      let e0 := floorLog2 a + 127
      let e1 := if roundScaled .rne a (Int.ofNat m - 1 - e0 + 127) = 2 ^ m then e0 + 1 else e0
      if 254 < e1 ∧ !sat then 255
      else
        let e := clampInt 0 254 e1
        let mu (p : Nat) : Bool :=
          let b := magMax (absNum (at_ (2 * p))) (absNum (at_ (2 * p + 1)))
          decide (roundScaled .rne b (Int.ofNat m - e + 127) ≤ 2 ^ m - 1)
        let elem (j : Nat) : Nat :=
          let x := at_ j
          let k := -(e - 127 - (if mu (j / 2) then 1 else 0) - (Int.ofNat m - 1))
          let v := min (roundScaled (mode j) x k) (2 ^ m - 1)
          v + if isNeg x && v != 0 then 2 ^ m else 0
        e.toNat + ((List.range 8).map fun p => if mu p then 2 ^ (8 + p) else 0).sum +
          ((List.range 16).map fun j => elem j * 2 ^ (16 + j * (m + 1))).sum

/-! ### MX blocks (R14 to R16, R30) -/

/-- The width of an MX element of a variant. -/
def mxWidth (variant : Nat) : Nat := if variant = 0 then 4 else if variant ≤ 2 then 6 else 8

/-- The element format of an MX variant other than INT8. -/
def mxFmt (variant : Nat) : FFmt :=
  match variant with
  | 0 => e2m1
  | 1 => e2m3
  | 2 => e3m2
  | 3 => e4m3
  | _ => e5m2

/-- The largest-normal exponent of an MX element (R30). -/
def mxEmax (variant : Nat) : Int :=
  match variant with
  | 0 => 2
  | 1 => 2
  | 2 => 4
  | 3 => 8
  | 4 => 15
  | _ => 0

/-- A value times 2^k. -/
def shiftNum (x : Num) (k : Int) : Num :=
  match x with
  | .fin n s e => .fin n s (e + k)
  | y => y

/-- The value of an MX element code under a scale byte (R14, R15). -/
def mxNum (variant scale code : Nat) : Num :=
  if scale = 255 then .nan
  else
    let x : Num := if variant = 5 then
        let i := signedOf 8 code
        .fin (decide (i < 0)) i.natAbs (-6)
      else decodeF (mxFmt variant) (code % 2 ^ mxWidth variant)
    shiftNum x (Int.ofNat scale - 127)

/-- Conversion of 32 values into an MX block: the scale byte and the element codes (R30). -/
def toMx (variant : Nat) (mode : Nat → Rnd) (sat : Bool) (xs : List Num) : Nat × List Nat :=
  if xs.any isNan || (xs.any isInf && !sat) then (255, List.replicate 32 0)
  else
    let mag (x : Num) : Num := if isInf x then decodeF fp32 fp32.maxCode else absNum x
    let a := (xs.map mag).foldl magMax (.fin false 0 0)
    if isZero a then (0, List.replicate 32 0)
    else
      let sc := clampInt (-127) 127 (floorLog2 a - mxEmax variant)
      let elem (j : Nat) (x : Num) : Nat :=
        let y := shiftNum x (-sc)
        if variant = 5 then
          let v := match y with
            | .inf neg => if neg then -127 else 127
            | y => clampInt (-127) 127 (toInt (mode j) (shiftNum y 6))
          unsignedOf 8 v
        else convertFloat y (mxFmt variant) (mode j) true
      ((sc + 127).toNat, xs.zipIdx.map fun p => elem p.2 p.1)

/-! ### Stochastic rounding (R26, R27, R45) -/

/-- The rounding of element `j` of an op into a narrow format: RNE, or stochastic with the word of R45. -/
def narrowRnd (s : State) (core : Nat) (sl : Slot) (i : BInfo) (rnd : BitVec 2) (j : Nat) : Rnd :=
  if rnd = 0 then .rne
  else
    let seed := ((s.taskOn core).map (·.seed)).getD 0
    let step := (rd (stepRegs s core) 0 0).toNat % 2 ^ 32
    let c3 := if sl = .v0 then 0x53520001 else 0x53520002
    .sr (philoxWord j step i.eseq.toNat c3 (seed.toNat % 2 ^ 32) (seed.toNat / 2 ^ 32))

end Sys2Proof.Machine
end

