-- ==== Sys2Proof/Machine/VectorInt.lean ====
section
/-! DEFINITION. The integer, logical, permute, compress, expand, scan and reduce instructions of the V slots (R149 to R158). -/

namespace Sys2Proof.Machine

/-! ### Lane functions (R151) -/

/-- The low bits of an exact result. -/
def wrapLane (f : VOp) (x : Int) : Nat := unsignedOf (etw f.etype.toNat) x

/-- An exact result limited to the type's range. -/
def clampLane (f : VOp) (x : Int) : Nat :=
  let t := f.etype.toNat
  let r := laneRange (etSigned t) (etw t)
  unsignedOf (etw t) (clampInt r.1 r.2 x)

/-- wrap, or clamp with SAT. -/
def finLane (f : VOp) (x : Int) : Nat := if f.sat = 1 then clampLane f x else wrapLane f x

/-- A lane function of the values of a and b. -/
def lane2 (f : VOp) (fin : VOp → Int → Nat) (g : Int → Int → Int) : Nat → Nat → Nat → Nat → Nat :=
  fun _ a b _ => fin f (g (laneInt f.etype.toNat a) (laneInt f.etype.toNat b))

/-- A lane function of the bits of a and b. -/
def laneBits (g : Nat → Nat → Nat) : Nat → Nat → Nat → Nat → Nat := fun _ a b _ => g a b

/-- VADD. -/
def laneVadd (f : VOp) : Nat → Nat → Nat → Nat → Nat := lane2 f wrapLane (· + ·)
/-- VSUB. -/
def laneVsub (f : VOp) : Nat → Nat → Nat → Nat → Nat := lane2 f wrapLane (· - ·)
/-- VMUL. -/
def laneVmul (f : VOp) : Nat → Nat → Nat → Nat → Nat := lane2 f finLane (· * ·)
/-- VMULH: bits [2w - 1 : w] of the exact product. -/
def laneVmulh (f : VOp) : Nat → Nat → Nat → Nat → Nat :=
  lane2 f wrapLane fun a b => Int.fdiv (a * b) (2 ^ etw f.etype.toNat : Nat)
/-- VMAD. -/
def laneVmad (f : VOp) : Nat → Nat → Nat → Nat → Nat := fun _ a b c =>
  let t := f.etype.toNat
  let p := laneInt t a * laneInt t b
  let q := laneInt t c
  finLane f ((if bitAt f.neg 0 then -p else p) + if bitAt f.neg 1 then -q else q)
/-- VSADD. -/
def laneVsadd (f : VOp) : Nat → Nat → Nat → Nat → Nat := lane2 f clampLane (· + ·)
/-- VSSUB. -/
def laneVssub (f : VOp) : Nat → Nat → Nat → Nat → Nat := lane2 f clampLane (· - ·)
/-- VMIN. -/
def laneVmin (f : VOp) : Nat → Nat → Nat → Nat → Nat := lane2 f wrapLane min
/-- VMAX. -/
def laneVmax (f : VOp) : Nat → Nat → Nat → Nat → Nat := lane2 f wrapLane max
/-- VABS. -/
def laneVabs (f : VOp) : Nat → Nat → Nat → Nat → Nat := lane2 f finLane fun a _ => if a < 0 then -a else a
/-- VAND. -/
def laneVand : Nat → Nat → Nat → Nat → Nat := laneBits Nat.land
/-- VOR. -/
def laneVor : Nat → Nat → Nat → Nat → Nat := laneBits Nat.lor
/-- VXOR. -/
def laneVxor : Nat → Nat → Nat → Nat → Nat := laneBits Nat.xor
/-- VSHL: by b read unsigned. -/
def laneVshl (f : VOp) : Nat → Nat → Nat → Nat → Nat := fun _ a s _ =>
  let t := f.etype.toNat
  let w := etw t
  if f.sat = 1 then
    let x := laneInt t a
    if w ≤ s then clampLane f (if x = 0 then 0 else if x < 0 then -(2 ^ (2 * w) : Nat) else (2 ^ (2 * w) : Nat))
    else clampLane f (x * (2 ^ s : Nat))
  else if w ≤ s then 0 else a * 2 ^ s % 2 ^ w
/-- VSHR. -/
def laneVshr (f : VOp) : Nat → Nat → Nat → Nat → Nat := fun _ a s _ => if etw f.etype.toNat ≤ s then 0 else a / 2 ^ s
/-- VSRA: fills with the lane's top bit, whatever the type. -/
def laneVsra (f : VOp) : Nat → Nat → Nat → Nat → Nat := fun _ a s _ =>
  let w := etw f.etype.toNat
  unsignedOf w (Int.fdiv (signedOf w a) (2 ^ min s w : Nat))
/-- VCLZ. -/
def laneVclz (f : VOp) : Nat → Nat → Nat → Nat → Nat := fun _ a _ _ => etw f.etype.toNat - bitlen a
/-- VPOPC. -/
def laneVpopc (f : VOp) : Nat → Nat → Nat → Nat → Nat := fun _ a _ _ => ((List.range (etw f.etype.toNat)).filter (a.testBit ·)).length
/-- VSEL. -/
def laneVsel : Nat → Nat → Nat → Nat → Nat := fun m a b _ => if m = 1 then a else b
/-- VMOV. -/
def laneVmov : Nat → Nat → Nat → Nat → Nat := fun _ _ b _ => b

/-! ### Elementwise ops (R150, R151) -/

/-- The fields every integer op leaves zero, and its integer type. -/
def intOk (f : VOp) : Bool := decide (f.etype.toNat ≤ 5) && f.rnd == 0 && f.xtra == 0

/-- Fields of a plain two-operand op. -/
def plain2 (f : VOp) : Bool := intOk f && f.sat == 0 && f.neg == 0 && bkOk f true && cFree f

/-- Registers beyond v31 of an op with operands a and b. -/
def beyondAB (f : VOp) : Bool := beyond f f.dst || beyond f f.a || (f.bk == 0 && beyond f f.b)

/-- An elementwise op that reads a and b. -/
def elem2 (s : State) (i : Instr) (f : VOp) (fieldsOk : Bool) (lat : Nat) (fn : Nat → Nat → Nat → Nat → Nat) : Out :=
  beatIssue s i f fieldsOk (beyondAB f) lat (fun _ => 0) (laneBeat f fn)

/-- An elementwise op that reads a alone. -/
def elem1 (s : State) (i : Instr) (f : VOp) (fieldsOk : Bool) (lat : Nat) (fn : Nat → Nat → Nat → Nat → Nat) : Out :=
  beatIssue s i f (fieldsOk && noB f && f.c == 0) (beyond f f.dst || beyond f f.a) lat (fun _ => 0) (laneBeat f fn)

/-- VADD (R151). -/
def execVadd (f : VOp) (s : State) : Out := elem2 s (.vadd f) f (plain2 f) 2 (laneVadd f)
/-- VSUB (R151). -/
def execVsub (f : VOp) (s : State) : Out := elem2 s (.vsub f) f (plain2 f) 2 (laneVsub f)
/-- VMUL (R151). -/
def execVmul (f : VOp) (s : State) : Out := elem2 s (.vmul f) f (intOk f && f.neg == 0 && bkOk f true && cFree f) 3 (laneVmul f)
/-- VMULH (R151). -/
def execVmulh (f : VOp) (s : State) : Out := elem2 s (.vmulh f) f (plain2 f) 3 (laneVmulh f)
/-- VMAD (R151). -/
def execVmad (f : VOp) (s : State) : Out :=
  beatIssue s (.vmad f) f (intOk f && bkOk f false) (beyondAB f || beyond f f.c) 3 (fun _ => 0) (laneBeat f (laneVmad f))
/-- VSADD (R151). -/
def execVsadd (f : VOp) (s : State) : Out := elem2 s (.vsadd f) f (plain2 f) 2 (laneVsadd f)
/-- VSSUB (R151). -/
def execVssub (f : VOp) (s : State) : Out := elem2 s (.vssub f) f (plain2 f) 2 (laneVssub f)
/-- VMIN (R151). -/
def execVmin (f : VOp) (s : State) : Out := elem2 s (.vmin f) f (plain2 f) 2 (laneVmin f)
/-- VMAX (R151). -/
def execVmax (f : VOp) (s : State) : Out := elem2 s (.vmax f) f (plain2 f) 2 (laneVmax f)
/-- VABS: of signed types only (R151). -/
def execVabs (f : VOp) (s : State) : Out :=
  elem1 s (.vabs f) f (intOk f && etSigned f.etype.toNat && f.neg == 0) 2 (laneVabs f)
/-- VAND (R151). -/
def execVand (f : VOp) (s : State) : Out := elem2 s (.vand f) f (plain2 f) 2 laneVand
/-- VOR (R151). -/
def execVor (f : VOp) (s : State) : Out := elem2 s (.vor f) f (plain2 f) 2 laneVor
/-- VXOR (R151). -/
def execVxor (f : VOp) (s : State) : Out := elem2 s (.vxor f) f (plain2 f) 2 laneVxor
/-- VSHL (R151). -/
def execVshl (f : VOp) (s : State) : Out := elem2 s (.vshl f) f (intOk f && f.neg == 0 && bkOk f true && cFree f) 2 (laneVshl f)
/-- VSHR (R151). -/
def execVshr (f : VOp) (s : State) : Out := elem2 s (.vshr f) f (plain2 f) 2 (laneVshr f)
/-- VSRA (R151). -/
def execVsra (f : VOp) (s : State) : Out := elem2 s (.vsra f) f (plain2 f) 2 (laneVsra f)
/-- VCLZ (R151). -/
def execVclz (f : VOp) (s : State) : Out := elem1 s (.vclz f) f (intOk f && f.sat == 0 && f.neg == 0) 2 (laneVclz f)
/-- VPOPC (R151). -/
def execVpopc (f : VOp) (s : State) : Out := elem1 s (.vpopc f) f (intOk f && f.sat == 0 && f.neg == 0) 2 (laneVpopc f)
/-- The fields of an op that accepts all nine types and neither SAT, NEG, RND nor XTRA. -/
def anyType (f : VOp) : Bool := decide (f.etype.toNat ≤ 8) && f.rnd == 0 && f.sat == 0 && f.neg == 0

/-- VSEL: C[2:0] names the mask (R151). -/
def execVsel (f : VOp) (s : State) : Out :=
  beatIssue s (.vsel f) f (anyType f && f.xtra == 0 && bkOk f false && decide (f.c.toNat < 8)) (beyondAB f) 2
    (fun s => mReg (curE s) f.c.toNat) (laneBeat f laneVsel)
/-- VMOV (R151). -/
def execVmov (f : VOp) (s : State) : Out :=
  beatIssue s (.vmov f) f (anyType f && f.xtra == 0 && f.a == 0 && bkOk f true && cFree f) (beyond f f.dst || (f.bk == 0 && beyond f f.b)) 2
    (fun _ => 0) (laneBeat f laneVmov)

/-! ### Widening, compares, moves (R152 to R155) -/

/-- VWADD and VWMUL: lanes pN to pN + N - 1 widened by the ratio (R152). -/
def widen (s : State) (f : VOp) (lat : Nat) (g : Int → Int → Int) : Out :=
  let x4 := bits f.xtra 0 2 == 1
  let p := bits f.xtra 2 2
  let t := f.etype.toNat
  let ratio := if x4 then 4 else 2
  let ok := decide (t ≤ 3) && f.rnd == 0 && f.sat == 0 && f.neg == 0 && bkOk f true && cFree f && decide (bits f.xtra 0 2 ≤ 1) &&
    !(x4 && decide (2 ≤ t)) && decide (p < ratio) && bits f.xtra 4 2 == 0
  vOnce s f ok false lat fun s n mask row =>
    let w := etw t
    let wide := ratio * w
    let lanes := 4096 / wide
    let a := (vReg (s.core n).e f.a.toNat).toNat
    let b := bVec s n f s.cur.info row 0
    [.v f.dst.toNat (ofLanes wide lanes fun i =>
      unsignedOf wide (g (laneInt t (lane a w (p * lanes + i))) (laneInt t (b (p * lanes + i))))) (spread mask wide)]

/-- VWADD (R152). -/
def execVwadd (f : VOp) (s : State) : Out := widen s f 2 (· + ·)
/-- VWMUL (R152). -/
def execVwmul (f : VOp) (s : State) : Out := widen s f 3 (· * ·)

/-- The condition of VCMP (R153). -/
def vcond (t cc a b : Nat) : Bool :=
  let x := laneInt t a
  let y := laneInt t b
  match cc with
  | 0 => decide (x = y)
  | 1 => decide (x ≠ y)
  | 2 => decide (x < y)
  | 3 => decide (y ≤ x)
  | 4 => decide (x ≤ y)
  | 5 => decide (y < x)
  | 6 => Nat.land a b != 0
  | _ => Nat.land a b == 0

/-- A compare into m(DST[2:0]): an enabled lane's bits take the result, a disabled lane's are kept (R153). -/
def cmpWrite (f : VOp) (mask : M512) (on : Nat → Bool) : List RegWrite :=
  let w := etw f.etype.toNat
  [.m f.dst.toNat (laneMask w (4096 / w) on) (spread mask w)]

/-- VCMP (R153). -/
def execVcmp (f : VOp) (s : State) : Out :=
  vOnce s f (intOk f && f.sat == 0 && f.neg == 0 && bkOk f false && decide (f.dst.toNat < 8) && decide (f.c.toNat < 8)) false 2
    fun s n mask row =>
      let t := f.etype.toNat
      let a := (vReg (s.core n).e f.a.toNat).toNat
      let b := bVec s n f s.cur.info row 0
      cmpWrite f mask fun i => vcond t f.c.toNat (lane a (etw t) i) (b i)

/-- VBCAST (R154). -/
def execVbcast (f : VOp) (s : State) : Out :=
  let w := etw f.etype.toNat
  let idx := f.xtra.toNat * 32 + f.c.toNat
  vOnce s f (anyType f && noB f) (decide (4096 / w ≤ idx)) 2 fun s n mask _ =>
    let x := lane (vReg (s.core n).e f.a.toNat).toNat w idx
    [.v f.dst.toNat (ofLanes w (4096 / w) fun _ => x) (spread mask w)]

/-- VIOTA (R154). -/
def execViota (f : VOp) (s : State) : Out :=
  let w := etw f.etype.toNat
  vOnce s f (decide (f.etype.toNat ≤ 5) && f.rnd == 0 && f.sat == 0 && f.neg == 0 && f.a == 0 && bkOk f true && cFree f) false 2
    fun s n mask row =>
      let b0 := bVec s n f s.cur.info row 0 0
      [.v f.dst.toNat (ofLanes w (4096 / w) fun i => b0 + i * (f.xtra.toNat + 1)) (spread mask w)]

/-- VPERM (R154). -/
def execVperm (f : VOp) (s : State) : Out :=
  let w := etw f.etype.toNat
  vOnce s f (anyType f && f.xtra == 0 && bkOk f true && cFree f) false 3 fun s n mask row =>
    let a := (vReg (s.core n).e f.a.toNat).toNat
    let b := bVec s n f s.cur.info row 0
    [.v f.dst.toNat (ofLanes w (4096 / w) fun i => if b i < 4096 / w then lane a w (b i) else 0) (spread mask w)]

/-- VROT (R154). -/
def execVrot (f : VOp) (s : State) : Out :=
  let w := etw f.etype.toNat
  vOnce s f (anyType f && f.xtra == 0 && bkOk f true && cFree f) false 3 fun s n mask row =>
    let a := (vReg (s.core n).e f.a.toNat).toNat
    let r := bVec s n f s.cur.info row 0 0
    [.v f.dst.toNat (ofLanes w (4096 / w) fun i => lane a w ((i + r) % (4096 / w))) (spread mask w)]

/-- The enabled lanes of width `w`, in order. -/
def enabledLanes (mask : M512) (w : Nat) : List Nat := (List.range (4096 / w)).filter (laneOn mask w)

/-- VCMPRS (R155). -/
def execVcmprs (f : VOp) (s : State) : Out :=
  let w := etw f.etype.toNat
  vOnce s f (anyType f && f.xtra == 0 && noB f && f.c == 0) false 3 fun s n mask _ =>
    let a := (vReg (s.core n).e f.a.toNat).toNat
    let es := enabledLanes mask w
    [.v f.dst.toNat (ofLanes w es.length fun j => lane a w (es.getD j 0)) (BitVec.allOnes 512)]

/-- VEXPND (R155). -/
def execVexpnd (f : VOp) (s : State) : Out :=
  let w := etw f.etype.toNat
  vOnce s f (anyType f && f.xtra == 0 && noB f && f.c == 0) false 3 fun s n mask _ =>
    let a := (vReg (s.core n).e f.a.toNat).toNat
    let rank (i : Nat) : Nat := ((List.range i).filter (laneOn mask w)).length
    [.v f.dst.toNat (ofLanes w (4096 / w) fun i => lane a w (rank i)) (spread mask w)]

/-! ### Scans and reductions (R156) -/

/-- The combining function of a scan or reduction: 0 ADD, 1 MIN, 2 MAX. -/
def combine (fn : Nat) (a b : Int) : Int := if fn = 0 then a + b else if fn = 1 then min a b else max a b

/-- The identity that a disabled lane enters as. -/
def identityOf (f : VOp) : Int :=
  let t := f.etype.toNat
  let r := laneRange (etSigned t) (etw t)
  if f.c = 0 then 0 else if f.c = 1 then r.2 else r.1

/-- The lanes of a as they enter a scan or reduction. -/
def scanLanes (s : State) (n : Nat) (f : VOp) (mask : M512) : List Int :=
  let t := f.etype.toNat
  let w := etw t
  let a := (vReg (s.core n).e f.a.toNat).toNat
  (List.range (4096 / w)).map fun i => if laneOn mask w i then laneInt t (lane a w i) else identityOf f

/-- Fields of VSCAN and VRED. -/
def scanOk (f : VOp) : Bool := intOk f && f.neg == 0 && noB f && decide (f.c.toNat ≤ 2) && (f.sat == 0 || f.c == 0)

/-- The inclusive prefixes of a list. -/
def prefixes (fn : Nat) : Int → List Int → List Int
  | _, [] => []
  | acc, x :: r => let y := combine fn acc x; y :: prefixes fn y r

/-- VSCAN (R156). -/
def execVscan (f : VOp) (s : State) : Out :=
  let w := etw f.etype.toNat
  vOnce s f (scanOk f) false 8 fun s n mask _ =>
    let ps := prefixes f.c.toNat (identityOf f) (scanLanes s n f mask)
    [.v f.dst.toNat (ofLanes w (4096 / w) fun i => finLane f (ps.getD i 0)) (spread mask w)]

/-- VRED: lane 0 is written whatever its mask bit (R156). -/
def execVred (f : VOp) (s : State) : Out :=
  let w := etw f.etype.toNat
  vOnce s f (scanOk f) false 6 fun s n mask _ =>
    let r := (scanLanes s n f mask).foldl (combine f.c.toNat) (identityOf f)
    [.v f.dst.toNat (ofLanes w 1 fun _ => finLane f r) (laneMask w 1 fun _ => true)]

/-- VNOP (R157). -/
def execVnop (f : VOp) (s : State) : Out :=
  vIssue s f (f.xtra == 0 && f.beats == 0 && f.neg == 0 && f.sat == 0 && f.rnd == 0 && f.etype == 0 && f.msk == 0 && f.bk == 0 &&
    f.c == 0 && f.b == 0 && f.a == 0 && f.dst == 0) fun s tag => .go (tagOnly s tag) 1

end Sys2Proof.Machine
end

