-- ==== Sys2Proof/Machine/VectorFloat.lean ====
section
/-! DEFINITION. The floating-point, conversion, packing, selection, random, probe and queue instructions of the V slots, and the
later beats of multi-beat ops (R159 to R176, R150). -/

namespace Sys2Proof.Machine

/-! ### Arithmetic (R162, R163, R42) -/

/-- A floating type. -/
def floatType (f : VOp) : Bool := decide (6 ≤ f.etype.toNat ∧ f.etype.toNat ≤ 8)

/-- Fields of a floating op with operands a and b. -/
def float2 (f : VOp) : Bool := floatType f && f.sat == 0 && f.neg == 0 && f.xtra == 0 && bkOk f true && cFree f

/-- Fields of a floating op with operand a. -/
def float1 (f : VOp) : Bool := floatType f && f.sat == 0 && f.neg == 0 && f.xtra == 0

/-- The format of a floating op's lanes. -/
def fmtOf (f : VOp) : FFmt := etFmt f.etype.toNat

/-- VFADD. -/
def laneVfadd (f : VOp) : Nat → Nat → Nat → Nat → Nat := fun _ a b _ => addRound (fmtOf f) (rndOf f.rnd) a b
/-- VFSUB. -/
def laneVfsub (f : VOp) : Nat → Nat → Nat → Nat → Nat := fun _ a b _ =>
  convertFloat (addNum (rndOf f.rnd) (decodeF (fmtOf f) a) (negNum (decodeF (fmtOf f) b))) (fmtOf f) (rndOf f.rnd) false
/-- VFMUL. -/
def laneVfmul (f : VOp) : Nat → Nat → Nat → Nat → Nat := fun _ a b _ => mulRound (fmtOf f) (rndOf f.rnd) a b
/-- VFMA. -/
def laneVfma (f : VOp) : Nat → Nat → Nat → Nat → Nat := fun _ a b c =>
  fmaRound (fmtOf f) (rndOf f.rnd) (bitAt f.neg 0) (bitAt f.neg 1) a b c
/-- VFMIN. -/
def laneVfmin (f : VOp) : Nat → Nat → Nat → Nat → Nat := fun _ a b _ => minF (fmtOf f) a b
/-- VFMAX. -/
def laneVfmax (f : VOp) : Nat → Nat → Nat → Nat → Nat := fun _ a b _ => maxF (fmtOf f) a b
/-- VFDIV. -/
def laneVfdiv (f : VOp) : Nat → Nat → Nat → Nat → Nat := fun _ a b _ =>
  divRound (fmtOf f) (rndOf f.rnd) (decodeF (fmtOf f) a) (decodeF (fmtOf f) b)
/-- VFSQRT. -/
def laneVfsqrt (f : VOp) : Nat → Nat → Nat → Nat → Nat := fun _ a _ _ => sqrtRound (fmtOf f) (rndOf f.rnd) (decodeF (fmtOf f) a)
/-- A function of R42. -/
def laneFn (fn : RFun) (f : VOp) : Nat → Nat → Nat → Nat → Nat := fun _ a _ _ => rfun fn (fmtOf f) (rndOf f.rnd) a

/-- VFADD (R162). -/
def execVfadd (f : VOp) (s : State) : Out := elem2 s (.vfadd f) f (float2 f) 4 (laneVfadd f)
/-- VFSUB (R162). -/
def execVfsub (f : VOp) (s : State) : Out := elem2 s (.vfsub f) f (float2 f) 4 (laneVfsub f)
/-- VFMUL (R162). -/
def execVfmul (f : VOp) (s : State) : Out := elem2 s (.vfmul f) f (float2 f) 4 (laneVfmul f)
/-- VFMA: one rounding (R162). -/
def execVfma (f : VOp) (s : State) : Out :=
  beatIssue s (.vfma f) f (floatType f && f.sat == 0 && f.xtra == 0 && bkOk f false) (beyondAB f || beyond f f.c) 4 (fun _ => 0)
    (laneBeat f (laneVfma f))
/-- VFMIN (R163). -/
def execVfmin (f : VOp) (s : State) : Out := elem2 s (.vfmin f) f (float2 f && f.rnd == 0) 4 (laneVfmin f)
/-- VFMAX (R163). -/
def execVfmax (f : VOp) (s : State) : Out := elem2 s (.vfmax f) f (float2 f && f.rnd == 0) 4 (laneVfmax f)
/-- VFDIV (R162). -/
def execVfdiv (f : VOp) (s : State) : Out := elem2 s (.vfdiv f) f (float2 f) 12 (laneVfdiv f)
/-- VFSQRT (R162). -/
def execVfsqrt (f : VOp) (s : State) : Out := elem1 s (.vfsqrt f) f (float1 f) 12 (laneVfsqrt f)
/-- VFRCP (R42). -/
def execVfrcp (f : VOp) (s : State) : Out := elem1 s (.vfrcp f) f (float1 f) 8 (laneFn .rcp f)
/-- VFRSQ (R42). -/
def execVfrsq (f : VOp) (s : State) : Out := elem1 s (.vfrsq f) f (float1 f) 8 (laneFn .rsq f)
/-- VFEXP2 (R42). -/
def execVfexp2 (f : VOp) (s : State) : Out := elem1 s (.vfexp2 f) f (float1 f) 8 (laneFn .exp2 f)
/-- VFLOG2 (R42). -/
def execVflog2 (f : VOp) (s : State) : Out := elem1 s (.vflog2 f) f (float1 f) 8 (laneFn .log2 f)
/-- VFSIN (R42). -/
def execVfsin (f : VOp) (s : State) : Out := elem1 s (.vfsin f) f (float1 f) 8 (laneFn .sin f)
/-- VFCOS (R42). -/
def execVfcos (f : VOp) (s : State) : Out := elem1 s (.vfcos f) f (float1 f) 8 (laneFn .cos f)
/-- VFTANH (R42). -/
def execVftanh (f : VOp) (s : State) : Out := elem1 s (.vftanh f) f (float1 f) 8 (laneFn .tanh f)

/-! ### Comparison (R164) -/

/-- The conditions of VFCMP. -/
def fcond (fmt : FFmt) (cc a b : Nat) : Bool :=
  let x := decodeF fmt a
  let y := decodeF fmt b
  let un := isNan x || isNan y
  let c := cmpNum x y
  match cc with
  | 0 => !un && c == .eq
  | 1 => un || c != .eq
  | 2 => !un && c == .lt
  | 3 => !un && c != .lt
  | 4 => !un && c != .gt
  | 5 => !un && c == .gt
  | 6 => un
  | _ => !un

/-- VFCMP (R164). -/
def execVfcmp (f : VOp) (s : State) : Out :=
  vOnce s f (floatType f && f.rnd == 0 && f.sat == 0 && f.neg == 0 && f.xtra == 0 && bkOk f false && decide (f.dst.toNat < 8) &&
    decide (f.c.toNat < 8)) false 2 fun s n mask row =>
      let a := (vReg (s.core n).e f.a.toNat).toNat
      let b := bVec s n f s.cur.info row 0
      cmpWrite f mask fun i => fcond (fmtOf f) f.c.toNat (lane a (etw f.etype.toNat) i) (b i)

/-! ### Reductions and scans (R39, R40, R165) -/

/-- Combination of two lanes: 0 ADD, 1 MIN, 2 MAX. -/
def fcombine (fmt : FFmt) (mode : Rnd) (fn a b : Nat) : Nat :=
  if fn = 0 then addRound fmt mode a b else if fn = 1 then minF fmt a b else maxF fmt a b

/-- What a disabled lane enters as: −0 (+0 under RDN), +Inf or −Inf (R39, R165). -/
def fidentity (fmt : FFmt) (mode : Rnd) (fn : Nat) : Nat :=
  if fn = 0 then (if mode = .rdn then 0 else withSign fmt true 0)
  else withSign fmt (fn == 2) (fmt.infCode.getD 0)

/-- Adjacent lanes combined. -/
def pairUp (g : Nat → Nat → Nat) : List Nat → List Nat
  | a :: b :: r => g a b :: pairUp g r
  | l => l

/-- The pairwise tree over lane index, `levels` deep (R39). -/
def treeOf (g : Nat → Nat → Nat) : Nat → List Nat → Nat
  | 0, l => l.headD 0
  | k + 1, l => treeOf g k (pairUp g l)

/-- One Hillis–Steele step at distance `d` (R40). -/
def scanStep (g : Nat → Nat → Nat) (l : List Nat) (d : Nat) : List Nat :=
  l.zipIdx.map fun p => if d ≤ p.2 then g (l.getD (p.2 - d) 0) p.1 else p.1

/-- The lanes of a as they enter a floating scan or reduction. -/
def fscanLanes (s : State) (n : Nat) (f : VOp) (mask : M512) : List Nat :=
  let w := etw f.etype.toNat
  let a := (vReg (s.core n).e f.a.toNat).toNat
  let id := fidentity (fmtOf f) (rndOf f.rnd) f.c.toNat
  (List.range (4096 / w)).map fun i => if laneOn mask w i then lane a w i else id

/-- Fields of VFRED and VFSCAN. -/
def fscanOk (f : VOp) : Bool := float1 f && noB f && decide (f.c.toNat ≤ 2) && (f.rnd == 0 || f.c == 0)

/-- A NaN as the canonical NaN of its format, and any other value as it stands (R12). -/
def canonF (m : FFmt) (c : Nat) : Nat := if isNan (decodeF m c) then m.nanCode.getD c else c

/-- VFSCAN (R40, R165); lane 0, which no lane is combined with, is written as a result too (R12, R160). -/
def execVfscan (f : VOp) (s : State) : Out :=
  let w := etw f.etype.toNat
  vOnce s f (fscanOk f) false 8 fun s n mask _ =>
    let g := fcombine (fmtOf f) (rndOf f.rnd) f.c.toNat
    let r := ((List.range (if w = 32 then 7 else 8)).map (2 ^ ·)).foldl (scanStep g) (fscanLanes s n f mask)
    [.v f.dst.toNat (ofLanes w (4096 / w) fun i => canonF (fmtOf f) (r.getD i 0)) (spread mask w)]

/-- VFRED (R39, R165). -/
def execVfred (f : VOp) (s : State) : Out :=
  let w := etw f.etype.toNat
  vOnce s f (fscanOk f) false 6 fun s n mask _ =>
    let r := treeOf (fcombine (fmtOf f) (rndOf f.rnd) f.c.toNat) (if w = 32 then 7 else 8) (fscanLanes s n f mask)
    [.v f.dst.toNat (ofLanes w 1 fun _ => r) (laneMask w 1 fun _ => true)]

/-! ### Conversions (R166 to R168) -/

/-- The family of a format register is not one that the op accepts: kind 1; its value is invalid: kind 6 (R23, R82). -/
def fmFault (v : BitVec 32) (accepts : Nat → Bool) : Option Nat :=
  if !fmValid v then some 6 else if !accepts (fmFamily v) then some 1 else none

/-- Bytes `lo` to `hi - 1` as a byte-lane mask. -/
def byteSpan (lo hi : Nat) : M512 := BitVec.ofNat 512 (2 ^ hi - 2 ^ min lo hi)

/-- Bits of a register replaced, one element of width `w` at bit `off + w·i` for each `i < k` that `on` selects. -/
def putElems (old : V4096) (off w k : Nat) (on : Nat → Bool) (code : Nat → Nat) : V4096 :=
  (List.range k).foldl (fun v i => if on i then setBits v (off + w * i) w (code i) else v) old

/-- The exact integer of a lane of an integer type. -/
def laneInteger (t code : Nat) : Option Int := if t ≤ 5 then some (laneExact t code) else none

/-- VCVT (R166 to R168). Of several reserved codes in an unpack's operand the fault names the lowest-numbered element, and one in a
disabled lane counts (assumption 98). -/
def execVcvt (f : VOp) (s : State) : Out :=
  let form := bits f.xtra 0 2
  let p := bits f.xtra 2 4
  let t := f.etype.toNat
  let td := f.c.toNat
  let ws := etw t
  let wd := etw td
  let base := decide (t ≤ 8) && f.neg == 0 && f.beats == 0 && noB f
  let ok := base && (match form with
    | 0 => decide (td ≤ 8) && decide (p < max ws wd / min ws wd)
    | 1 => decide (td < 4) && decide (f.rnd.toNat ≤ 1)
    | 2 => decide (td < 4)
    | _ => false)
  let sat := f.sat == 1
  vIssue s f ok fun s tag =>
    let n := s.cur.core
    let e := curE s
    let mask := maskOf s n f
    let a := (vReg e f.a.toNat).toNat
    if form = 0 then
      let k := 4096 / max ws wd
      let src := if ws ≤ wd then p * k else 0
      let dst := if ws ≤ wd then 0 else p * k
      let out := ofLanes wd k fun i => let c := lane a ws (src + i); toLane td (rndOf f.rnd) sat (laneNum t c) (laneInteger t c)
      let span := byteSpan (dst * (wd / 8)) ((dst + k) * (wd / 8))
      landGo s 3 [.v f.dst.toNat (out <<< (dst * wd)) (spread mask wd &&& span)] tag
    else withFm s (td % 4) fun v =>
      let kind (k : Nat) (d : Nat) : Iss := .fault (class0 s.cur.slot k) 0 (w64 d) 0
      match fmFault v fun fam => fam == 0 || fam == 3 with
      | some x => kind x 0
      | none =>
        let k := 4096 / ws
        let wf := narrowWidth v
        let off := p * k * wf
        if 4096 < (p + 1) * k * wf then kind 2 0
        else if form = 1 then
          let on := laneOn mask ws
          let code (i : Nat) : Nat :=
            let c := lane a ws i
            toNarrow v (narrowRnd s n s.cur.slot s.cur.info f.rnd i) sat (laneNum t c) (laneInteger t c)
          landGo s 3 [.vbits f.dst.toNat (putElems 0 off wf k on code) (putElems 0 off wf k on fun _ => 2 ^ wf - 1)] tag
        else
          let elem (i : Nat) : Nat := a / 2 ^ (off + wf * i) % 2 ^ wf
          match (if fmFamily v = 0 then (List.range k).find? fun i => (narrowInt v (elem i)).isNone else none) with
          | some i => kind 2 i
          | none =>
            let out := ofLanes ws k fun i =>
              if fmFamily v = 0 then
                let x := (narrowInt v (elem i)).getD 0
                toLane t (rndOf f.rnd) sat (numOfInt x) (some x)
              else toLane t (rndOf f.rnd) sat (decodeF (fp8Fmt v) (elem i)) none
            landGo s 3 [.v f.dst.toNat out (spread mask ws)] tag

/-! ### Block packing (R169, R170) -/

/-- Fields of the block packs; `packs` says that the op rounds into a narrow format. -/
def packOk (f : VOp) (packs : Bool) : Bool :=
  floatType f && f.neg == 0 && f.beats == 0 && noB f && decide (f.c.toNat < 4) && bits f.xtra 4 2 == 0 &&
    (if packs then decide (f.rnd.toNat ≤ 1) else f.sat == 0)

/-- Issues a block pack or unpack of family `fam`; `width` gives the bits that `k` lanes take, and `writes` the registers written at
offset `off`. It waits for its format register (R24) before it checks its register numbers too, so that of its faults that of the lowest
kind is reported (R82; DESIGN CHOICE, see assumption 112). -/
def blockOp (s : State) (f : VOp) (packs outOfRange : Bool) (fam : Nat) (width : BitVec 32 → Nat → Nat)
    (writes : State → Nat → M512 → BitVec 32 → Nat → List RegWrite) : Out :=
  vIssue s f (packOk f packs) fun s tag =>
    withFm s (f.c.toNat % 4) fun v =>
      let kind (k : Nat) : Iss := .fault (class0 s.cur.slot k) 0 0 0
      match fmFault v fun x => x == fam with
      | some 1 => kind 1
      | some k => if outOfRange then kind 2 else kind k
      | none =>
        let n := 4096 / etw f.etype.toNat
        let p := bits f.xtra 0 4
        if outOfRange ∨ 4096 < (p + 1) * width v n then kind 2
        else landGo s 3 (writes s s.cur.core (maskOf s s.cur.core f) v (p * width v n)) tag

/-- The values of the lanes of a, disabled lanes as +0. -/
def packLanes (s : State) (n : Nat) (f : VOp) (mask : M512) (lo cnt : Nat) : List Num :=
  let w := etw f.etype.toNat
  let a := (vReg (s.core n).e f.a.toNat).toNat
  (List.range cnt).map fun i => if laneOn mask w (lo + i) then decodeF (fmtOf f) (lane a w (lo + i)) else .fin false 0 0

/-- Bits of the Grist blocks of `n` lanes. -/
def gristSpan (v : BitVec 32) (n : Nat) : Nat := n / 16 * gristBits (fmWidth v)

/-- VPKGM (R169). -/
def execVpkgm (f : VOp) (s : State) : Out :=
  blockOp s f true false 1 gristSpan fun s n mask v off =>
    let m := fmWidth v
    let lb := gristBits m
    let q := 4096 / etw f.etype.toNat / 16
    let rnd := narrowRnd s n s.cur.slot s.cur.info f.rnd
    let block (i : Nat) : Nat := toGrist m (fun j => rnd (16 * i + j)) (f.sat == 1) (packLanes s n f mask (16 * i) 16)
    [.v f.dst.toNat (putElems 0 off lb q (fun _ => true) block) (byteSpan (off / 8) ((off + lb * q) / 8))]

/-- VUPGM (R169). -/
def execVupgm (f : VOp) (s : State) : Out :=
  blockOp s f false false 1 gristSpan fun s n mask v off =>
    let m := fmWidth v
    let lb := gristBits m
    let w := etw f.etype.toNat
    let a := (vReg (s.core n).e f.a.toNat).toNat
    [.v f.dst.toNat (ofLanes w (4096 / w) fun i =>
      convertFloat (gristElem m (a / 2 ^ (off + lb * (i / 16)) % 2 ^ lb) (i % 16)) (fmtOf f) (rndOf f.rnd) false) (spread mask w)]

/-- Bits of the MX elements of `n` lanes. -/
def mxSpan (v : BitVec 32) (n : Nat) : Nat := n * mxWidth (fmWidth v)

/-- VPKMX (R170). -/
def execVpkmx (f : VOp) (s : State) : Out :=
  blockOp s f true (f.dst == 31) 2 mxSpan fun s n mask v off =>
    let vr := fmWidth v
    let we := mxWidth vr
    let lanes := 4096 / etw f.etype.toNat
    let q := lanes / 32
    let p := bits f.xtra 0 4
    let rnd := narrowRnd s n s.cur.slot s.cur.info f.rnd
    let blocks := (List.range q).map fun i => toMx vr (fun j => rnd (32 * i + j)) (f.sat == 1) (packLanes s n f mask (32 * i) 32)
    [.v f.dst.toNat (putElems 0 off we lanes (fun _ => true) fun i => (((blocks.getD (i / 32) (0, [])).2).getD (i % 32) 0))
        (byteSpan (off / 8) ((off + we * lanes) / 8)),
     .v (f.dst.toNat + 1) (putElems 0 (8 * (p * q)) 8 q (fun _ => true) fun i => (blocks.getD i (0, [])).1)
        (byteSpan (p * q) ((p + 1) * q))]

/-- VUPMX (R170). -/
def execVupmx (f : VOp) (s : State) : Out :=
  blockOp s f false (f.a == 31) 2 mxSpan fun s n mask v off =>
    let vr := fmWidth v
    let we := mxWidth vr
    let w := etw f.etype.toNat
    let q := 4096 / w / 32
    let p := bits f.xtra 0 4
    let a := (vReg (s.core n).e f.a.toNat).toNat
    let sc := (vReg (s.core n).e (f.a.toNat + 1)).toNat
    [.v f.dst.toNat (ofLanes w (4096 / w) fun i =>
      convertFloat (mxNum vr (lane sc 8 (p * q + i / 32)) (a / 2 ^ (off + we * i) % 2 ^ we)) (fmtOf f) (rndOf f.rnd) false)
      (spread mask w)]

/-! ### Selection (R171) -/

/-- A candidate comes before another: the greater value, −0 below +0, the lower lane among equals. -/
def topBefore (fmt : FFmt) (x y : Nat × Nat) : Bool :=
  if x.2 = y.2 then decide (x.1 < y.1)
  else
    match cmpNum (decodeF fmt x.2) (decodeF fmt y.2) with
    | .gt => true
    | .lt => false
    | .eq => !x.2.testBit (fmt.width - 1)

/-- A candidate placed in order. -/
def insertTop (fmt : FFmt) (x : Nat × Nat) : List (Nat × Nat) → List (Nat × Nat)
  | [] => [x]
  | y :: r => if topBefore fmt x y then x :: y :: r else y :: insertTop fmt x r

/-- VTOPK (R171). -/
def execVtopk (f : VOp) (s : State) : Out :=
  let w := etw f.etype.toNat
  vIssue s f (floatType f && f.rnd == 0 && f.sat == 0 && f.neg == 0 && f.beats == 0 && f.bk == 1 && f.b == 0 && f.c == 0) fun s tag =>
    let n := s.cur.core
    let p := (bcPattern s n s.cur.info).toNat
    let k := p % 256
    let len := p / 256 % 65536
    let lanes := 4096 / w
    if k = 0 ∨ 128 < k ∨ lanes < len ∨ f.dst = 31 then .fault (class0 s.cur.slot 2) 0 0 0
    else
      let l := if len = 0 then lanes else len
      let mask := maskOf s n f
      let a := (vReg (curE s) f.a.toNat).toNat
      let cand := ((List.range l).filter fun i => laneOn mask w i && !isNan (decodeF (fmtOf f) (lane a w i))).map fun i => (i, lane a w i)
      let order := cand.foldr (insertTop (fmtOf f)) []
      let r := min k cand.length
      let ninf := withSign (fmtOf f) true ((fmtOf f).infCode.getD 0)
      landGo s 10
        [.v f.dst.toNat (ofLanes w k fun j => if j < r then (order.getD j (0, 0)).2 else ninf) (laneMask w k fun _ => true),
         .v (f.dst.toNat + 1) (ofLanes 32 k fun j => if j < r then (order.getD j (0, 0)).1 else 0xFFFFFFFF) (laneMask 32 k fun _ => true),
         .s f.xtra.toNat (w64 r)] tag

/-! ### Random words, probes, queue pops (R172 to R174) -/

/-- VRAND (R44, R172). -/
def execVrand (f : VOp) (s : State) : Out :=
  vOnce s f ((f.etype == 4 || f.etype == 5) && f.rnd == 0 && f.sat == 0 && f.neg == 0 && noB f) false 6 fun s n mask _ =>
    let e := (s.core n).e
    let k0 := (sReg e f.a.toNat).toNat % 2 ^ 32
    let k1 := (sReg e f.c.toNat).toNat % 2 ^ 32
    let c := (sReg e f.xtra.toNat).toNat
    let step := (rd (stepRegs s n) 0 0).toNat % 2 ^ 32
    [.v f.dst.toNat (ofLanes 32 128 fun i => philoxWord i step (c % 2 ^ 32) (c / 2 ^ 32) k0 k1) (spread mask 32)]

/-- What one beat of a CKPROBE contributes: the sum or the greatest of its lanes' distances (R41, R173). -/
def probeBeat (f : VOp) : BeatFn := fun s n i mask _ j row =>
  let t := f.etype.toNat
  let w := etw t
  let a := (vReg (s.core n).e (f.a.toNat + j)).toNat
  let b := bVec s n f i row j
  let dist (x : Nat) : Nat :=
    convertFloat (absNum (addNum .rne (decodeF (fmtOf f) (lane a w x)) (negNum (decodeF (fmtOf f) (b x))))) fp32 .rne false
  let l1 := bitAt f.c 0
  let lanes := List.range (4096 / w)
  let v :=
    if l1 then treeOf (addRound fp32 .rne) (if w = 32 then 7 else 8) (lanes.map fun x => if laneOn mask w x then dist x else 2 ^ 31)
    else (lanes.filter (laneOn mask w)).foldl (fun m x => maxF fp32 m (dist x)) 0
  [.probe (bitAt f.c 1 && j == 0) l1 (BitVec.ofNat 32 v)]

/-- CKPROBE (R173). -/
def execCkprobe (f : VOp) (s : State) : Out :=
  beatIssue s (.ckprobe f) f (floatType f && f.rnd == 0 && f.sat == 0 && f.neg == 0 && f.xtra == 0 && f.dst == 0 &&
    decide (f.c.toNat < 4) && bkOk f false) (beyond f f.a || (f.bk == 0 && beyond f f.b)) 4 (fun _ => 0) (probeBeat f)

/-- VPOPQ (R174). -/
def execVpopq (f : VOp) (s : State) : Out :=
  vIssue s f (decide (f.etype.toNat ≤ 8) && f.rnd == 0 && f.sat == 0 && f.neg == 0 && f.xtra == 0 && f.beats == 0 && noB f && f.a == 0 &&
    decide (f.c.toNat < 4)) fun s tag =>
      let mask := spread (maskOf s s.cur.core f) (etw f.etype.toNat)
      popRow s f.c.toNat fun s row => landGo s 2 [.v f.dst.toNat row mask] tag

/-! ### Later beats (R150, R161) -/

/-- The fields, latency and beat of a multi-beat op. -/
def beatOf : Instr → Option (VOp × Nat × BeatFn)
  | .vadd f => some (f, 2, laneBeat f (laneVadd f))
  | .vsub f => some (f, 2, laneBeat f (laneVsub f))
  | .vmul f => some (f, 3, laneBeat f (laneVmul f))
  | .vmulh f => some (f, 3, laneBeat f (laneVmulh f))
  | .vmad f => some (f, 3, laneBeat f (laneVmad f))
  | .vsadd f => some (f, 2, laneBeat f (laneVsadd f))
  | .vssub f => some (f, 2, laneBeat f (laneVssub f))
  | .vmin f => some (f, 2, laneBeat f (laneVmin f))
  | .vmax f => some (f, 2, laneBeat f (laneVmax f))
  | .vabs f => some (f, 2, laneBeat f (laneVabs f))
  | .vand f => some (f, 2, laneBeat f laneVand)
  | .vor f => some (f, 2, laneBeat f laneVor)
  | .vxor f => some (f, 2, laneBeat f laneVxor)
  | .vshl f => some (f, 2, laneBeat f (laneVshl f))
  | .vshr f => some (f, 2, laneBeat f (laneVshr f))
  | .vsra f => some (f, 2, laneBeat f (laneVsra f))
  | .vclz f => some (f, 2, laneBeat f (laneVclz f))
  | .vpopc f => some (f, 2, laneBeat f (laneVpopc f))
  | .vsel f => some (f, 2, laneBeat f laneVsel)
  | .vmov f => some (f, 2, laneBeat f laneVmov)
  | .vfadd f => some (f, 4, laneBeat f (laneVfadd f))
  | .vfsub f => some (f, 4, laneBeat f (laneVfsub f))
  | .vfmul f => some (f, 4, laneBeat f (laneVfmul f))
  | .vfma f => some (f, 4, laneBeat f (laneVfma f))
  | .vfmin f => some (f, 4, laneBeat f (laneVfmin f))
  | .vfmax f => some (f, 4, laneBeat f (laneVfmax f))
  | .vfdiv f => some (f, 12, laneBeat f (laneVfdiv f))
  | .vfsqrt f => some (f, 12, laneBeat f (laneVfsqrt f))
  | .vfrcp f => some (f, 8, laneBeat f (laneFn .rcp f))
  | .vfrsq f => some (f, 8, laneBeat f (laneFn .rsq f))
  | .vfexp2 f => some (f, 8, laneBeat f (laneFn .exp2 f))
  | .vflog2 f => some (f, 8, laneBeat f (laneFn .log2 f))
  | .vfsin f => some (f, 8, laneBeat f (laneFn .sin f))
  | .vfcos f => some (f, 8, laneBeat f (laneFn .cos f))
  | .vftanh f => some (f, 8, laneBeat f (laneFn .tanh f))
  | .ckprobe f => some (f, 4, probeBeat f)
  | _ => none

/-- V_BEAT (R150): beat j issues in cycle c + j and reads its registers then; the last beat's result clears the tag. -/
def execVBeat (core : Nat) (slot : Slot) (s : State) : Out :=
  let e := (s.core core).e
  let k := slotNum slot - 1
  match (if slot = .v0 ∨ slot = .v1 then rd e.vrun k none else none) with
  | none => .next s
  | some r =>
    match beatOf r.instr with
    | none => .next s
    | some (f, lat, beat) =>
      if s.now + (f.beats.toNat + 1 - r.beat) < rd e.unitFree (slotNum slot) 0 then .next s
      else
        let last := r.beat == f.beats.toNat
        let ws := beat s core r.info r.mask r.sel r.beat 0
        let s := landAt s core slot lat ws (if last then tagOf f.taga else none)
        .next (s.modE core fun e =>
          { e with vrun := wr e.vrun k (if last then none else some { r with beat := r.beat + 1 }) })

end Sys2Proof.Machine
end

