-- ==== Sys2Proof/Machine/XSync.lean ====
section
/-! DEFINITION. Synchronisation of the X slots: waiting ops (R198), bindings, fences, latches, publish (R218 to R222), Ridge barriers
(R223 to R226, R377, R378), GDPOP (R215) and weight-stream subscription (R227). -/

namespace Sys2Proof.Machine

/-! ### Stores that an operation waits for (R219, R274) -/

/-- The colour mask of a field pair (R219). -/
def colourMask (f : XROp) : BitVec 8 := BitVec.ofNat 8 (bits f.fn 0 2 * 64 + f.c.toNat)

/-- The mask's bits above FN[1:0] are zero. -/
def colourMaskOk (f : XROp) : Bool := bits f.fn 2 4 == 0

/-- A scope code (R197). -/
def scopeOk (f : XROp) : Bool := decide (f.sc.toNat ≤ 4)

/-- An access is a store or atomic of a selected colour that issued before a cycle and is not performed. -/
def owesStore (a : XAcc) (cols : BitVec 8) (since : Nat) : Bool :=
  !a.done && decide (a.since < since) && bitAt cols a.col.toNat &&
    match a.kind with
    | .store => true
    | .atomic .. => true
    | _ => false

/-- Every store of the selected colours that a core issued before a cycle is performed, up to the write-back of its lines. -/
def storesDone (s : State) (core : Nat) (cols : BitVec 8) (since : Nat) : Bool :=
  !(s.core core).e.xacc.any fun a => owesStore a cols since

/-! ### Bound spans (R218, R220, R221) -/

/-- The spans a core has bound to an object. -/
def boundSpans (s : State) (core : Nat) (o : BindObj) : List (W64 × W64) :=
  ((s.core core).e.bindings.filter fun b => b.obj = o).map fun b => (b.addr, b.len)

/-- Writes back the L1 lines over spans, and invalidates them unless they are kept. -/
def treatSpans (s : State) (core : Nat) (keep : Bool) (spans : List (W64 × W64)) : State :=
  spans.foldl (fun s p => treatSpan s core p.1.toNat p.2.toNat keep) s

/-- A barrier of the package; all zero when it was never configured (R223). -/
def State.barrier (s : State) (n : Nat) : Barrier := (s.barriers.lookup n).getD {}

/-- The state with a barrier changed. -/
def State.modBarrier (s : State) (n : Nat) (f : Barrier → Barrier) : State :=
  { s with barriers := (n, f (s.barrier n)) :: s.barriers.filter fun p => p.1 != n }

/-! ### Conditions and effects of the waiting ops (R198) -/

/-- The elements of gq that a GDPOP would take have arrived, as their values. -/
def arrived (n : Nat) (q : List GElem) : Option (List (BitVec 32)) :=
  if q.length < n then none
  else (q.take n).foldr (fun g acc => match g.val, acc with | some v, some l => some (v :: l) | _, _ => none) (some [])

/-- The lane width that C[1:0] of GDPOP names. -/
def popWidth (f : XROp) : Nat := 8 * 2 ^ f.c.toNat

/-- GDPOP's effect once its elements are there (R215). -/
def tryGdpop (f : XROp) (s : State) (core : Nat) (r : XRun) : Option (State × List RegWrite) :=
  match arrived r.note (s.core core).e.gq with
  | none => none
  | some vs =>
    let w := popWidth f
    let val := ofLanes w r.note fun i => ((vs[i]?).getD 0).toNat
    some (s.modE core fun e => { e with gq := e.gq.drop r.note }, [.v f.a.toNat val (laneMask w r.note fun _ => true)])

/-- CPDRAIN's condition (R212). -/
def tryCpdrain (f : XROp) (s : State) (core : Nat) : Option (State × List RegWrite) :=
  let c := rd (s.core core).e.ch f.a.toNat {}
  if !c.running && c.copies.all fun x => x.gran.all fun g => g.2.2 then some (s, []) else none

/-- At system scope the stores that have reached the L2 go on to the memories (R282): the model writes every dirty sector of the L2
through (assumption 5). -/
def toScope (sys : Bool) (s : State) : State := if sys then pushAll s else s

/-- FENCE's condition, and the write-back of the lines of its colours (R219, R274). -/
def tryFence (f : XROp) (s : State) (core : Nat) (r : XRun) : Option (State × List RegWrite) :=
  if storesDone s core (colourMask f) r.since then some (toScope (decide (f.sc = 4)) (cleanColours s core (colourMask f)), []) else none

/-- ACQ's condition and effect (R221): it reads the latch after the older accesses of its slot, and not before a REL of its slot has
made its increment (R200, R220). -/
def tryAcq (s : State) (core : Nat) (r : XRun) : Option (State × List RegWrite) :=
  let behind := slotStarves s core r.slot ||
    (s.core core).e.bg.any fun b => b.slot == some r.slot && match b.kind with | .rel .. => true | _ => false
  let s := ((s.core core).e.xacc.filter fun a => a.slot = r.slot).foldl (fun s a => performAcc s core a) s
  let (s', b) := readPieces s (some core) false (s.core core).task [] r.pieces
  if behind then none
  else if (ofBytes b + 2 ^ 64 - r.note) % 2 ^ 64 < 2 ^ 63 then
    some (treatSpans s' core false (boundSpans s' core (.latch r.arg)), [])
  else none

/-- A channel of the core writes a publish slot: it runs, or a copy of it is not delivered (R210, R222). -/
def channelWrites (c : Chan) (slot : Nat) : Bool :=
  (c.running && rd c.run 0x20 0 == w64 (256 + slot)) || c.copies.any fun x => x.pubs == w64 (256 + slot) && x.gran.any fun g => !g.2.2

/-- Exchanges the backings of a publish slot and drops the translations of its range (R222, R285). -/
def exchange (s : State) (n : Nat) : State :=
  let p := rd s.pubs n {}
  let lo := p.vbase.toNat * 65536
  let hi := lo + p.nblk.toNat * 65536
  forgetRange { s with pubs := wr s.pubs n { p with sel := !p.sel } } p.bay.toNat lo hi

/-- A physical address lies in a backing of a publish slot (R271). -/
def inBackings (p : PubSlot) (pa : Nat) : Bool :=
  [p.b0, p.b1].any fun b => decide (b.toNat * 65536 ≤ pa ∧ pa < (b.toNat + p.nblk.toNat) * 65536)

/-- PUBLISH's condition and effect (R222): the core's buffered stores to the slot's backings are performed at package scope first (R273;
assumption 104). -/
def tryPublish (s : State) (core : Nat) (r : XRun) : Option (State × List RegWrite) :=
  let n := r.arg.toNat
  let p := rd s.pubs n {}
  let inRange (x : Piece) : Bool :=
    decide (p.vbase.toNat * 65536 < x.va.toNat + x.len ∧ x.va.toNat < p.vbase.toNat * 65536 + p.nblk.toNat * 65536)
  let owed := (s.core core).e.xacc.any fun a => owesStore a (BitVec.allOnes 8) r.since && a.pieces.any inRange
  if owed || (s.core core).e.ch.toArray.toList.any (channelWrites · n) then none
  else
    let mine (w : Buffered) : Bool := match w.loc with
      | .phys pa => inBackings p pa
      | _ => false
    some (exchange (drainUpTo s core mine) n, [])

/-- A phase of a barrier has completed in a cycle or after it. -/
def doneSince (b : Barrier) (cycle : Nat) : Bool := match b.doneAt with | some t => decide (cycle ≤ t) | none => false

/-- BWAIT's condition and effect (R226): on the barrier of the core's record the phase it names, on any other a completion in its issue
cycle or after it. -/
def tryBwait (s : State) (core : Nat) (r : XRun) : Option (State × List RegWrite) :=
  let n := r.arg.toNat
  let b := s.barrier n
  let ends := match (s.core core).e.barrec with
    | some (m, k) => if m = n then decide (k < b.phases) else doneSince b r.since
    | none => doneSince b r.since
  if ends then some (treatSpans s core false (boundSpans s core (.barrier n)), []) else none

/-- The condition of a waiting X op and, when it holds, its effect and register results. -/
def tryX (s : State) (core : Nat) (r : XRun) : Option (State × List RegWrite) :=
  match r.instr with
  | .cpdrain f => tryCpdrain f s core
  | .gdpop f => tryGdpop f s core r
  | .fence f => tryFence f s core r
  | .acq _ => tryAcq s core r
  | .publish _ => tryPublish s core r
  | .bwait _ => tryBwait s core r
  | _ => none

/-- The predicate that receives a waiting op's outcome, its timeout code and its tag. -/
def waitFields : Instr → Nat × Nat × Option (BitVec 3)
  | .cpdrain f => (f.q.toNat, f.tmo.toNat, tagOf f.taga)
  | .gdpop f => (f.q.toNat, f.tmo.toNat, tagOf f.taga)
  | .fence f => (f.q.toNat, f.tmo.toNat, tagOf f.taga)
  | .acq f => (f.q.toNat, f.tmo.toNat, tagOf f.taga)
  | .publish f => (f.q.toNat, f.tmo.toNat, tagOf f.taga)
  | .bwait f => (f.q.toNat, f.tmo.toNat, tagOf f.taga)
  | _ => (0, 0, none)

/-- A waiting op issues: it completes at once when its condition holds or its timeout is a single poll, and else holds its unit
(R143, R198). -/
def waitIssue (s : State) (r : XRun) : Iss :=
  let (q, tmo, tag) := waitFields r.instr
  match (if waitHeld s s.cur.core s.now then none else tryX s s.cur.core r) with
  | some (s', ws) => .go (land s' 1 (.q q true :: ws) tag) 1
  | none =>
    if codeExpired tmo s.now s.now && !waitHeld s s.cur.core s.now then .go (land s 1 [.q q false] tag) 1
    else .go (modCurE s fun e => { e with xrun := wr e.xrun (slotNum s.cur.slot - 4) (some r) }) 1

/-- What a waiting op keeps. -/
def xRunOf (s : State) (i : Instr) (arg : W64) (note : Nat) (ps : List Piece) : XRun :=
  { instr := i, slot := s.cur.slot, info := s.cur.info, bits := s.cur.bits, since := s.now, arg := arg, note := note, pieces := ps }

/-- Ends a waiting op of a core. -/
def endXWait (s : State) (core : Nat) (slot : Slot) (r : XRun) (ok : Bool) (ws : List RegWrite) : State :=
  let (q, _, tag) := waitFields r.instr
  (landSince s core slot r.since 1 (.q q ok :: ws) tag).modE core fun e =>
    { e with xrun := wr e.xrun (slotNum slot - 4) none, unitFree := wr e.unitFree (slotNum slot) (freedAt s core) }

/-- The waiting op of a slot. -/
def xWaiting (s : State) (core : Nat) (slot : Slot) : Option XRun :=
  if slotNum slot < 4 then none else rd (s.core core).e.xrun (slotNum slot - 4) none

/-- X_WAIT_COMPLETE (R198, R297): the condition of a waiting op holds. -/
def execXWaitComplete (core : Nat) (slot : Slot) (s : State) : Out :=
  match xWaiting s core slot with
  | none => .next s
  | some r =>
    match (if waitHeld s core r.since then none else tryX s core r) with
    | none => .next s
    | some (s', ws) => .next (endXWait s' core slot r true ws)

/-- X_WAIT_TIMEOUT (R198, R297): the timeout of a waiting op has run out and its condition does not hold. -/
def execXWaitTimeout (core : Nat) (slot : Slot) (s : State) : Out :=
  match xWaiting s core slot with
  | none => .next s
  | some r =>
    let waits := match r.instr with
      | .cpdrain _ => true | .gdpop _ => true | .fence _ => true | .acq _ => true | .publish _ => true | .bwait _ => true
      | _ => false
    if !waits || waitHeld s core r.since || (tryX s core r).isSome || !codeExpired (waitFields r.instr).2.1 r.since s.now then .next s
    else .next (endXWait s core slot r false [])

/-! ### Waiting ops -/

/-- Issues a waiting op of the XR form. -/
def xWait (s : State) (f : XROp) (fieldsOk : Bool) (body : State → Iss) : Out :=
  slotIssue s f.tagw f.taga true (f.rsv == 0 && fieldsOk) fun s _ => body s

/-- GDPOP (R215). -/
def execGdpop (f : XROp) (s : State) : Out :=
  xWait s f (decide (f.a.toNat < 32) && f.b == 0 && decide (f.c.toNat ≤ 2) && f.sc == 0) fun s =>
    let n := (sReg (curE s) f.fn.toNat).toNat % 256
    if n = 0 ∨ 128 < n then xFault s 2
    else if (curE s).gq.length < n then xFault s 4
    else waitIssue s (xRunOf s (.gdpop f) 0 n [])

/-- FENCE (R219). -/
def execFence (f : XROp) (s : State) : Out :=
  xWait s f (f.a == 0 && f.b == 0 && colourMaskOk f && scopeOk f) fun s => waitIssue s (xRunOf s (.fence f) 0 0 [])

/-- The checks of a latch: space 0x0, a multiple of 64, then those of its access kind, and outside every publish range (R220, R221). -/
def latchAccess (s : State) (va : W64) (kind : Nat) : State × Acc :=
  let sp := va.toNat / 2 ^ 60
  if sp ≠ 0 then (s, .bad { cause := class2 kind 2, addr := va })
  else
    match access s (slotWho s kind) va 8 64 .uc with
    | (s, .bad e) => (s, .bad e)
    | (s, .ok ps) =>
      if (pubOf s (s.bayOn s.cur.core) va.toNat).isSome then (s, .bad { cause := 0x108, addr := va }) else (s, .ok ps)

/-- ACQ (R221). A latch that an access table denies faults at issue (DEDUCED, see assumption 21). -/
def execAcq (f : XROp) (s : State) : Out :=
  xWait s f (f.a == 0 && f.fn == 0 && f.sc == 0) fun s =>
    let va := sReg (curE s) f.b.toNat
    match latchAccess s va 2 with
    | (_, .bad e) => errFault e
    | (s, .ok ps) =>
      match readKind s (some s.cur.core) ps with
      | some k => .fault (class2 2 k) va 0 0
      | none => waitIssue s (xRunOf s (.acq f) va (sReg (curE s) f.c.toNat).toNat ps)

/-- PUBLISH (R222). -/
def execPublish (f : XROp) (s : State) : Out :=
  xWait s f (f.a == 0 && f.c == 0 && f.fn == 0 && f.sc == 0) fun s =>
    let v := sReg (curE s) f.b.toNat
    if 255 < v.toNat then xFault s 2
    else
      let p := rd s.pubs v.toNat {}
      if !p.en then .fault 0x110 0 0 0
      else if p.bay.toNat ≠ s.bayOn s.cur.core then .fault 0x111 0 0 0
      else waitIssue s (xRunOf s (.publish f) v 0 [])

/-- BWAIT (R226). -/
def execBwait (f : XROp) (s : State) : Out :=
  xWait s f (f.a == 0 && f.c == 0 && f.fn == 0 && f.sc == 0) fun s =>
    let v := sReg (curE s) f.b.toNat
    if 4095 < v.toNat then xFault s 2
    else waitIssue s (xRunOf s (.bwait f) v 0 [])

/-! ### Bindings (R218) -/

/-- A latch address or barrier number as an object. -/
def bindObj (isBarrier : Bool) (v : W64) : BindObj := if isBarrier then .barrier v.toNat else .latch v

/-- Entries that the binding table will gain by changes still to be seen. -/
def pendingBinds (e : Engine) : Nat :=
  ((e.landings.flatMap fun l => l.writes.filterMap fun w => match w with
    | .bind b => if e.bindings.contains b then none else some b
    | _ => none).eraseDups).length

/-- The table holds an entry, or is about to. -/
def bindKnown (e : Engine) (b : Binding) : Bool := e.bindings.contains b || e.landings.any fun l => l.writes.contains (.bind b)

/-- BIND (R218): seen by ops of later cycles. -/
def execBind (f : XROp) (s : State) : Out :=
  xGated s f (bits f.fn 1 5 == 0) fun s tag =>
    let e := curE s
    let a := sReg e f.a.toNat
    let n := sReg e f.b.toNat
    let o := sReg e f.c.toNat
    let isB := bitAt f.fn 0
    let b : Binding := { addr := a, len := n, obj := bindObj isB o, col := f.sc }
    if 2 ^ 56 ≤ a.toNat ∨ n = 0 ∨ 2 ^ 56 < a.toNat + n.toNat ∨ 2 ^ 56 ≤ n.toNat then xFault s 2
    else if (if isB then decide (4095 < o.toNat) else decide (2 ^ 56 ≤ o.toNat ∨ o.toNat % 64 ≠ 0)) then xFault s 2
    else if 32 ≤ e.bindings.length + pendingBinds e && !bindKnown e b then xFault s 3
    else .go (tagOnly (land s 1 [.bind b] none) tag) 1

/-- UNBIND (R218). -/
def execUnbind (f : XROp) (s : State) : Out :=
  let k := bits f.fn 0 2
  slotIssue s f.tagw f.taga true
    (f.rsv == 0 && f.sc == 0 && f.q == 0 && f.tmo == 0 && bits f.fn 2 4 == 0 && k != 3 && f.a == 0 && f.b == 0 && (k != 2 || f.c == 0))
    fun s tag =>
      let o : Option BindObj := if k = 2 then none else some (bindObj (k = 1) (sReg (curE s) f.c.toNat))
      .go (tagOnly (land s 1 [.unbind o] none) tag) 1

/-! ### REL (R220) -/

/-- Background work of the executing op. -/
def enterBg (s : State) (kind : BgKind) (cols : BitVec 8) (sys : Bool) : State :=
  let (id, s) := s.bump
  modCurE s fun e => { e with bg := e.bg ++ [{ id := id, slot := some s.cur.slot, kind := kind, cols := cols, since := s.now, sys := sys, ctx := s.cur.ctx }] }

/-- REL (R220): it waits, in the background, for the colours of the bindings of its latch, or for all. -/
def execRel (f : XROp) (s : State) : Out :=
  xGated s f (f.a == 0 && f.c == 0 && f.fn == 0 && scopeOk f) fun s tag =>
    let va := sReg (curE s) f.b.toNat
    match latchAccess s va 4 with
    | (_, .bad e) => errFault e
    | (s, .ok ps) =>
      let bs := (curE s).bindings.filter fun b => b.obj = .latch va
      let cols : BitVec 8 := if bs.isEmpty then BitVec.allOnes 8 else bs.foldl (fun m b => setBit m b.col.toNat true) 0
      countS s 1 fun s => tagOnly (enterBg s (.rel ps (bs.map fun b => (b.addr, b.len))) cols (decide (f.sc = 4))) tag

/-- Removes a piece of background work. -/
def dropBg (s : State) (core id : Nat) : State := s.modE core fun e => { e with bg := e.bg.filter fun x => x.id ≠ id }

/-- One S count of a core is released. -/
def releaseS (s : State) (core : Nat) : State := s.modE core fun e => { e with cS := e.cS - 1 }

/-- A REL has incremented its latch, or its increment has ended with a fault: its S count is released. -/
def relDone (s : State) (core id : Nat) : State := releaseS (dropBg s core id) core

/-- REL_INCREMENT (R220, R278): the bound lines are written back, the selected stores and the earlier accesses of the slot are
performed, and 1 is added to the latch at its point of coherence. The increment of a latch in another package leaves, and is made with its
reply (R370, R373, R374). -/
def execRelIncrement (core id : Nat) (s : State) : Out :=
  let e := (s.core core).e
  match e.bg.find? (·.id = id) with
  | none => .next s
  | some b =>
    match b.kind with
    | .rel ps spans =>
      let behind := e.bg.any fun x => x.slot == b.slot && decide (x.id < b.id) && match x.kind with | .rel .. => true | _ => false
      let older := e.xacc.filter fun a => some a.slot = b.slot ∧ a.id < b.id
      if b.away then .next (relDone s core id)
      else if behind || s.now ≤ b.since then .next s
      else if (older.any fun a => !a.done && !accRoom s core a) || !amoRoom s core 0 ps then .next (starve s core)
      else
        let s := older.foldl (fun s a => performAcc s core a) s
        if !storesDone s core b.cols b.since then .next s
        else
          let s := toScope b.sys (cleanColours (treatSpans s core true spans) core b.cols)
          let va := (ps.head?.map (·.va)).getD 0
          if ps.any fun p => pieceDenied s p true true then .next (replyFault (relDone s core id) core b.ctx 0x0A4 va)
          else if (amoLost s core ps).isSome then .next (replyFault (relDone s core id) core b.ctx 0x0A6 va)
          else if (shadowTask s (s.core core).task).isNone && (ps.findSome? (remoteOf s)).isSome then
            .next ((amoPerform s core 0 true va ps 1 0).1.modE core fun e =>
              { e with bg := e.bg.map fun x => if x.id = id then { x with away := true } else x })
          else .next (amoPerform (relDone s core id) core 0 true va ps 1 0).1
    | _ => .next s

/-! ### Ridge barriers (R223 to R225) -/

/-- Barrier operands: a number above 4,095 is out of range, an unconfigured barrier raises 0x102 (R223, R224). -/
def barrierOp (s : State) (v : W64) (ok : Bool) (k : Iss) : Iss :=
  if 4095 < v.toNat ∨ !ok then xFault s 2
  else if (s.barrier v.toNat).target = 0 then .fault 0x102 0 0 0
  else k

/-- BARR (R224). -/
def execBarr (f : XROp) (s : State) : Out :=
  xGated s f (f.a == 0 && colourMaskOk f && f.sc == 0) fun s tag =>
    let v := sReg (curE s) f.b.toNat
    barrierOp s v true (countS s 1 fun s => tagOnly (enterBg s (.arrive v.toNat none) (colourMask f) false) tag)

/-- BEXP (R225). -/
def execBexp (f : XROp) (s : State) : Out :=
  xGated s f (f.a == 0 && f.fn == 0 && f.sc == 0) fun s tag =>
    let v := sReg (curE s) f.b.toNat
    let n := (sReg (curE s) f.c.toNat).toInt
    barrierOp s v (decide (-(2 ^ 31 : Int) ≤ n ∧ n < 2 ^ 31))
      (countS s 1 fun s => tagOnly (enterBg s (.expect v.toNat n) 0 false) tag)

/-- A fault that a Ridge barrier returns to a core (R223, R225). -/
def barrierFault (s : State) (core : Nat) (ctx : Ctx) (cause : BitVec 9) : State :=
  raise s core { src := 11, cause := cause, levelE := true, async := true, ctx := ctx }

/-- An arrival at a barrier: counted, or held for the next phase, with the phase it joined; or none beyond the target (R223). A
child's arrival is recorded with its sender (R378). -/
def arriveAt (b : Barrier) (child : Option (Nat × Nat)) : Option (Barrier × Nat) :=
  if b.arrived < b.target ∧ !b.closed then
    some ({ b with arrived := b.arrived + 1, children := b.children ++ child.toList }, b.phases)
  else if b.target < b.held + 1 then none
  else some ({ b with held := b.held + 1, heldChildren := b.heldChildren ++ child.toList }, b.phases + 1)

/-- The barrier of background work. -/
def bgBarrier (k : BgKind) : Option Nat :=
  match k with
  | .arrive n _ => some n
  | .expect n _ => some n
  | .rel .. => none

/-- An older arrival or expectation of the same slot or context to the same barrier is still under way (R377). -/
def bgBehind (e : Engine) (b : Bg) : Bool :=
  let sameSource (x : Bg) : Bool := x.slot == b.slot && match x.kind, b.kind with
    | .arrive _ g, .arrive _ h => g == h
    | _, _ => true
  e.bg.any fun x => decide (x.id < b.id) && sameSource x && bgBarrier x.kind == bgBarrier b.kind

/-- BARRIER_ARRIVAL (R223, R224, R129): once the selected stores are performed, an arrival reaches its barrier. -/
def execBarrierArrival (core id : Nat) (s : State) : Out :=
  let e := (s.core core).e
  match e.bg.find? (·.id = id) with
  | none => .next s
  | some b =>
    match b.kind with
    | .arrive n g =>
      if bgBehind e b || !storesDone s core b.cols b.since then .next s
      else
        let s := dropBg (toScope ((s.barrier n).scope == 4) (cleanColours s core b.cols)) core id
        let s := if g.isNone then releaseS s core else s
        match arriveAt (s.barrier n) none with
        | none => .next (barrierFault s core (g.getD b.ctx) 0x101)
        | some (b', k) =>
          let s := s.modBarrier n fun _ => b'
          .next (match g with
            | none => s.modE core fun e => { e with barrec := some (n, k) }
            | some x => s.modG core x fun c => { c with barrec := some (n, k) })
    | _ => .next s

/-- PEND of a barrier with an addition, unless the sum leaves the signed 32-bit range (R225). -/
def addPend (b : Barrier) (n : Int) : Option Barrier :=
  let v := b.pend + n
  if -(2 ^ 31 : Int) ≤ v ∧ v < 2 ^ 31 then some { b with pend := v } else none

/-- BARRIER_EXPECTATION_ARRIVAL (R223, R225). -/
def execBarrierExpectationArrival (core id : Nat) (s : State) : Out :=
  let e := (s.core core).e
  match e.bg.find? (·.id = id) with
  | none => .next s
  | some b =>
    match b.kind with
    | .expect n v =>
      if bgBehind e b || s.now ≤ b.since then .next s
      else
        let s := releaseS (dropBg s core id) core
        match addPend (s.barrier n) v with
        | none => .next (barrierFault s core b.ctx 0x100)
        | some b' => .next (s.modBarrier n fun _ => b')
    | _ => .next s

/-- The tree entry that names a barrier as a child: the lowest-numbered valid one (R378), as parent package and barrier. -/
def parentOf (s : State) (n : Nat) : Option (Nat × Nat) :=
  ((s.regs.rdgTree.toArray.toList.find? fun w => bitAt w 63 && bits w 0 12 == n)).map fun w => (bits w 24 6, bits w 12 12)

/-- The condition of a phase: ARRIVED = TARGET and PEND = 0, at a configured barrier (R223). -/
def phaseDue (b : Barrier) : Bool := b.target != 0 && b.arrived == b.target && b.pend == 0 && !b.closed

/-- A barrier whose phase completes (R223). -/
def nextPhase (now : Nat) (b : Barrier) : Barrier :=
  let k := min b.held b.target
  { b with arrived := k, held := b.held - k, phase := !b.phase, phases := b.phases + 1, doneAt := some now, closed := false, granted := false,
           children := b.heldChildren, heldChildren := [] }

/-- A class-2 flit sent to a package: on a link of its route set, kept until it is acknowledged; dropped when no link is left (R373,
R374). -/
def sendSync (s : State) (pkg : Nat) (op : RemoteOp) : State :=
  match linkTo s pkg 0 with
  | none => s
  | some l =>
    let k := rd s.links l {}
    { s with sent := s.sent ++ [.flit l pkg 0 op], links := wr s.links l { k with unacked := k.unacked ++ [(pkg, op)] } }

/-- Completes a phase, and sends a completion to each child whose arrival it counted (R223, R378). -/
def completePhase (s : State) (n : Nat) : State :=
  let b := s.barrier n
  let s := s.modBarrier n (nextPhase s.now)
  b.children.foldl (fun s c =>
    if c.1 = s.regs.plkSelf.toNat then s.modBarrier c.2 fun x => { x with granted := true }
    else sendSync s c.1 (.treeCompletion c.2)) s

/-- BARRIER_PHASE_COMPLETE (R223): a barrier that no tree entry names as a child completes its phase. -/
def execBarrierPhaseComplete (n : Nat) (s : State) : Out :=
  if phaseDue (s.barrier n) && (parentOf s n).isNone then .next (completePhase s n) else .next s

/-- BARRIER_CHILD_CLOSE (R378): a child closes and sends one arrival to its parent. -/
def execBarrierChildClose (n : Nat) (s : State) : Out :=
  match (if phaseDue (s.barrier n) then parentOf s n else none) with
  | none => .next s
  | some (pkg, p) =>
    let self := s.regs.plkSelf.toNat
    let s := s.modBarrier n fun b => { b with closed := true }
    if pkg = self then
      match arriveAt (s.barrier p) (some (self, n)) with
      | none => .next s
      | some (b, _) => .next (s.modBarrier p fun _ => b)
    else .next (sendSync s pkg (.childArrival p n))

/-- TREE_COMPLETION_ARRIVAL (R378): the completion of the parent's phase reaches a closed child; from another package it is an input. -/
def execTreeCompletionArrival (n : Nat) (s : State) : Out :=
  let b := s.barrier n
  let far := match parentOf s n with
    | some (pkg, _) => pkg != s.regs.plkSelf.toNat
    | none => false
  if b.closed && (b.granted || far) then .next (completePhase s n) else .next s

/-! ### Weight-stream subscription (R227) -/

/-- The array is free: no MACC runs and none occupies it. -/
def arrayFree (s : State) (core : Nat) : Bool :=
  let e := (s.core core).e
  e.macc.isNone && decide (rd e.unitFree 3 0 ≤ s.now)

/-- WSSUB (R227). -/
def execWssub (f : XROp) (s : State) : Out :=
  xGated s f (f.a == 0 && decide (f.c.toNat ≤ 1) && f.fn == 0 && f.sc == 0) fun s tag =>
    let v := sReg (curE s) f.b.toNat
    let n := f.c.toNat
    if 127 < v.toNat ∨ (rd (curE s).wb n {}).group.isSome then xFault s 2
    else if !arrayFree s s.cur.core then .wait
    else
      let w := { rd (curE s).wb n {} with full0 := false, full1 := false, cursorHalf := false, cursorOff := 0, nextFill := false,
                                          group := some v.toNat }
      .go (tagOnly (modCurE s fun e => { e with wb := wr e.wb n w }) tag) 1

/-- WSUNS (R227). -/
def execWsuns (f : XROp) (s : State) : Out :=
  let ok := f.rsv == 0 && f.tmo == 0 && f.q == 0 && f.a == 0 && f.b == 0 && decide (f.c.toNat ≤ 1) && f.fn == 0 && f.sc == 0
  slotIssue s f.tagw f.taga true ok fun s tag =>
    if !arrayFree s s.cur.core then .wait
    else
      let n := f.c.toNat
      let w := rd (curE s).wb n {}
      let w := if w.group.isNone then w else { w with full0 := false, full1 := false, group := none }
      .go (tagOnly (modCurE s fun e => { e with wb := wr e.wb n w }) tag) 1

end Sys2Proof.Machine
end

