-- ==== Sys2Proof/Machine/Matrix.lean ====
section
/-! DEFINITION. The matrix array (R177 to R196): operand layouts, MLDA, MACC and its beats under the numerics profiles (R32 to R38),
banks, drains, MACCLD, the row mask, gangs and weight release. -/

namespace Sys2Proof.Machine

/-! ### Address registers (R179, R180) -/

/-- BASE of an ma register. -/
def maBase (v : W64) : Nat := bits v 0 20
/-- RSTR. -/
def maRstr (v : W64) : Nat := bits v 20 20
/-- KSTR. -/
def maKstr (v : W64) : Nat := bits v 40 20
/-- The reserved field is not zero. -/
def maBad (v : W64) : Bool := bits v 60 4 != 0

/-- Reads an ma register. -/
def maReg (e : Engine) (n : Nat) : W64 := rd e.ma n 0

/-! ### Formats of operands (R181, R182) -/

/-- Element width of an A operand. -/
def aWidth (v : BitVec 32) : Nat :=
  match fmFamily v with
  | 0 => fmWidth v
  | 1 => fmWidth v + 1
  | 2 => mxWidth (fmWidth v)
  | 3 => 8
  | _ => 16

/-- Bytes that one row's read takes: its elements, or its whole block (R181). -/
def aRowLen (v : BitVec 32) : Nat :=
  match fmFamily v with
  | 1 => 2 + 2 * aWidth v
  | 2 => 4 * aWidth v
  | _ => aWidth v

/-- Chunks of 8 in a group of the A operand. -/
def aGroup (v : BitVec 32) : Nat :=
  match fmFamily v with
  | 1 => 2
  | 2 => 4
  | _ => 1

/-- How a plane stream is laid out (R182): header blocks of a group, chunks of a group, sign and exponent blocks of a chunk, plane
blocks of a chunk, and whether the implicit-bit plane costs a beat. -/
structure BLayout where
  hdr : Nat
  chunks : Nat
  side : Nat
  planes : Nat
  implicit : Bool
  deriving DecidableEq, Repr

/-- Exponent and fraction bits of a floating element. -/
def floatBits (v : BitVec 32) : Nat × Nat :=
  match fmFamily v, fmWidth v with
  | 2, 0 => (2, 1)
  | 2, 1 => (2, 3)
  | 2, 2 => (3, 2)
  | 2, 3 => (4, 3)
  | 2, 4 => (5, 2)
  | 3, 0 => (4, 3)
  | 3, _ => (5, 2)
  | _, _ => (8, 7)

/-- The layout of a B operand. -/
def bLayout (v : BitVec 32) : BLayout :=
  let w := fmWidth v
  let fl : Nat × Nat := floatBits v
  match fmFamily v with
  | 0 => { hdr := 0, chunks := 1, side := 0, planes := w, implicit := false }
  | 1 => { hdr := 2, chunks := 2, side := 1, planes := w, implicit := false }
  | 2 => if w = 5 then { hdr := 1, chunks := 4, side := 0, planes := 8, implicit := false }
         else { hdr := 1, chunks := 4, side := 1 + fl.1, planes := fl.2, implicit := true }
  | _ => { hdr := 0, chunks := 1, side := 1 + fl.1, planes := fl.2, implicit := true }

/-- Beats of a chunk. -/
def bPlanes (v : BitVec 32) : Nat := let l := bLayout v; l.planes + if l.implicit then 1 else 0

/-- The bit of an element's code that block `i` of a chunk record holds (R182). -/
def bBitPos (v : BitVec 32) (i : Nat) : Nat :=
  let l := bLayout v
  if l.side = 0 then i
  else if fmFamily v = 1 then (if i = 0 then fmWidth v else i - 1)
  else
    let (e, f) := floatBits v
    if i = 0 then e + f else if i ≤ e then f + (i - 1) else i - 1 - e

/-- The value of an element's code with its block's header; `j` is its place in the block. None for a reserved code (R19). -/
def elemNum (v : BitVec 32) (hdr j code : Nat) : Option Num :=
  match fmFamily v with
  | 0 => (narrowInt v code).map numOfInt
  | 1 => some (gristNum (fmWidth v) (hdr % 256) ((hdr / 256).testBit (j / 2)) code)
  | 2 => some (mxNum (fmWidth v) hdr code)
  | 3 => some (decodeF (fp8Fmt v) code)
  | _ => some (decodeF bf16 code)

/-! ### Reading A (R181, R184) -/

/-- Scratchpad bytes of a core as a number. -/
def scratchNum (s : State) (core off n : Nat) : Nat := ofBytes (memRead (s.core core).scratch off n)

/-- Chunk `u` of A: per row, the 8 codes and the block header. -/
def readA (s : State) (core : Nat) (v : BitVec 32) (ma ma1 : W64) (u : Nat) (transposed : Bool) : List (Nat × Nat) :=
  let w := aWidth v
  let b := maBase ma
  let rs := maRstr ma
  let ks := maKstr ma
  if transposed then
    let cols := (List.range 8).map fun k => scratchNum s core (b + u * ks + k * rs) (32 * w)
    (List.range 256).map fun r => ((cols.zipIdx.map fun c => c.1 / 2 ^ (w * r) % 2 ^ w * 2 ^ (w * c.2)).sum, 0)
  else
    (List.range 256).map fun r =>
      let x := scratchNum s core (b + r * rs + u / aGroup v * ks) (aRowLen v)
      match fmFamily v with
      | 1 => (x / 2 ^ (16 + 8 * (u % 2) * w) % 2 ^ (8 * w), x % 2 ^ 16)
      | 2 => (x / 2 ^ (8 * (u % 4) * w) % 2 ^ (8 * w), scratchNum s core (maBase ma1 + r * maRstr ma1 + u / 4 * maKstr ma1) 1)
      | _ => (x, 0)

/-- One past the last byte that chunk `u` of A takes, over every row. -/
def aEnd (v : BitVec 32) (ma ma1 : W64) (u : Nat) (transposed : Bool) : Nat :=
  if transposed then maBase ma + u * maKstr ma + 7 * maRstr ma + 32 * aWidth v
  else
    let e := maBase ma + 255 * maRstr ma + u / aGroup v * maKstr ma + aRowLen v
    if fmFamily v = 2 then max e (maBase ma1 + 255 * maRstr ma1 + u / 4 * maKstr ma1 + 1) else e

/-- The banks that a read of chunk `u` of A uses. -/
def aBanks (v : BitVec 32) (ma ma1 : W64) (u : Nat) (transposed : Bool) : BitVec 16 :=
  if transposed then
    (List.range 8).foldl (fun m k => m ||| banksOf (maBase ma + u * maKstr ma + k * maRstr ma) (32 * aWidth v)) 0
  else
    (List.range 256).foldl (fun m r =>
      let m := m ||| banksOf (maBase ma + r * maRstr ma + u / aGroup v * maKstr ma) (aRowLen v)
      if fmFamily v = 2 then m ||| banksOf (maBase ma1 + r * maRstr ma1 + u / 4 * maKstr ma1) 1 else m) 0

/-! ### Accumulation (R35 to R38) -/

/-- A product as sign, significand and exponent, zero for what is not finite. -/
def finParts : Num → Bool × Nat × Int
  | .fin n s e => (n, s, e)
  | _ => (false, 0, 0)

/-- The exact value of a group: products truncated below the window of `w` bits under the greatest weight (R37). -/
def groupSum (w : Nat) (ps : List Num) : Num :=
  if ps.any isNan then .nan
  else
    let infs := ps.filter isInf
    if infs.any isNeg && infs.any fun x => !isNeg x then .nan
    else
      match infs with
      | x :: _ => x
      | [] =>
        let nz := (ps.map finParts).filter fun p => p.2.1 != 0
        match nz with
        | [] => .fin false 0 0
        | p :: r =>
          let weight (q : Bool × Nat × Int) : Int := q.2.2 + Int.ofNat (bitlen q.2.1) - 1
          let top := r.foldl (fun m q => max m (weight q)) (weight p)
          let low := top - Int.ofNat w + 1
          let term (q : Bool × Nat × Int) : Int :=
            let m := if low ≤ q.2.2 then q.2.1 * 2 ^ (q.2.2 - low).toNat else q.2.1 / 2 ^ (low - q.2.2).toNat
            if q.1 then -Int.ofNat m else Int.ofNat m
          let g := (nz.map term).sum
          .fin (decide (g < 0)) g.natAbs low

/-- An FP32 cell with a group's value added (R37). -/
def accumulate (acc : Nat) (g : Num) : Nat :=
  let a := decodeF fp32 acc
  if isNan a || isNan g then 0x7FC00000
  else if isZero g then acc
  else convertFloat (addNum .rne a g) fp32 .rne false

/-- An exact integer value. -/
def numInt : Num → Int
  | .fin n s _ => if n then -Int.ofNat s else Int.ofNat s
  | _ => 0

/-- A 32-bit integer cell with a sum added (R38). -/
def accumulateInt (acc : Nat) (sum : Int) (sat : Bool) : Nat :=
  let v := signedOf 32 acc + sum
  unsignedOf 32 (if sat then max (-(2 ^ 31 : Int)) (min (2 ^ 31 - 1) v) else v)

/-- The codes of a chunk's B column `c`: from the blocks, byte `c` bit `k` for K-offset `k` (R182). -/
def bCode (v : BitVec 32) (blk : List (BitVec 1024)) (c k : Nat) : Nat :=
  ((blk.zipIdx.map fun b => if bitAt b.1 (8 * c + k) then 2 ^ bBitPos v b.2 else 0)).sum

/-- The header of column `c`: E and μ, or the scale. -/
def bHdr (h : List (BitVec 1024)) (c : Nat) : Nat := (h.zipIdx.map fun b => bits b.1 (8 * c) 8 * 256 ^ b.2).sum

/-- The A elements of a chunk: per row, 8 values. -/
def chunkA (r : MaccRun) (x : Chunk) : List (List (Option Num)) :=
  let w := aWidth r.fma
  let u := r.start + x.t
  x.a.map fun row => (List.range 8).map fun k => elemNum r.fma row.2 (8 * (u % aGroup r.fma) + k) (row.1 / 2 ^ (w * k) % 2 ^ w)

/-- The B elements of a chunk: per column, 8 values. -/
def chunkB (r : MaccRun) (x : Chunk) : List (List (Option Num)) :=
  let g := (bLayout r.fmb).chunks
  (List.range 128).map fun c => (List.range 8).map fun k => elemNum r.fmb (bHdr x.hdr c) (8 * (x.t % g) + k) (bCode r.fmb x.blk c k)

/-- The first reserved code among rows or columns. -/
def firstReserved (l : List (List (Option Num))) : Option (Nat × Nat) :=
  (l.zipIdx.findSome? fun p => (p.1.findIdx? Option.isNone).map fun k => (p.2, k))

/-- The present bank cells with one group of chunks accumulated (R34 to R38). -/
def accumulateGroup (r : MaccRun) (cs : List Chunk) (bank : Vector V4096 256) : Vector V4096 256 :=
  let as_ := cs.map (chunkA r)
  let bs := cs.map (chunkB r)
  let prof := r.info.prof.toNat
  let sat := bitAt r.f.mode 0
  let rowA (i : Nat) : List Num := as_.flatMap fun a => ((a[i]?).getD []).map fun x => x.getD .nan
  let colB := (List.range 128).map fun c => bs.flatMap fun b => ((b[c]?).getD []).map fun x => x.getD .nan
  Vector.ofFn fun i =>
    let a := rowA i.val
    let old := (rd bank i.val 0).toNat
    let cells := colB.zipIdx.map fun b =>
      let ps := List.zipWith mulNum a b.1
      let acc := lane old 32 b.2
      if prof = 3 then accumulateInt acc ((ps.map numInt).sum) sat else accumulate acc (groupSum (if prof = 1 then 24 else 40) ps)
    BitVec.ofNat 4096 ((cells.zipIdx.map fun c => c.1 % 2 ^ 32 * 2 ^ (32 * c.2)).sum)

/-- The active bank. -/
def activeBank (e : Engine) : Vector V4096 256 := if e.ac1Active then e.ac1 else e.ac0

/-- The draining bank. -/
def drainBank (e : Engine) : Vector V4096 256 := if e.ac1Active then e.ac0 else e.ac1

/-- Replaces the active bank. -/
def setActive (e : Engine) (b : Vector V4096 256) : Engine := if e.ac1Active then { e with ac1 := b } else { e with ac0 := b }

/-- Replaces the draining bank. -/
def setDrain (e : Engine) (b : Vector V4096 256) : Engine := if e.ac1Active then { e with ac0 := b } else { e with ac1 := b }

/-! ### Plane streams (R182, R187, R195) -/

/-- The half of a weight buffer is full. -/
def halfFull (w : WBuf) (h : Bool) : Bool := if h then w.full1 else w.full0

/-- The cursor moved on by 128 bytes (R187). -/
def stepCursor (w : WBuf) : WBuf :=
  if w.cursorOff + 128 < 65536 then { w with cursorOff := w.cursorOff + 128 }
  else { w with cursorOff := 0, cursorHalf := !w.cursorHalf }

/-- The next `n` blocks of a weight buffer, or none while a half they need is not full (R187). -/
def readBuffer : Nat → WBuf → Option (List (BitVec 1024) × WBuf)
  | 0, w => some ([], w)
  | n + 1, w =>
    if !halfFull w w.cursorHalf then none
    else
      let h := if w.cursorHalf then w.half1 else w.half0
      let b : BitVec 1024 := (h >>> (8 * w.cursorOff)).setWidth 1024
      match readBuffer n (stepCursor w) with
      | none => none
      | some (r, w) => some (b :: r, w)

/-- The next `n` blocks of a MACC's plane stream and the state with them consumed; none while the array is held (R187). -/
def readBlocks (s : State) (core : Nat) (r : MaccRun) (n : Nat) : Option (State × List (BitVec 1024)) :=
  if r.f.bsrc.toNat < 2 then
    match readBuffer n (rd (s.core core).e.wb r.f.bsrc.toNat {}) with
    | none => none
    | some (l, w) => some (s.modE core fun e => { e with wb := wr e.wb r.f.bsrc.toNat w }, l)
  else
    let off := maBase r.mb + r.used
    let l := (List.range n).map fun i => BitVec.ofNat 1024 (scratchNum s core (off + 128 * i) 128)
    some (holdBanks s core s.now (banksOf off (128 * n)), l)

/-- Blocks that beat `i` of chunk `t` reads: headers, then those of sign and exponent, then a plane (R195). -/
def beatBlocks (l : BLayout) (t i : Nat) : Nat :=
  (if i = 0 then (if t % l.chunks = 0 then l.hdr else 0) + l.side else 0) + (if l.implicit then (if i = 0 then 0 else 1) else 1)

/-- Chunks of a group of the profile (R36). -/
def profileGroup (prof : BitVec 4) : Nat := if prof = 2 then 4 else 1

/-- Ends a MACC after its last beat: the array is free in the next cycle, its cells are final two cycles on (R178, R185). -/
def endMacc (s : State) (core : Nat) : State :=
  s.modE core fun e =>
    { e with macc := none, unitFree := wr e.unitFree 3 (s.now + 1), accLands := s.now + 3, tiles := e.tiles ++ [s.now + 3] }

/-- A reserved code in a chunk: the MACC stops before that chunk's group is accumulated and raises 0x01A; it goes on at the chunk, with
the chunks of the group before it as they were read (R186, R196). -/
def maccFault (s : State) (core : Nat) (r : MaccRun) (t opnd row k : Nat) : State :=
  let p := bPlanes r.fmb
  let (used, half, off) := r.mark
  let s := s.modE core fun e =>
    let e := if r.f.bsrc.toNat < 2 then
        let w := { rd e.wb r.f.bsrc.toNat {} with cursorHalf := half, cursorOff := off }
        { e with wb := wr e.wb r.f.bsrc.toNat w }
      else e
    { e with macc := some { r with beat := t * p, next := s.now + 1, used := used, blk := [], halted := true } }
  opFault s r.info r.bits .m core 0x01A 0 (w64 (opnd * 2 ^ 16 + row * 2 ^ 8 + k)) (w64 t)

/-- The core whose scratchpad gives a MACC its A: its own, or that of position 0 or 4 of its gang, wherever the task has been restored
(R193, R196). -/
def maccSource (core : Nat) (r : MaccRun) : Nat := if r.lead then core / 4 * 4 else core

/-- One beat of a MACC (R185, R195); the state unchanged while the array is held. -/
def maccBeatOf (s : State) (core : Nat) (r : MaccRun) : State :=
  let r := { r with halted := false }
  let l := bLayout r.fmb
  let p := bPlanes r.fmb
  let t := r.beat / p
  let i := r.beat % p
  let n := (r.f.beats.toNat + 1) / p
  let wb := rd (s.core core).e.wb r.f.bsrc.toNat {}
  match readBlocks s core r (beatBlocks l t i) with
  | none => s.modE core fun e => { e with macc := some { r with next := s.now + 1 } }
  | some (s, got) =>
    let r := if i = 0 then { r with mark := (r.used, wb.cursorHalf, wb.cursorOff) } else r
    let h := if i = 0 ∧ t % l.chunks = 0 then l.hdr else 0
    let r := { r with
      used := r.used + 128 * got.length
      hdr := if h = 0 then r.hdr else got.take h
      blk := (if i = 0 then [] else r.blk) ++ got.drop h }
    let (s, r) := if i = 0 ∧ t + 1 < n then
        let src := maccSource core r
        (holdBanks s src s.now (aBanks r.fma r.ma r.maScale (r.start + t + 1) r.transposed),
         { r with aNext := readA s src r.fma r.ma r.maScale (r.start + t + 1) r.transposed })
      else (s, r)
    if i + 1 < p then s.modE core fun e => { e with macc := some { r with beat := r.beat + 1, next := s.now + 1 } }
    else
      let x : Chunk := { t := t, a := r.aNow, hdr := r.hdr, blk := r.blk }
      match firstReserved (chunkA r x), firstReserved (chunkB r x) with
      | some (row, k), _ => maccFault s core r t 0 row k
      | none, some (col, k) => maccFault s core r t 1 col k
      | none, none =>
        let g := r.group ++ [x]
        let full := decide (profileGroup r.info.prof ≤ g.length ∨ n ≤ t + 1)
        let s := if full then s.modE core fun e => setActive e (accumulateGroup r g (activeBank e)) else s
        if n ≤ t + 1 then endMacc s core
        else
          let r := { r with beat := r.beat + 1, next := s.now + 1, group := if full then [] else g, aNow := r.aNext, blk := [] }
          s.modE core fun e => { e with macc := some r }

/-- A MACC stands where a stop may find it: at a group boundary, or at the chunk with a reserved code that has stopped it (R186,
R196). -/
def atBoundary (r : MaccRun) : Bool := r.halted || (r.group.isEmpty && r.beat % bPlanes r.fmb == 0)

/-- MACC_BEAT (R185, R187): the next beat of a core's MACC. A stop lets it run to its next group boundary (R196). -/
def execMaccBeat (core : Nat) (s : State) : Out :=
  let c := s.core core
  match c.e.macc with
  | none => .next s
  | some r =>
    let goes := match c.stop with
      | none => decide (c.stallUntil ≤ s.now) && !c.restoring && c.task.isSome
      | some st => !st.reached && (st.b == s.now || !atBoundary r)
    if rd s.powered (core / 160) false && goes && decide (r.next ≤ s.now) then .next (maccBeatOf s core r) else .next s

/-! ### Issue of M ops (R177, R178) -/

/-- The drain port is free. -/
def drainPortFree (s : State) (core : Nat) : Bool :=
  let e := (s.core core).e
  e.drain.isNone && decide (e.drainFree ≤ s.now)

/-- Issues an M op that needs the array, the drain port, both or neither; the M slot issues one op a cycle. -/
def mIssue (s : State) (f : MOp) (array drain fieldsOk : Bool) (body : State → Option (BitVec 3) → Iss) : Out :=
  let n := s.cur.core
  slotIssue s f.tagw f.taga
    ((!array || arrayFree s n) && (!drain || drainPortFree s n) && decide ((curE s).mNext ≤ s.now)) fieldsOk body

/-- The op issues and occupies the array for `occ` cycles. -/
def mGo (s : State) (occ : Nat) (tag : Option (BitVec 3)) : Iss :=
  let s := modCurE (tagOnly s tag) fun e => { e with mNext := s.now + 1 }
  .go s (max occ (rd (curE s).unitFree 3 0 - s.now))

/-- A tile op that issues: it waits while T stands at 255 (R68, R178). -/
def countT (s : State) (k : State → Iss) : Iss := if 255 ≤ (curE s).cT then .wait else k (modCurE s fun e => { e with cT := e.cT + 1 })

/-- A tile op that completes before a cycle. -/
def tileUntil (s : State) (at_ : Nat) : State := modCurE s fun e => { e with tiles := e.tiles ++ [at_] }

/-- The first faulty condition of an M op, by kind: reserved field, out of range, format register, address (R82). -/
def mCause (k1 k2 k6 k7 : Bool) : Option (BitVec 9) :=
  if k1 then some 0x019 else if k2 then some 0x01A else if k6 then some 0x01E else if k7 then some 0x01F else none

/-- An M op raises the fault that its checks find, and goes on without one. -/
def mChecks (c : Option (BitVec 9)) (k : Iss) : Iss :=
  match c with
  | some c => .fault c 0 0 0
  | none => k

/-- A sum of addresses leaves the scratchpad (R180). -/
def pastEnd (n : Nat) : Bool := decide (2 ^ 20 < n)

/-! ### Gangs (R193) -/

/-- The four members of the gang of a core. -/
def gangMembers (core : Nat) : List Nat := (List.range 4).map (core / 4 * 4 + ·)

/-- The op at the head of a core's M slot, when the op and its core are ready: it may issue but for its gang. -/
def mHead (s : State) (core : Nat) (drain : Bool) : Option QOp :=
  let e := (s.core core).e
  match (slotQ e .m).head? with
  | some o =>
    if decide (o.notBefore ≤ s.now) && streamRuns s core && arrayFree s core && (!drain || drainPortFree s core) &&
        decide (e.mNext ≤ s.now ∧ e.tags &&& BitVec.ofNat 8 (bits o.bits 32 8) = 0) then some o else none
  | none => none

/-- An array op (R177, R193): MLDA, MLDAT, MACC, or MZERO of the active bank. -/
def isArrayOp (b : W64) : Bool :=
  let o := bits b 0 5
  o == 1 || o == 2 || o == 3 || (o == 4 && bits b 13 3 == 1)

/-- The array op at the head of a member with what it would give the gang as leader; an MZERO gives no format value. -/
def gangOpOf (s : State) (core : Nat) (o : QOp) : Option GangOp :=
  let e := (s.core core).e
  let k := bits o.bits 20 3
  let v := if bits o.bits 0 5 = 4 then some 0 else fmRead s core o.info (bits o.bits 16 2)
  v.map fun v =>
    { opc := bits o.bits 0 5, beats := BitVec.ofNat 8 (bits o.bits 5 8), ma := maReg e k, maScale := maReg e ((k + 1) % 8), fma := v }

/-- The op with which a member takes part in the handshake after `n` of them: the one it has issued, or the one at its head. -/
def gangPart (s : State) (core n : Nat) : Option GangOp :=
  let e := (s.core core).e
  if n < e.gangN then e.gangOp
  else if e.gangN < n then none
  else match mHead s core false with
    | some o => if isArrayOp o.bits && decide (e.cT < 255) then gangOpOf s core o else none
    | none => none

/-- The format value that FA names at an op is valid, where it can be read (R23, R193). -/
def ownFmValid (s : State) (n : Nat) (i : BInfo) (f : MOp) : Bool := ((fmRead s n i f.fa.toNat).map fmValid).getD true

/-- Families that an A or B operand takes (R184, R186). -/
def operandFamily (v : BitVec 32) : Bool := decide (fmFamily v ≤ 4)

/-- The fields that MLDA and MLDAT do not use are zero. -/
def latchFields (f : MOp) : Bool := f.bsrc == 0 && f.fb == 0 && f.sel == 0 && f.beats == 0

/-- What MLDA or MLDAT of a core faults with, given what it takes from its leader (R184). -/
def latchCause (s : State) (n : Nat) (i : BInfo) (f : MOp) (g : GangOp) (transposed : Bool) : Option (BitVec 9) :=
  let st := f.mode.toNat
  let v := g.fma
  let fam := fmFamily v
  let k1 := maBad (maReg (s.core n).e f.ma.toNat) || maBad g.ma || (fmValid v &&
    (!operandFamily v || (transposed && (fam == 1 || fam == 2)) || decide (aGroup v ≤ st) ||
      (fam == 2 && (bitAt f.ma 0 || maBad g.maScale))))
  mCause k1 false (!fmValid v || !ownFmValid s n i f) (pastEnd (aEnd v g.ma g.maScale st transposed))

/-- The fields that MACC does not use are zero, and BSRC names a source. -/
def maccFields (f : MOp) : Bool := f.sel == 0 && f.bsrc != 2 && f.bsrc != 3

/-- The address register of a MACC's B, when it lies in the scratchpad. -/
def maccMb (e : Engine) (f : MOp) : W64 := if 4 ≤ f.bsrc.toNat then maReg e f.bsrc.toNat else 0

/-- A format value of a family that a MACC of a profile does not take (R186). -/
def maccFamBad (prof : BitVec 4) (v : BitVec 32) : Bool := fmValid v && (!operandFamily v || (prof == 3 && fmFamily v != 0))

/-- What a MACC of a core faults with, given fm(FB) and what it takes from its leader (R186, R187). -/
def maccCause (s : State) (n : Nat) (i : BInfo) (f : MOp) (vb : BitVec 32) (g : GangOp) : Option (BitVec 9) :=
  let e := (s.core n).e
  let mb := maccMb e f
  let va := g.fma
  let b := f.beats.toNat + 1
  let l := bLayout vb
  let p := bPlanes vb
  let k := b / p
  let start := (e.alatch.map (·.start)).getD 0
  let tr := (e.alatch.map (·.transposed)).getD false
  let k1 := maBad (maReg e f.ma.toNat) || maBad g.ma || maBad mb || maccFamBad i.prof va || maccFamBad i.prof vb || (bitAt f.mode 0 && i.prof != 3) ||
    (fmValid va && fmFamily va == 2 && (bitAt f.ma 0 || maBad g.maScale))
  let wb := rd e.wb f.bsrc.toNat {}
  let k2 := (match e.alatch with | none => true | some a => a.fm != va) || (decide (f.bsrc.toNat < 2) && wb.group.isNone) ||
    (fmValid vb && operandFamily vb && (b % p != 0 || k % l.chunks != 0))
  let bEnd := maBase mb + 128 * (k * (l.side + l.planes) + k / l.chunks * l.hdr)
  let k7 := (decide (1 < k) && pastEnd (aEnd va g.ma g.maScale (start + k - 1) tr)) || (decide (4 ≤ f.bsrc.toNat) && pastEnd bEnd)
  mCause k1 k2 (!fmValid va || !fmValid vb || !ownFmValid s n i f) k7

/-- A MACC waits for the half of its weight buffer at the cursor to be full (R187). -/
def maccStarved (e : Engine) (f : MOp) : Bool :=
  let wb := rd e.wb f.bsrc.toNat {}
  decide (f.bsrc.toNat < 2) && !halfFull wb wb.cursorHalf

/-- The fields that MZERO does not use are zero, and it names a bank. -/
def zeroFields (f : MOp) : Bool :=
  f.mode == 0 && f.bsrc == 0 && f.ma == 0 && f.fb == 0 && f.fa == 0 && f.beats == 0 && !bitAt f.sel 2 && (bitAt f.sel 0 || bitAt f.sel 1)

/-- The array op at a member's head neither faults nor waits, given what it takes from the leader (R193). -/
def gangFits (s : State) (core n : Nat) (g : GangOp) : Bool :=
  let e := (s.core core).e
  if n < e.gangN then true
  else
    match mHead s core false with
    | none => false
    | some o =>
      let f := Sys2Proof.mop o.bits.toNat
      tagaOk f.taga && !tagSet e (tagOf f.taga) && decide (e.cT < 255) &&
        match bits o.bits 0 5 with
        | 1 => latchFields f && (latchCause s core o.info f g false).isNone
        | 2 => latchFields f && (latchCause s core o.info f g true).isNone
        | 3 => maccFields f && !maccStarved e f && match fmRead s core o.info f.fb.toNat with
          | some vb => (maccCause s core o.info f vb g).isNone
          | none => false
        | _ => zeroFields f

/-- The handshake of a ganged array op. A fault of its own is raised at once (R83); else it waits for the four members, faults when
they differ, and, once none of them has a fault or a wait of its own, nor is held by its own bundle or tags (`gangHeld`), goes on with the
leader's part in the cycle in which all do. -/
def ganged (s : State) (k : GangOp → Iss) : Iss :=
  let n := s.cur.core
  let c := (curE s).gangN
  let parts := (gangMembers n).map fun m => gangPart s m c
  match gangPart s n c, gangPart s (n / 4 * 4) c with
  | some own, some lead =>
    let differ := !(parts.any Option.isNone) && parts.any fun p => match p with
      | some q => q.opc != own.opc || (own.opc == 3 && q.beats != own.beats)
      | none => false
    match k lead with
    | .fault cause a d0 d1 => if differ && cause != 0x019 then .fault 0x01A 0 0 0 else .fault cause a d0 d1
    | .wait => if differ then .fault 0x01A 0 0 0 else .wait
    | .go t b =>
      if differ then .fault 0x01A 0 0 0
      else if parts.any Option.isNone || (curE s).gangHeld == some s.now || !(gangMembers n).all fun m => gangFits s m c lead then .wait
      else .go (modCurE t fun e => { e with gangN := c + 1, gangOp := some own }) b
  | _, _ => .wait

/-- MLDA, MLDAT or MACC with what it takes from its leader, or from itself outside a gang; a reserved field of its own address register
is found first (R83). -/
def withLeader (s : State) (f : MOp) (k : GangOp → Iss) : Iss :=
  if maBad (maReg (curE s) f.ma.toNat) then .fault 0x019 0 0 0
  else if (curE s).ganged then ganged s k
  else
    withFm s f.fa.toNat fun v =>
      k { opc := 0, beats := f.beats, ma := maReg (curE s) f.ma.toNat, maScale := maReg (curE s) ((f.ma.toNat + 1) % 8), fma := v }

/-- The core whose scratchpad gives A to a latch op. -/
def aSource (s : State) : Nat := if (curE s).ganged then s.cur.core / 4 * 4 else s.cur.core

/-! ### M ops -/

/-- MNOP (R183). -/
def execMnop (f : MOp) (s : State) : Out :=
  mIssue s f false false (f.mode == 0 && f.bsrc == 0 && f.ma == 0 && f.fb == 0 && f.fa == 0 && f.sel == 0 && f.beats == 0)
    fun s tag => mGo s 0 tag

/-- MLDA and MLDAT (R184). The scale byte of an MX row does not count in one row's read, and all bytes are read in the issue cycle (DESIGN
CHOICE, see assumption 107). -/
def latchIssue (s : State) (f : MOp) (transposed : Bool) : Out :=
  mIssue s f true false (latchFields f) fun s tag =>
    let st := f.mode.toNat
    withLeader s f fun g =>
      let v := g.fma
      mChecks (latchCause s s.cur.core s.cur.info f g transposed)
        (countT s fun s =>
          let len := aRowLen v
          let occ := if transposed then (if aWidth v ≤ 8 then 1 else 2) else if len ≤ 8 then 1 else if len ≤ 16 then 2 else 3
          let src := aSource s
          let rows := readA s src v g.ma g.maScale st transposed
          let s := holdBanks s src (s.now + occ - 1) (aBanks v g.ma g.maScale st transposed)
          let s := modCurE s fun e => { e with alatch := some { rows := rows, fm := v, start := st, transposed := transposed } }
          mGo (tileUntil s (s.now + occ)) occ tag)

/-- MLDA (R184). -/
def execMlda (f : MOp) (s : State) : Out := latchIssue s f false
/-- MLDAT (R184). -/
def execMldat (f : MOp) (s : State) : Out := latchIssue s f true

/-- MACC (R185 to R187). A reserved field of an address register, a mode that its profile does not have, and a family of fm(FB) that it
does not take are found before any wait for other members (R83). -/
def execMacc (f : MOp) (s : State) : Out :=
  mIssue s f true false (maccFields f) fun s tag =>
    let e := curE s
    let mb := maccMb e f
    if maBad (maReg e f.ma.toNat) || maBad mb || (bitAt f.mode 0 && s.cur.info.prof != 3) then .fault 0x019 0 0 0
    else
      withFm s f.fb.toNat fun vb =>
      if maccFamBad s.cur.info.prof vb then .fault 0x019 0 0 0 else
      withLeader s f fun g =>
        let start := (e.alatch.map (·.start)).getD 0
        let tr := (e.alatch.map (·.transposed)).getD false
        mChecks (maccCause s s.cur.core s.cur.info f vb g)
          (if maccStarved e f then .wait
          else countT s fun s =>
            let s := if bitAt f.mode 1 then modCurE s fun e => setActive e (Vector.replicate 256 0) else s
            let r : MaccRun := {
              f := f, info := s.cur.info, bits := s.cur.bits, fma := g.fma, fmb := vb, start := start, transposed := tr,
              lead := e.ganged, ma := g.ma, maScale := g.maScale, mb := mb, beat := 0, next := s.now,
              aNow := (e.alatch.map (·.rows)).getD [], aNext := [], hdr := [], blk := [], group := [], used := 0, mark := (0, false, 0) }
            let s := maccBeatOf (modCurE s fun e => { e with macc := some r }) s.cur.core r
            mGo s 0 tag)

/-- MZERO (R188). -/
def execMzero (f : MOp) (s : State) : Out :=
  let act := bitAt f.sel 0
  let drn := bitAt f.sel 1
  mIssue s f act drn (zeroFields f)
    fun s tag =>
      let zero (s : State) : Iss :=
        let s := modCurE s fun e => if act then setActive e (Vector.replicate 256 0) else e
        let s := modCurE s fun e => if drn then { setDrain e (Vector.replicate 256 0) with drainFree := s.now + 1 } else e
        mGo s (if act then 1 else 0) tag
      if (curE s).ganged && act && !drn then ganged s fun _ => zero s else zero s

/-- MSWAP: once the active bank's last accumulation has landed (R188). -/
def execMswap (f : MOp) (s : State) : Out :=
  mIssue s f true true (f.mode == 0 && f.bsrc == 0 && f.ma == 0 && f.fb == 0 && f.fa == 0 && f.sel == 0 && f.beats == 0) fun s tag =>
    if s.now < (curE s).accLands then .wait
    else mGo (modCurE s fun e => { e with ac1Active := !e.ac1Active, drainFree := s.now + 1 }) 1 tag

/-- Starts a drain or a MACCLD: its rows follow one a cycle, the first in this cycle (R189, R190). -/
def drainGo (s : State) (f : MOp) (kind : DrainKind) (v : BitVec 32) (ma : W64) (tag : Option (BitVec 3)) : Iss :=
  countT s fun s =>
    let r : DrainRun := { kind := kind, f := f, info := s.cur.info, bits := s.cur.bits, fm := v, ma := ma, row := 0, next := s.now,
                          mask := (curE s).rowMask }
    let s := if kind = .load then holdBanks s s.cur.core s.now (banksOf (maBase ma) 512) else s
    mGo (modCurE s fun e => { e with drain := some r }) 0 tag

/-- MDRAIN and MDRAINC (R189). -/
def drainIssue (s : State) (f : MOp) (columns : Bool) : Out :=
  mIssue s f false true (f.bsrc == 0 && f.ma == 0 && f.fb == 0 && f.beats == 0 && (columns || !bitAt f.sel 2)) fun s tag =>
    withFm s f.fa.toNat fun v =>
      mChecks (mCause (fmValid v && (fmFamily v == 1 || fmFamily v == 2)) false (!fmValid v) false)
        (drainGo s f (if columns then .columns else .rows) v 0 tag)

/-- MDRAIN (R189). -/
def execMdrain (f : MOp) (s : State) : Out := drainIssue s f false
/-- MDRAINC (R189). -/
def execMdrainc (f : MOp) (s : State) : Out := drainIssue s f true

/-- MACCLD (R190). -/
def execMaccld (f : MOp) (s : State) : Out :=
  mIssue s f false true (f.mode == 0 && f.bsrc == 0 && f.fb == 0 && f.fa == 0 && f.sel == 0) fun s tag =>
    let ma := maReg (curE s) f.ma.toNat
    mChecks (mCause (maBad ma) false false (pastEnd (maBase ma + f.beats.toNat * maRstr ma + 512))) (drainGo s f .load 0 ma tag)

/-- MMASK (R192): its bytes are read in its issue cycle (DESIGN CHOICE, see assumption 107). -/
def execMmask (f : MOp) (s : State) : Out :=
  mIssue s f false true
    (f.bsrc == 0 && f.fb == 0 && f.fa == 0 && f.sel == 0 && f.beats == 0 && !bitAt f.mode 1 && (!bitAt f.mode 0 || f.ma == 0)) fun s tag =>
    let ma := maReg (curE s) f.ma.toNat
    let all := bitAt f.mode 0
    mChecks (mCause (!all && maBad ma) false false (!all && pastEnd (maBase ma + 32)))
      (countT s fun s =>
        let m : BitVec 256 := if all then BitVec.allOnes 256 else BitVec.ofNat 256 (scratchNum s s.cur.core (maBase ma) 32)
        let s := if all then s else holdBanks s s.cur.core s.now (banksOf (maBase ma) 32)
        let s := modCurE s fun e => { e with rowMask := m, drainFree := s.now + 6 }
        mGo (tileUntil s (s.now + 6)) 0 tag)

/-- MGANG (R193): once the four members have it at their heads, the four issue in one cycle. -/
def execMgang (f : MOp) (s : State) : Out :=
  mIssue s f true true (f.mode == 0 && f.bsrc == 0 && f.ma == 0 && f.fb == 0 && f.fa == 0 && f.beats == 0 && decide (f.sel.toNat ≤ 1))
    fun s tag =>
      let on := f.sel == 1
      let c := (curE s).gangN
      let there (k : Nat) : Bool :=
        let e := (s.core k).e
        if c < e.gangN then e.ganged == on
        else decide (e.gangN = c) && match mHead s k true with
          | some o => bits o.bits 0 5 == 0x0A && bits o.bits 13 3 == f.sel.toNat && !tagSet e (tagOf (BitVec.ofNat 4 (bits o.bits 28 4)))
          | none => false
      if on && !((s.taskOn s.cur.core).map (·.gang)).getD false then .fault 0x01A 0 0 0
      else if !(gangMembers s.cur.core).all there then .wait
      else mGo (modCurE s fun e => { e with ganged := on, gangN := c + 1, drainFree := s.now + 1 }) 1 tag

/-- MWREL (R194). -/
def execMwrel (f : MOp) (s : State) : Out :=
  mIssue s f false false (f.mode == 0 && f.ma == 0 && f.fb == 0 && f.fa == 0 && f.beats == 0 && decide (f.bsrc.toNat ≤ 1) && decide (f.sel.toNat ≤ 1))
    fun s tag =>
      let n := f.bsrc.toNat
      let h := f.sel == 1
      let w := rd (curE s).wb n {}
      if !halfFull w h then .fault 0x01A 0 0 0
      else if !arrayFree s s.cur.core then .wait
      else
        let w := if h then { w with full1 := false } else { w with full0 := false }
        let w := if w.cursorHalf = h then { w with cursorHalf := !h, cursorOff := 0 } else w
        mGo (modCurE s fun e => { e with wb := wr e.wb n w }) 0 tag

/-! ### Rows of drains (R189 to R191) -/

/-- A cell as a drain converts it (R189). -/
def drainCell (r : DrainRun) (cell : Nat) : Nat :=
  let v := r.fm
  let int := bitAt r.f.mode 0
  let sat := bitAt r.f.mode 1
  let i := signedOf 32 cell
  let x := if int then numOfInt i else decodeF fp32 cell
  match fmFamily v with
  | 4 => convertFloat x bf16 .rne sat
  | 5 => convertFloat x fp16 .rne sat
  | 6 => if int then convertFloat x fp32 .rne sat else cell
  | _ => toNarrow v .rne sat x (if int then some i else none)

/-- Bits of a drained element. -/
def drainWidth (v : BitVec 32) : Nat :=
  match fmFamily v with
  | 4 => 16
  | 5 => 16
  | 6 => 32
  | _ => narrowWidth v

/-- Row `j` of a drain: the cells of a row, or of a column of half a bank, converted and packed (R189). -/
def drainRow (e : Engine) (r : DrainRun) (j : Nat) : V4096 :=
  let bank := drainBank e
  let h := if bitAt r.f.sel 2 then 128 else 0
  let cell (l : Nat) : Nat := if r.kind = .columns then lane (rd bank (h + l) 0).toNat 32 j else lane (rd bank j 0).toNat 32 l
  ofLanes (drainWidth r.fm) 128 fun l => drainCell r (cell l)

/-- Rows of queue `q` that are pushed and not popped: poppable ones and those in flight (R191). -/
def rowsHeld (e : Engine) (q : Nat) : Nat :=
  let mine (ws : List RegWrite) : Bool := ws.any fun w => match w with | .oq n _ => n == q | _ => false
  (rd e.oq q []).length + (e.landings.filter fun l => mine l.writes).length + (e.snapshot.filter fun l => mine l.writes).length

/-- Rows that a drain-port op handles. -/
def drainRows (r : DrainRun) : Nat :=
  match r.kind with
  | .rows => 256
  | .columns => 128
  | .load => r.f.beats.toNat + 1

/-- A drain-port op after row `row`: it goes on in the next cycle, or ends; a drain's T is released when its last row is poppable, and it is
in flight no more then (R178, R191). The last row of an MDRAIN counts in its own time also when the row mask keeps it back (DEDUCED, see
assumption 106). -/
def nextRow (s : State) (core : Nat) (r : DrainRun) : State :=
  if r.row + 1 < drainRows r then s.modE core fun e => { e with drain := some { r with row := r.row + 1, next := s.now + 1 } }
  else
    s.modE core fun e =>
      { e with
        drain := none
        drainFree := s.now + 1
        tiles := e.tiles ++ [s.now + if r.kind = .load then 1 else 4]
        drainEnds := if r.kind = .load then e.drainEnds else wr e.drainEnds (bits r.f.sel 0 2) (s.now + 4) }

/-- DRAIN_ROW_PUSH (R189 to R191): the row of this cycle is pushed, poppable 4 cycles on, or finds the queue full; or a MACCLD's row
is written. A stop ends it at the next row (R196). -/
def execDrainRowPush (core : Nat) (s : State) : Out :=
  let e := (s.core core).e
  match e.drain with
  | none => .next s
  | some r =>
    if !streamRuns s core || decide (s.now < r.next) then .next s
    else
      match r.kind with
      | .load =>
        let row : V4096 := BitVec.ofNat 4096 (scratchNum s core (maBase r.ma + r.row * maRstr r.ma) 512)
        .next (nextRow (s.modE core fun e => setDrain e (wr (drainBank e) r.row row)) core r)
      | .rows =>
        if !bitAt r.mask r.row then .next (nextRow s core r)
        else if 64 ≤ rowsHeld e (bits r.f.sel 0 2) then
          .next (opFault (s.modE core fun e => { e with drain := some { r with next := s.now + 1 } }) r.info r.bits .m core 0x01B 0
            (w64 r.row) 0)
        else .next (nextRow (landAt s core .m 4 [.oq (bits r.f.sel 0 2) (drainRow e r r.row)] none) core r)
      | .columns =>
        if 64 ≤ rowsHeld e (bits r.f.sel 0 2) then
          .next (opFault (s.modE core fun e => { e with drain := some { r with next := s.now + 1 } }) r.info r.bits .m core 0x01B 0
            (w64 r.row) 0)
        else .next (nextRow (landAt s core .m 4 [.oq (bits r.f.sel 0 2) (drainRow e r r.row)] none) core r)

/-- The banks of a MACCLD's row of this cycle, which a slot access must leave alone (R195). -/
def loadBanks (core : Nat) (s : State) : State :=
  match (s.core core).e.drain with
  | some r =>
    if r.kind = .load ∧ r.next ≤ s.now then holdBanks s core s.now (banksOf (maBase r.ma + r.row * maRstr r.ma) 512) else s
  | none => s

/-- Releases the T counts of tile ops that complete with this cycle (R178); on a core that stands still they wait as its results do
(R298, R299). -/
def settleTiles (core : Nat) (s : State) : State :=
  let e := (s.core core).e
  let due := if ((s.core core).stop.bind (·.at_)).isSome then [] else e.tiles.filter (· ≤ s.now + 1)
  if due.isEmpty then s else s.modE core fun e => { e with cT := e.cT - due.length, tiles := e.tiles.filter fun x => s.now + 1 < x }

end Sys2Proof.Machine
end

