-- ==== Sys2Proof/Machine/Tasks.lean ====
section
/-! DEFINITION. Tasks, graphs and bays as the device keeps them: the pending-launch pool (R348), task records (R341), how tasks end,
are killed, aborted or restarted (R333, R334, R337, R352), how a core starts one (R72, R93, R318), and how a bay goes (R334). -/

namespace Sys2Proof.Machine

/-! ### Events in a bay's log -/

/-- An event of the device in a bay's fault log, naming a task by index and step (R302, R323, R345). -/
def logEvent (s : State) (bay task step src : Nat) (cause : BitVec 9) (w1 addr det0 det1 : W64) : State :=
  logRecord s bay (eventWords s bay task step src cause w1 addr det0 det1)

/-! ### The pending-launch pool (R348) -/

/-- A graph runs: it has a sequencer. -/
def graphRuns (g : Graph) : Bool := g.seq.isSome && g.stat != .ended

/-- A bay has a graph running on a die. -/
def bayRunsOn (s : State) (die bay : Nat) : Bool := s.graphs.any fun g => graphRuns g && g.die == die && g.bay == bay

/-- Entries of a die's pool that are out and that a test selects by bay and by the part they were lent from. -/
def poolHeld (s : State) (which : Nat → Nat × Bool → Bool) : Nat :=
  (s.tasks.filter fun t => match t.pool with | some p => which t.bay p | none => false).length +
    (s.graphs.filter fun g => match g.pool with | some p => which g.bay p | none => false).length

/-- The reserve of a bay on a die. -/
def reserveOf (s : State) (die bay : Nat) : Nat := if bayRunsOn s die bay then (s.eff bay).lres.toNat else 0

/-- The sum of the reserves on a die. -/
def reserveSum (s : State) (die : Nat) : Nat := (s.bays.map fun b => reserveOf s die b.bay).sum

/-- Entries that a bay's reserve has lent out. -/
def reserveHeld (s : State) (die bay : Nat) : Nat := poolHeld s fun b p => b == bay && p == (die, true)

/-- Entries out of the shared part: those lent from it, and those lent from a reserve that is no longer so large. -/
def sharedHeld (s : State) (die : Nat) : Nat :=
  poolHeld s (fun _ p => p == (die, false)) + (s.bays.map fun b => reserveHeld s die b.bay - reserveOf s die b.bay).sum

/-- A free entry for a bay, if one of the die's 256 is free: of its reserve first, then shared. -/
def freeEntry (s : State) (die bay : Nat) : Option (Nat × Bool) :=
  if 256 ≤ poolHeld s fun _ p => p.1 == die then none
  else if reserveHeld s die bay < reserveOf s die bay then some (die, true)
  else if sharedHeld s die + reserveSum s die < 256 then some (die, false)
  else none

/-! ### Task records (R341) -/

/-- Word `i` of a record. -/
def recWord (r : Vector W64 8) (i : Nat) : W64 := rd r i 0

/-- A task record breaks R341; in a graph its index is given. -/
def recordBad (r : Vector W64 8) (index : Option Nat) : Bool :=
  let w0 := recWord r 0
  let gang := bits w0 22 2
  bits w0 51 13 != 0 || bits w0 26 6 != 0 || gang == 1 || gang == 2 || decide (16 ≤ bits w0 16 6) ||
    (match index with | some i => bits w0 0 16 != i | none => false) ||
    bits (recWord r 1) 62 2 != 0 || bits (recWord r 1) 0 2 != 0 || bits (recWord r 2) 40 24 != 0 || bitAt (recWord r 3) 0

/-- A record from its bytes. -/
def recordOf (b : List Byte) : Vector W64 8 := Vector.ofFn fun i => w64 (ofBytes ((b.drop (8 * i.val)).take 8))

/-- A task is absent in a step (R343). -/
def absentIn (w0 : W64) (step nstep : Nat) : Bool :=
  let first := bitAt w0 24
  let last := bitAt w0 25
  (first && !last && step != 0) || (last && !first && step != nstep - 1) || (first && last && step != 0 && step != nstep - 1)

/-! ### Children (R126, R349) -/

/-- A child of a task has ended. -/
def childEnded (s : State) (parent ordinal : Nat) (how : End) : State :=
  s.modTask parent fun t => { t with children := t.children.map fun c => if c.ordinal = ordinal then { c with how := some how } else c }

/-- How a child graph has ended, as JOIN counts it (R349). -/
def graphEnd (g : Graph) : End :=
  if g.killed then .killed
  else match g.firstCause with
    | some c => .faulted c
    | none => if g.nKill = 0 then .retired 0 else .killed

/-! ### Killing and restarting tasks (R334, R337, R352, R390) -/

/-- A task as it becomes ready again from its record (R337). -/
def restart (now : Nat) (t : Task) : Task :=
  { t with stat := .ready, children := [], nextOrd := 0, decision := none, stored := false, saved := [], scratchLost := false,
           ownLoft := false, shadow := [], readSet := [], fadds := [], cask := [],
           unshadowed := false, starved := false, wrote := [], aborted := false, trets := [], waitFor := none, cores := [], readySince := now }

/-- The state without a task; its RUN remembers it for range reports (R389). -/
def dropTask (s : State) (id : Nat) : State :=
  match s.taskAt id with
  | none => s
  | some t =>
    let s := s.modRun t.run fun r => { r with gone := r.gone ++ [(t.id, t.index, t.step)] }
    { s with tasks := s.tasks.filter fun t => t.id != id }

/-- A task leaves: it ends (a killed one discards its shadow), becomes ready again, or is forgotten. -/
def leave (s : State) (id : Nat) (how : Leave) : State :=
  match how with
  | .ends e => s.modTask id fun t => { t with stat := .ended e, shadow := [], readSet := [], fadds := [], cask := [] }
  | .again => s.modTask id (restart s.now)
  | .discard => dropTask s id

/-- What a kill makes of a task. -/
def leaveOf (how : KillHow) : Leave :=
  match how with
  | .record => .ends .killed
  | .again => .again
  | .discard => .discard

/-- How a retiring task leaves its cores when a kill reaches it: a recorded end stands against a kill with record, a killed one also
against one that would run it again, and a task to be forgotten is (R334, R337, R352). -/
def killLeave (now : Leave) (how : KillHow) : Leave :=
  match now, how with
  | .discard, _ => .discard
  | _, .discard => .discard
  | .ends .killed, _ => .ends .killed
  | .ends _, .again => .again
  | .ends e, .record => .ends e
  | .again, .record => .ends .killed
  | .again, .again => .again

/-- A task that is aborted while it holds cores: its shadow is discarded and nothing of this run of it commits (R337). -/
def abortTask (t : Task) : Task := { t with aborted := true, shadow := [], readSet := [], fadds := [], cask := [], starved := false }

/-- Kills one task: at once when it holds no core, else by a stop of its cores. -/
def killOne (s : State) (t : Task) (how : KillHow) : State :=
  let abort (s : State) : State := if how = .again then s.modTask t.id abortTask else s
  match t.stat with
  | .ready => leave s t.id (leaveOf how)
  | .saved .. => leave s t.id (leaveOf how)
  | .done _ => leave s t.id (leaveOf how)
  | .running => t.cores.foldl (fun s n => requestStop s n (.kill how)) (abort s)
  | .saving => t.cores.foldl (fun s n => requestStop s n (.kill how)) (abort s)
  | .retiring l => s.modTask t.id fun t => { t with stat := .retiring (killLeave l how) }
  | .ended e =>
    if how = .discard then dropTask s t.id
    else if how = .again ∧ e ≠ .killed then leave s t.id .again
    else s

/-- A task whose end is settled. -/
def isRetiring (t : Task) : Bool := match t.stat with | .retiring _ => true | _ => false

/-- A task that a kill with record leaves alone: its program has ended. -/
def pastKill (t : Task) : Bool :=
  match t.stat with
  | .retiring (.ends _) => true
  | .ended _ => true
  | _ => false

mutual
/-- Kills a task and its child set (R334, R337). -/
def killTask : Nat → State → Nat → KillHow → State
  | 0, s, _, _ => s
  | fuel + 1, s, id, how =>
    match s.taskAt id with
    | none => s
    | some t =>
      let s := if how = .record && pastKill t then s
        else killChildren fuel s (if how = .record then .record else .discard) (t.children.filter fun c => c.how.isNone)
      killOne s t how

/-- Kills children. -/
def killChildren : Nat → State → KillHow → List Child → State
  | 0, s, _, _ => s
  | _ + 1, s, _, [] => s
  | fuel + 1, s, how, c :: r =>
    let s := if c.isGraph then killGraph fuel s c.id how else killTask fuel s c.id how
    killChildren fuel s how r

/-- Kills a graph: no task of it is released any more, and its tasks are killed (R334). -/
def killGraph : Nat → State → Nat → KillHow → State
  | 0, s, _, _ => s
  | fuel + 1, s, id, how =>
    let s := s.modGraph id fun g =>
      -- a child graph whose parent runs again reports to nobody
      { g with killed := true, parent := if how = .record then g.parent else g.parent.map fun p => (p.1, p.2.1, 2 ^ 32) }
    killList fuel s how ((s.tasks.filter fun t => t.graph == id).map (·.id))

/-- Kills tasks. -/
def killList : Nat → State → KillHow → List Nat → State
  | 0, s, _, _ => s
  | _ + 1, s, _, [] => s
  | fuel + 1, s, how, id :: r => killList fuel (killTask fuel s id how) how r
end

/-- Enough fuel to reach every task and graph. -/
def killFuel (s : State) : Nat := 4 * (s.tasks.length + s.graphs.length) + 8

/-- Kills a task and its children. -/
def kill (s : State) (id : Nat) (how : KillHow) : State := killTask (killFuel s) s id how

/-- Kills a task that has not ended, one whose program has ended and whose work is still being completed included (R350). -/
def killUnended (s : State) (id : Nat) : State :=
  match s.taskAt id with
  | none => s
  | some t =>
    if isRetiring t then
      let kids := t.children.filter fun c => c.how.isNone
      (killChildren (killFuel s) s .record kids).modTask id fun t =>
        { t with stat := match t.stat with | .retiring .discard => t.stat | _ => .retiring (.ends .killed) }
    else kill s id .record

/-! ### Bays that go (R318, R333, R334) -/

/-- Entries that a test selects are invalidated: V is cleared and nothing else changes (R354, R355). -/
def invalidate (s : State) (which : CaskEntry → Bool) : State :=
  { s with cask := s.cask.map fun es => es.map fun (e : CaskEntry) => if which e then { e with v := false } else e }

/-- A bay lies at or below another in the tree. -/
def under (s : State) (top : Nat) : Nat → Nat → Bool
  | 0, _ => false
  | fuel + 1, n =>
    n == top || match s.bayAt n with
      | some b => n != 0 && under s top fuel b.parent
      | none => false

/-- The bays at or below one. -/
def subtree (s : State) (top : Nat) : List Nat := (s.bays.map (·.bay)).filter fun n => under s top 9 n

/-- Kills a bay and its descendants; their RUNs will complete with a status (R333, R334), and their Cask entries are invalidated
(R354). -/
def killBay (s : State) (bay : Nat) (status : BitVec 8) : State :=
  let gone := subtree s bay
  let s := { s with
    bays := s.bays.map fun (b : Bay) => if gone.contains b.bay && b.killing.isNone then { b with killing := some status } else b
    runs := s.runs.map fun (r : Run) => if gone.contains r.bay then { r with killed := true, escalated := r.escalated || status == 3 } else r
    graphs := s.graphs.map fun (g : Graph) => if gone.contains g.bay then { g with killed := true } else g }
  let s := invalidate s fun e => gone.contains e.bay
  (s.tasks.filter fun t => gone.contains t.bay).foldl (fun s t => kill s t.id .record) s

/-- Memory with a range of bytes zeroed. -/
def zeroRange (m : Mem) (a n : Nat) : Mem := m.filter fun p => decide (p.1 < a ∨ a + n ≤ p.1)

/-- A granule of the Lofts lies in an extent. -/
def inExtent (x : Extent) (g : Granule) : Bool :=
  match g with
  | .loft n k => n == x.core && decide (x.first * 1024 ≤ k ∧ k < (x.first + x.units) * 1024)
  | _ => false

/-- The bytes of extents zeroed in the Lofts. -/
def zeroExtents (s : State) (xs : List Extent) : State :=
  xs.foldl (fun s x => (healAll s (inExtent x)).modCore x.core fun c => { c with loft := zeroRange c.loft (x.first * 65536) (x.units * 65536) }) s

/-- Removes the killed bays in which nothing runs any more and that no packet names whose record is still to come (R323, R334), and
frees their extents, zeroed; what they have counted stays in the telemetry (R398). -/
def reapBays (s : State) : State :=
  let busy (n : Nat) : Bool := s.tasks.any (·.bay == n) || s.graphs.any (·.bay == n) || s.runs.any (·.bay == n) ||
    s.packets.any fun p => bits (rd p.words 0 0) 8 12 == n
  let gone := s.bays.filter fun b => b.killing.isSome && !((subtree s b.bay).any busy)
  let s := zeroExtents s (gone.flatMap (·.extents))
  let more (f : Bay → Nat) : Nat := (gone.map f).sum
  let s := if gone.isEmpty then s
    else
      { s with
        telemetry := { s.telemetry with
          refusals := s.telemetry.refusals + more (·.refusals)
          aborts := s.telemetry.aborts + more (·.aborts)
          dropped := s.telemetry.dropped + more (·.dropped) } }
  let left (n : Nat) : Bool := !(gone.any fun g => g.bay == n)
  let s := invalidate { s with bays := s.bays.filter fun b => left b.bay } fun e => !left e.bay
  -- a bay made later under the same number finds no scratchpad of this one (R318)
  if gone.isEmpty then s
  else { s with cores := s.cores.map fun (c : Core) => if c.lastBay.any fun n => gone.any (·.bay == n) then { c with lastBay := some 4096 } else c }

/-- The policy of a bay one of whose tasks has faulted (R333): contained, or the bay is killed and its parent told. -/
def applyPolicy (s : State) (bay task step : Nat) (cause : BitVec 9) : Nat → State
  | 0 => s
  | fuel + 1 =>
    if bay = 0 ∨ !(s.eff bay).pol then s
    else
      match s.bayAt bay with
      | none => s
      | some b =>
        let s := killBay s bay 3
        let s := logRecord s b.parent (eventWords s bay task step 13 0x17F 0 0 (zx cause) (w64 b.depth))
        applyPolicy s b.parent task step cause fuel

/-- A task is faulted (R302, R333): its record goes to its bay's log, and the bay's policy acts. -/
def taskFaulted (s : State) (t : Task) (cause : BitVec 9) (ws : List W64) : State :=
  applyPolicy (logRecord s t.bay ws) t.bay (bits (recWord t.rec_ 0) 0 16) t.step cause 9

/-! ### Starting a task on a core (R72, R93, R318, R324) -/

/-- The bindings that a RUN's buffer list gives each of its tasks (R324). -/
def startBindings (bs : List Buffer) : List Binding :=
  bs.foldl (fun l b => match b.obj with
    | none => l
    | some o =>
      let x : Binding := { addr := b.addr, len := w64 (b.len * 64), obj := o, col := b.col }
      if l.contains x then l else l ++ [x]) []

/-- A generator context with the values of a task's launch (R46, R48). -/
def freshContext (t : Task) : GenCtx :=
  let w (i : Nat) : W64 := recWord t.rec_ i
  { g := wr (wr (wr (wr (Vector.replicate 32 0) 1 (w 5)) 2 (w 6)) 3 (w 7)) 4 t.recAddr
    pc := BitVec.ofNat 48 (w 1).toNat
    dbase := w64 (bits (w 0) 32 19 * 16)
    dlen := bits (w 1) 48 14 + 1 }

/-- The engine and user context with which a task begins. -/
def freshEngine (t : Task) (bs : List Binding) : Engine := { user := freshContext t, bindings := bs }

/-- The .scratch image of the kernel that a task enters (R93). -/
def scratchImage (s : State) (t : Task) : Option Kernel :=
  let pc := bits (recWord t.rec_ 1) 0 48
  s.kernels.find? fun k => k.bay == t.bay && decide (k.code.toNat ≤ pc ∧ pc < k.code.toNat + k.len)

/-- The fault of a task whose dictionary breaks R84. -/
def dictFault (t : Task) : FaultInfo :=
  { src := 7, cause := 0x03A, levelE := true, async := false, gpc := BitVec.ofNat 48 (recWord t.rec_ 1).toNat,
    addr := w64 (bits (recWord t.rec_ 0) 32 19 * 16) }

/-- A task's dictionary breaks R84. -/
def dictBad (t : Task) : Bool :=
  decide (0x600000 < bits (recWord t.rec_ 0) 32 19 * 16 + 48 * (bits (recWord t.rec_ 1) 48 14 + 1))

/-- The firmware context of a core on which a task starts: every register of R46 takes its reset value, those of the launch included;
where its program stands is not a task's (R72; assumption 9). -/
def freshFirmware (t : Task) (g : GenCtx) : GenCtx :=
  { freshContext t with pc := g.pc, wait := g.wait, loads := g.loads, readyAt := g.readyAt }

/-- Starts a task on a core: the registers of both contexts and of the engine, an empty L1 and dictionary cache, the scratchpad of R318
and the kernel's image. -/
def startOn (s : State) (t : Task) (n : Nat) : State :=
  let bs := startBindings (((s.runAt t.run).map (·.buffers)).getD [])
  let s := cleanAll s n
  let img := scratchImage s t
  let s := if (s.core n).lastBay = some t.bay then s else healScratch s n
  let s := match img with
    | some k => heal s (.scratch n) k.scratch k.image.length
    | none => s
  let s := s.modCore n fun c =>
    let scratch := if c.lastBay = some t.bay then c.scratch else []
    let scratch := match img with
      | some k => memWrite scratch k.scratch k.image
      | none => scratch
    { c with
      task := some t.id, e := freshEngine t bs, fw := freshFirmware t c.fw, fwShare := 4, l1 := [], l1Task := some t.id, dcache := []
      dmiss := none, scratch := scratch, endStores := [], ahead := [], caskJob := none, stop := none, held := [], stopNext := none
      restoring := false, lastBay := some t.bay }
  if dictBad t then raise s n (dictFault t) else s

/-- Kernels read for the manifest's CODE when their first task of a RUN starts (R397, R398). -/
def digestKernel (s : State) (t : Task) : State :=
  let w1 := recWord t.rec_ 1
  let entry := bits w1 0 48
  match s.runAt t.run with
  | none => s
  | some r =>
    if r.kernels.any fun k => k.1 == entry then s
    else
      let read (a n : Nat) : Option (List Byte) :=
        match agentRead s (firmware t.bay 5) (w64 a) n 1 with
        | (_, .inl b) => some b
        | (_, .inr _) => none
      let len := ((read (entry - 8) 8).map ofBytes).getD 0
      let bad := len = 0 ∨ 2 ^ 20 < len ∨ len % 4 ≠ 0 ∨ entry < 8
      let code := if bad then [] else (read entry len).getD []
      let dict := memRead (s.core (t.cores.headD 0)).loft (bits (recWord t.rec_ 0) 32 19 * 16) (48 * (bits w1 48 14 + 1))
      s.modRun r.id fun r =>
        { r with kernels := r.kernels ++ [(entry, toBytes 8 entry ++ code ++ dict)], codebad := r.codebad || decide bad }

end Sys2Proof.Machine
end

