-- ==== Sys2Proof/Machine/GenWork.lean ====
section
/-! DEFINITION. Generator work instructions: GSYNC, LAUNCH, JOIN, QPUSH, QPOP, TRET, GBARR and GBWAIT (R124 to R130, R383). -/

namespace Sys2Proof.Machine

/-! ### GSYNC and TRET (R124, R128) -/

/-- Every op of every bundle that a context emitted has issued. -/
def allIssued (c : Core) (x : Ctx) : Bool := !unexpanded c x && slots.all fun sl => (slotQ c.e sl).all fun o => o.info.ctx != x

/-- The conditions of GSYNC's flags. Generator stores are performed at their issue (assumption 6), so MEM always holds. -/
def syncHolds (c : Core) (x : Ctx) (flags : BitVec 6) : Bool :=
  (!bitAt flags 0 || allIssued c x) && (!bitAt flags 1 || c.e.cL == 0) && (!bitAt flags 2 || c.e.cS == 0) &&
    (!bitAt flags 3 || c.e.cC == 0) && (!bitAt flags 4 || c.e.cT == 0)

/-- GSYNC's condition and effect. -/
def tryGsync (d : Reg) (flags : BitVec 6) (s : State) (_ : GenWait) : Try :=
  if syncHolds (s.core s.cur.core) s.cur.ctx flags then .done (modCurG s fun g => gSet g d 1) else .notYet

/-- A waiting instruction that writes no steer register at issue. -/
def startPlainWait (s : State) (i : Instr) (t : W64) (note : Nat) (test : State → GenWait → Try) (expire : State → State) : Out :=
  let (m, s') := s.bump
  let w : GenWait := { instr := i, since := s.now, timeout := t, mark := m, note := note }
  let s' := modCurG s' fun g => { g with wait := some w }
  match test s' w with
  | .done a => .next (endWait s' a 4)
  | .fault a => .next (faultWaiting a)
  | .notYet => if t = 0 then .next (expire s') else .next s'

/-- GSYNC's expiry: gD ← 0. -/
def expireGsync (d : Reg) (s : State) : State := endWait s (modCurG s fun g => gSet g d 0) 4

/-- GSYNC (R124). -/
def execGsync (d b : Reg) (flags : BitVec 6) (s : State) : Out :=
  genIssue s [b] false fun s =>
    startPlainWait s (.gsync d b flags) (waitTime (curG s) b) 0 (tryGsync d flags) (expireGsync d)

/-- A member of the task on a core has ended its program; the task retires when every member has. A gang ends as the member on its
lowest core did. -/
def memberEnds (s : State) (core : Nat) (how : End) : State :=
  match s.taskOn core with
  | none => s
  | some t =>
    let ends := (core, how) :: t.trets
    let all := t.cores.all fun n => ends.any (·.1 == n)
    let first := t.cores.foldl min core
    let final := (ends.lookup first).getD how
    s.modTask t.id fun t => { t with trets := ends, stat := if all then .retiring (.ends final) else t.stat }

/-- TRET's condition: all its work has issued, the counters are 0, and no fault or pre-emption has reached the core (R105, R128). -/
def tretHolds (s : State) : Bool :=
  syncHolds (s.core s.cur.core) s.cur.ctx 0x1F && (s.cur.ctx == .firmware || (s.core s.cur.core).stop.isNone)

/-- TRET's effect: the context issues nothing further. The firmware context becomes idle (assumption 9). -/
def tretDone (a : Reg) (s : State) : State :=
  match s.cur.ctx with
  | .firmware => modCurG s fun g => { g with pc := 0, wait := none }
  | .user =>
    let code : BitVec 8 := (gReg (curG s) a).setWidth 8
    memberEnds (modCurG s fun g => { g with wait := none }) s.cur.core (.retired code)

/-- TRET (R128). -/
def execTret (a : Reg) (s : State) : Out :=
  genIssue s [a] false fun s =>
    if tretHolds s then .next (tretDone a s)
    else
      let (m, s) := s.bump
      .next (modCurG s fun g =>
        { g with wait := some { instr := .tret a, since := s.now, timeout := BitVec.allOnes 64, mark := m } })

/-! ### LAUNCH and JOIN (R125, R126, R344) -/

/-- Reads a record of `n` bytes for the generator: the core's own dirty bytes of it are written back, and it is read at its point of
coherence with the rights of a generator load (R125, R290). -/
def recordRead (s : State) (va : W64) (n : Nat) : State × (List Byte ⊕ AErr) :=
  match access s (genWho s 0) va n 64 .uc with
  | (s, .bad e) => (s, .inr e)
  | (s, .ok ps) =>
    match readKind s (some s.cur.core) ps with
    | some k => (dropRead s (genWho s 0) k va n, .inr { cause := class2 0 k, addr := va })
    | none =>
      let s := ps.foldl (fun s p => match p.loc with | .phys pa => cleanLine s s.cur.core (pa / 128) | _ => settleOwn s s.cur.core p) s
      let (s, b) := readPieces s (some s.cur.core) false (s.core s.cur.core).task [] ps
      (s, .inl b)

/-- A child joins the child set of the task on the executing core. -/
def addChild (s : State) (parent id : Nat) (isGraph : Bool) : State :=
  s.modTask parent fun t =>
    { t with children := t.children ++ [{ ordinal := t.nextOrd, id := id, isGraph := isGraph, how := none }], nextOrd := t.nextOrd + 1 }

/-- A task launched by another (R344). -/
def childTask (s : State) (t : Task) (id : Nat) (r : Vector W64 8) (va : W64) (pool : Nat × Bool) : Task :=
  { id := id, bay := t.bay, graph := t.graph, run := t.run, kind := .child t.id t.nextOrd, index := bits (recWord r 0) 0 16,
    step := t.step, rec_ := r, recAddr := va, seed := t.seed, ms := t.ms, gang := bits (recWord r 0) 22 2 == 3, readySince := s.now,
    pool := some pool, ofHandler := t.ofHandler }

/-- LAUNCH's condition and effect; the child set may have filled while it waited. -/
def tryLaunch (isGraph : Bool) (k : BitVec 4) (a : Reg) (s : State) (_ : GenWait) : Try :=
  let va := gReg (curG s) a
  match s.taskOn s.cur.core with
  | none => .notYet
  | some t =>
    match recordRead s va (if isGraph then 128 else 64) with
    | (s, .inr e) => .fault (genAErr s e)
    | (s, .inl b) =>
      if !isGraph && recordBad (recordOf b) none then .fault (genFault s 0x120 va 0 0)
      else
        match freeEntry s (graphDie s t.graph) t.bay with
        | none => .notYet
        | some p =>
          if 4095 ≤ t.children.length then .fault (genFault s 0x070 0 0 0) else
          let (id, s) := s.bump
          let ok (s : State) : Try := .done (modCurG s fun g => setCond g k true)
          if isGraph then
            let ws := (List.range 16).map fun i => w64 (ofBytes ((b.drop (8 * i)).take 8))
            let g : Graph := { id := id, run := t.run, bay := t.bay, desc := va, words := ws,
                               parent := some (t.graph, t.id, t.nextOrd), pool := some p, die := graphDie s t.graph
                               ofHandler := t.ofHandler }
            let s := addChild s t.id id true
            ok { s with graphs := s.graphs ++ [g] }
          else
            let c := childTask s t id (recordOf b) va p
            let s := addChild s t.id id false
            ok { s with tasks := s.tasks ++ [c] }

/-- What LAUNCH checks before it waits; a misaligned record is reported before a full child set (DESIGN CHOICE, see assumption 94). -/
def launch (s : State) (i : Instr) (isGraph : Bool) (k : BitVec 4) (a b : Reg) : Out :=
  genIssue s [a, b] false fun s =>
    if (gReg (curG s) a).toNat % 64 ≠ 0 then .next (genFault s 0x062 0 0 0)
    else if 4095 ≤ (((s.taskOn s.cur.core).map (·.children)).getD []).length then .next (genFault s 0x070 0 0 0)
    else startWait s i k (waitTime (curG s) b) 0 (tryLaunch isGraph k a)

/-- LAUNCH.T (R125). -/
def execLaunchT (k : BitVec 4) (a b : Reg) (s : State) : Out := launch s (.launchT k a b) false k a b

/-- LAUNCH.G (R125). -/
def execLaunchG (k : BitVec 4) (a b : Reg) (s : State) : Out := launch s (.launchG k a b) true k a b

/-- The two status words of JOIN (R126). -/
def joinWords (cs : List Child) : W64 × W64 × Bool :=
  let count (p : End → Bool) : Nat := (cs.filter fun c => match c.how with | some h => p h | none => false).length
  let isRet (h : End) : Bool := match h with | .retired _ => true | .absent => true | _ => false
  let isSkip (h : End) : Bool := match h with | .skippedPublish => true | .skippedCopy => true | _ => false
  let isFault (h : End) : Bool := match h with | .faulted _ => true | _ => false
  let nf := count isFault
  let nk := count (· == .killed)
  let failing := (cs.filter fun c => match c.how with | some h => isFault h || h == .killed | none => false).foldl
    (fun (m : Option Child) c => match m with | some x => if c.ordinal < x.ordinal then some c else m | none => some c) none
  let w1 := match failing with
    | none => 0xFFFF
    | some c => c.ordinal % 2 ^ 16 + match c.how with
      | some (.faulted cause) => cause.toNat * 2 ^ 16
      | _ => 2 ^ 25
  (w64 (count isRet + count isSkip * 2 ^ 16 + nf * 2 ^ 32 + nk * 2 ^ 48), w64 w1, nf == 0 && nk == 0)

/-- JOIN's condition and effect. -/
def tryJoin (k : BitVec 4) (a : Reg) (s : State) (_ : GenWait) : Try :=
  match s.taskOn s.cur.core with
  | none => .notYet
  | some t =>
    if t.children.any fun c => c.how.isNone then .notYet
    else
      let (w0, w1, ok) := joinWords t.children
      let s := s.modTask t.id fun t => { t with children := [], nextOrd := 0 }
      .done (modCurG s fun g => setCond (if a = 0 then g else gSet (gSet g a w0) (a + 1) w1) k ok)

/-- JOIN (R126). -/
def execJoin (k : BitVec 4) (a b : Reg) (s : State) : Out :=
  genIssue s [b] false fun s => startWait s (.join k a b) k (waitTime (curG s) b) 0 (tryJoin k a)

/-! ### QPUSH and QPOP (R127, R346, R347, R383) -/

/-- The task queue that an instruction of a core names: its graph and the queue. -/
def queueOf (s : State) (core q : Nat) : Option (Graph × TQueue) :=
  ((s.taskOn core).bind fun t => s.graphAt t.graph).map fun g => (g, rd g.queues q {})

/-- A queue instruction begins to wait; the sequencer serves it. -/
def startQueueWait (s : State) (i : Instr) (k : BitVec 4) (t : W64) (note : Nat) : Out :=
  let (m, s) := s.bump
  .next (modCurG s fun g =>
    { clearCond g k with wait := some { instr := i, since := s.now, timeout := t, mark := m, note := note,
                                        steer := some (k.toNat, rd g.k k.toNat {}) } })

/-- The checks of a queue instruction at issue: the alignment of its record, and a configured ring. -/
def queueIssue (s : State) (q : Nat) (a b : Reg) (body : State → W64 → Out) : Out :=
  genIssue s [a, b] false fun s =>
    let va := gReg (curG s) a
    if va.toNat % 64 ≠ 0 then .next (genFault s 0x062 0 0 0)
    else if ((queueOf s s.cur.core q).map fun x => x.2.rsize == 0).getD true then .next (genFault s 0x118 0 0 0)
    else body s va

/-- QPUSH (R127, R383): the record is read as it issues. -/
def execQpush (k : BitVec 4) (n : BitVec 2) (a b : Reg) (s : State) : Out :=
  queueIssue s n.toNat a b fun s va =>
    match recordRead s va 64 with
    | (s, .inr e) => .next (genAErr s e)
    | (s, .inl r) => startQueueWait s (.qpush k n a b) k (waitTime (curG s) b) (ofBytes r)

/-- QPOP (R127): its target is checked as it issues. -/
def execQpop (k : BitVec 4) (n : BitVec 2) (a b : Reg) (s : State) : Out :=
  queueIssue s n.toNat a b fun s va =>
    match access s (genWho s 1) va 64 64 .wb with
    | (s, .bad e) => .next (genAErr s e)
    | (s, .ok ps) =>
      if ps.any fun p => pieceDenied s p false true then .next (genFault s 0x08C va 0 0)
      else startQueueWait s (.qpop k n a b) k (waitTime (curG s) b) 0

/-! ### GBARR and GBWAIT (R129, R130) -/

/-- GBARR (R129). -/
def execGbarr (a : Reg) (cols : BitVec 8) (s : State) : Out :=
  genIssue s [a] false fun s =>
    let v := gReg (curG s) a
    if 4095 < v.toNat then .next (genFault s 0x071 0 0 0)
    else if (s.barrier v.toNat).target = 0 then .next (genFault s 0x102 0 0 0)
    else
      let (id, s') := s.bump
      let s' := s'.modE s.cur.core fun e =>
        { e with bg := e.bg ++ [{ id := id, slot := none, kind := .arrive v.toNat (some s.cur.ctx), cols := cols, since := s.now }] }
      .next (genDone s s' 4)

/-- GBWAIT's condition and effect: on the barrier of the context's record the phase bit, on any other a completion in its issue cycle or
after it (R130). -/
def tryGbwait (k : BitVec 4) (a : Reg) (s : State) (w : GenWait) : Try :=
  let n := (gReg (curG s) a).toNat
  let b := s.barrier n
  let ends := match (curG s).barrec with
    | some (m, j) => if m = n then b.phases % 2 != j % 2 else doneSince b w.since
    | none => doneSince b w.since
  if !ends then .notYet
  else .done (modCurG (treatSpans s s.cur.core false (boundSpans s s.cur.core (.barrier n))) fun g => setCond g k true)

/-- GBWAIT (R130). -/
def execGbwait (k : BitVec 4) (a b : Reg) (s : State) : Out :=
  genIssue s [a, b] false fun s =>
    let v := gReg (curG s) a
    if 4095 < v.toNat then .next (genFault s 0x071 0 0 0)
    else startWait s (.gbwait k a b) k (waitTime (curG s) b) 0 (tryGbwait k a)

end Sys2Proof.Machine
end

