-- ==== Sys2Proof/Machine/Cask.lean ====
section
/-! DEFINITION. The Cask: directory, arena, and the instructions that decide, store and skip (R131 to R133, R354 to R363). -/

namespace Sys2Proof.Machine

/-! ### Keys and entries (R354, R355) -/

/-- The layer, tile and policy index of a task's record (R131, R341). -/
def caskKey (t : Task) : Nat × Nat × Nat :=
  let w2 := recWord t.rec_ 2
  (bits w2 0 16, bits w2 16 16, bits w2 32 8)

/-- An entry has a key. -/
def CaskEntry.isKey (e : CaskEntry) (bay layer tile : Nat) : Bool := e.bay == bay && e.layer == layer && e.tile == tile

/-- The entry of a task's key, valid or not. -/
def caskEntry (s : State) (t : Task) : Option CaskEntry :=
  let k := caskKey t
  (caskDir s (graphDie s t.graph)).find? fun e => e.isKey t.bay k.1 k.2.1

/-- The words of an entry (R355). -/
def entryWords (e : CaskEntry) : Vector W64 4 :=
  let b (x : Bool) (i : Nat) : Nat := if x then 2 ^ i else 0
  #v[w64 (b e.v 63 + b e.kind 62 + e.policy % 64 * 2 ^ 56 + e.bay % 4096 * 2 ^ 44 + e.step.toNat * 2 ^ 28 + e.skips % 256 * 2 ^ 20 +
       e.seq % 32 * 2 ^ 15 + e.slot % 256 * 2 ^ 7),
     w64 (e.reflen % 2 ^ 32 * 2 ^ 32 + e.tile % 2 ^ 16 * 2 ^ 16 + e.layer % 2 ^ 16),
     w64 (e.outlen % 2 ^ 32 * 2 ^ 32 + e.celloff.toNat), e.dest]

/-- The entry that words describe. -/
def entryOf (ws : Vector W64 4) (order graph : Nat) : CaskEntry :=
  let w0 := rd ws 0 0
  let w1 := rd ws 1 0
  let w2 := rd ws 2 0
  { v := bitAt w0 63, kind := bitAt w0 62, policy := bits w0 56 6, bay := bits w0 44 12, step := BitVec.ofNat 16 (bits w0 28 16),
    skips := bits w0 20 8, seq := bits w0 15 5, slot := bits w0 7 8, layer := bits w1 0 16, tile := bits w1 16 16,
    reflen := bits w1 32 32, outlen := bits w2 32 32, celloff := BitVec.ofNat 32 w2.toNat, dest := rd ws 3 0, order := order, graph := graph }

/-- An entry that has been skipped once more; SKIPS is a field of 8 bits (R355). -/
def CaskEntry.skipped (e : CaskEntry) : CaskEntry := { e with skips := min 255 (e.skips + 1) }

/-- The valid entry of a bay whose last CKSTORE is the oldest. -/
def oldestOf (es : List CaskEntry) (bay : Nat) : Option CaskEntry :=
  (es.filter fun e => e.bay == bay).foldl (fun (m : Option CaskEntry) e => match m with
    | some x => if e.order < x.order then some e else m
    | none => some e) none

/-- The keys (bay, layer, tile) of a die's directory whose place is taken by a CKSTORE that has begun to copy: one whose copies are in
progress, and one of a task without a shadow, whose entry is written at its commit (R356, R363). -/
def keptKeys (s : State) (die : Nat) : List (Nat × Nat × Nat) :=
  (s.cores.toArray.toList.filterMap fun c => match c.caskJob with
    | some j => if j.skip || graphDie s j.entry.graph != die then none else some (j.entry.bay, j.entry.layer, j.entry.tile)
    | none => none) ++
  (s.tasks.filter fun t => t.unshadowed && graphDie s t.graph == die).flatMap fun t =>
    (t.cask.filter fun c => !c.skip).map fun c => (t.bay, c.layer, c.tile)

/-- The directory with room for a key: the place of its own entry, a free entry, or the oldest entry of the bay, of those whose key is not
`kept`; none when there is no room (R356). -/
def makeRoom (es : List CaskEntry) (kept : List (Nat × Nat × Nat)) (bay layer tile : Nat) : Option (List CaskEntry) :=
  let rest := es.filter fun e => !e.isKey bay layer tile
  let loose := rest.filter fun e => !kept.contains (e.bay, e.layer, e.tile)
  if rest.length < 16384 then some rest
  else
    match loose.find? fun e => !e.v with
    | some x => some (rest.filter fun e => !e.isKey x.bay x.layer x.tile)
    | none => (oldestOf loose bay).map fun x => rest.filter fun e => !e.isKey x.bay x.layer x.tile

/-- The directory of a die with room for a key. -/
def roomFor (s : State) (die bay layer tile : Nat) : Option (List CaskEntry) :=
  makeRoom (caskDir s die) (keptKeys s die) bay layer tile

/-- A place in the directory for an entry that is to be written once its copies are done: the key's own, or another, with V = 0 (R356). -/
def takePlace (s : State) (die : Nat) (e : CaskEntry) : State :=
  if (caskDir s die).any fun x => x.isKey e.bay e.layer e.tile then s
  else
    match roomFor s die e.bay e.layer e.tile with
    | none => s
    | some rest => { s with cask := wr s.cask die ({ e with v := false } :: rest) }

/-- The directory with an entry written. -/
def putEntry (s : State) (die : Nat) (e : CaskEntry) : State :=
  match roomFor s die e.bay e.layer e.tile with
  | none => s.modBay e.bay fun b => { b with refusals := b.refusals + 1 }
  | some rest => { s with cask := wr s.cask die (e :: rest) }

/-- The read-set line that stands for a directory entry (R363). -/
def caskLine (die bay layer tile : Nat) : Nat := 2 ^ 64 + ((die * 4096 + bay) * 2 ^ 16 + layer) * 2 ^ 16 + tile

/-- A policy of a bay. -/
def policyOf (s : State) (bay n : Nat) : Policy := rd (((s.bayAt bay).map (·.policies)).getD (Vector.replicate 64 {})) n {}

/-- The key checks shared by CKDECIDE and CKSTORE (R131, R133). -/
def keyFault (t : Task) : Option (BitVec 9) :=
  let k := caskKey t
  if k.1 = 0xFFFF then some 0x072 else if 64 ≤ k.2.2 then some 0x071 else none

/-! ### CKDECIDE (R131) -/

/-- The opcode of CKPROBE. -/
def ckprobeOpcode : Nat := 0x39

/-- A bundle holds a CKPROBE. -/
def hasProbe (b : BitVec 384) : Bool :=
  (bitAt b 5 && bfield b 80 7 == ckprobeOpcode) || (bitAt b 6 && bfield b 144 7 == ckprobeOpcode)

/-- A CKPROBE of a bundle that a context emitted has still to write the probe accumulator. -/
def probePending (c : Core) (x : Ctx) : Bool :=
  let entry (e : EmitEntry) : Bool := e.ctx == x && (entryBundle c e).any hasProbe
  let isProbe (w : RegWrite) : Bool := match w with | .probe .. => true | _ => false
  c.e.emitQ.any entry || (match c.dmiss with | some d => entry d.entry | none => false) ||
    ([Slot.v0, Slot.v1].any fun sl => (slotQ c.e sl).any fun o => o.info.ctx == x && bits o.bits 0 7 == ckprobeOpcode) ||
    (c.e.vrun.toArray.toList.any fun r => match r with | some r => (match r.instr with | .ckprobe _ => true | _ => false) | none => false) ||
    (c.e.landings.any fun l => l.writes.any isProbe) || (c.e.snapshot.any fun l => l.writes.any isProbe)

/-- d ≤ threshold in FP32; false when either is a NaN. -/
def fp32Le (a b : BitVec 32) : Bool :=
  let x := decodeF fp32 a.toNat
  let y := decodeF fp32 b.toNat
  !isNan x && !isNan y && cmpNum x y != .gt

/-- An entry is valid for a task: within the graph run whose task stored it (R354). -/
def CaskEntry.validFor (e : CaskEntry) (graph : Nat) : Bool := e.v && e.graph == graph

/-- CKDECIDE's outcome. -/
def decide_ (p : Policy) (e : Option CaskEntry) (bay graph : Nat) (ms0 : W64) (d : BitVec 32) : Bool :=
  match e with
  | none => false
  | some e =>
    e.validFor graph && e.bay == bay && decide (ms0.toNat - e.step.toNat ≤ p.maxdist.toNat ∧ e.step.toNat ≤ ms0.toNat) &&
      decide (e.skips < p.maxskip.toNat) && fp32Le d p.thresh

/-- CKDECIDE (R131, R363). It waits for CKPROBEs before it issues, so CV keeps its value during that wait (DESIGN CHOICE, see assumption
94). -/
def execCkdecide (k : BitVec 4) (a : Reg) (s : State) : Out :=
  genIssue s [] false fun s =>
    let n := s.cur.core
    if probePending (s.core n) s.cur.ctx then .next s
    else
      match s.taskOn n with
      | none => .next s
      | some t =>
        match keyFault t with
        | some c => .next (genFault s c 0 0 0)
        | none =>
          let key := caskKey t
          let d := (s.core n).e.probe
          let c := decide_ (policyOf s t.bay key.2.2) (caskEntry s t) t.bay t.graph (rd t.ms 0 0) d
          let line := caskLine (graphDie s t.graph) t.bay key.1 key.2.1
          let after := s.modTask t.id fun t =>
            { t with decision := some c
                     readSet := if (s.eff t.bay).det && !t.readSet.contains line then t.readSet ++ [line] else t.readSet }
          .next (genDone s (modCurG after fun g => setCond (gSet g a (zx d)) k c) 4)

/-! ### The arena (R358, R359) -/

/-- Reads bytes for a task's Cask copy: at the point of coherence, with the rights of a copy read; space 0x1 is invalid (R360). -/
def caskRead (s : State) (core : Nat) (va : W64) (n : Nat) : State × (List Byte ⊕ AErr) :=
  if n = 0 then (s, .inl [])
  else if va.toNat / 2 ^ 60 = 1 then (s, .inr { cause := 0x0AA, addr := va })
  else agentRead s { core := some core, bay := s.bayOn core, kind := 5, task := (s.core core).task } va n 1

/-- Checks a Cask copy's destination. -/
def caskTarget (s : State) (core : Nat) (va : W64) (n : Nat) : State × (List Piece ⊕ AErr) :=
  if n = 0 then (s, .inl [])
  else if va.toNat / 2 ^ 60 = 1 then (s, .inr { cause := 0x0B2, addr := va })
  else
    match access s { core := some core, bay := s.bayOn core, kind := 6, task := (s.core core).task } va n 1 .uc with
    | (s, .bad e) => (s, .inr e)
    | (s, .ok ps) => if ps.any fun p => pieceDenied s p false true then (s, .inr { cause := 0x0B4, addr := va }) else (s, .inl ps)

/-- Writes bytes of a Cask copy. -/
def caskWrite (s : State) (core : Nat) (ps : List Piece) (data : List Byte) : State :=
  writePieces s (some core) false (s.core core).task 0 ps data

/-- The dirty bytes of a core's L1 over a span are written back (R360). -/
def cleanSpan (s : State) (core : Nat) (va : W64) (n : Nat) : State :=
  if va.toNat / 2 ^ 60 = 0 ∧ n ≠ 0 then treatSpan s core va.toNat n true else s

/-! ### CKSTORE (R133, R360, R363) -/

/-- The publish slot whose range holds an output, if one does. -/
def outputSlot (s : State) (bay : Nat) (va n : Nat) : Option Nat :=
  match pubOf s bay va with
  | some (i, p) => if va + n ≤ (p.vbase.toNat + p.nblk.toNat) * 65536 then some i else none
  | none => none

/-- The entry that a CKSTORE writes. -/
def storedEntry (s : State) (t : Task) (core : Nat) (off reflen outlen : Nat) (gb : W64) : CaskEntry :=
  let k := caskKey t
  let slot := if gb.toNat / 2 ^ 60 = 0 then outputSlot s t.bay gb.toNat outlen else none
  let dest := if gb.toNat / 2 ^ 60 = 2 then w64 (3 * 2 ^ 60 + core * 2 ^ 32 + gb.toNat % 2 ^ 23) else gb
  { v := true, kind := slot.isNone, policy := k.2.2, bay := t.bay, step := (rd t.ms 0 0).setWidth 16, skips := 0,
    seq := ((s.graphAt t.graph).bind (·.seq)).getD 0, slot := slot.getD 0, layer := k.1, tile := k.2.1, reflen := reflen,
    outlen := outlen, celloff := BitVec.ofNat 32 (off / 64), dest := dest, order := s.fresh, graph := t.graph }

/-- Notes an entry change of a step's present attempt (R364). -/
def noteAttempt (s : State) (graph layer tile : Nat) (skip : Bool) (skips : Nat) : State :=
  s.modGraph graph fun g =>
    if g.attempt.any fun a => a.1 == layer && a.2.1 == tile && (a.2.2.1 == false || skip) then g
    else { g with attempt := (layer, tile, skip, skips) :: g.attempt.filter fun a => !(a.1 == layer && a.2.1 == tile) }

/-- An entry change: at once, noted with the step's attempt (R364), or kept for commit in a deterministic bay, with the lines of the cell
(R363). -/
def changeEntry (s : State) (t : Task) (e : CaskEntry) (skip : Bool) (publish : Option Nat) (lines : List Nat) : State :=
  if (s.eff t.bay).det then
    (if t.unshadowed && !skip then takePlace s (graphDie s t.graph) e else s).modTask t.id fun t =>
      { t with cask := t.cask ++ [{ layer := e.layer, tile := e.tile, skip := skip, words := entryWords e, publish := publish, lines := lines }] }
  else
    let old := (caskDir s (graphDie s t.graph)).find? fun x => x.isKey e.bay e.layer e.tile
    let s := noteAttempt s t.graph e.layer e.tile skip ((old.map (·.skips)).getD 0)
    let s := putEntry s (graphDie s t.graph) e
    match publish with
    | some n => exchange s n
    | none => s

/-- The 64-byte lines of a task's cell, in a deterministic bay. -/
def cellLines (s : State) (core die : Nat) (t : Task) (off n : Nat) : List Nat :=
  if !(s.eff t.bay).det then []
  else match (caskTarget s core (arenaAddr s t.bay die off) n).2 with
    | .inl ps => pieceLines ps
    | .inr _ => []

/-- The task has made a CKSTORE (R133). -/
def noteStored (s : State) (t : Task) : State := s.modTask t.id fun t => { t with stored := true }

/-- The work of a CKSTORE when its waits have ended: a fault of its cell, a refusal that copies nothing (R356), or the spans to be copied
with the entry to be written. A deterministic bay judges the refusal at commit (R363), but for a task without a shadow, whose copies reach
memory at once (R338). -/
inductive StorePlan where
  | fault (s : State)
  | refused (s : State)
  | copy (s : State) (spans : List (W64 × W64 × Nat)) (e : CaskEntry)
  deriving DecidableEq, Repr

/-- The spans of a CKSTORE that break no rule; the core's own dirty bytes of its sources are written back first (R360). -/
def storePlan (d a b : Reg) (s : State) (t : Task) : StorePlan :=
  let g := curG s
  let core := s.cur.core
  let k := caskKey t
  let p := policyOf s t.bay k.2.2
  let lens := gReg g d
  let reflen := bits lens 0 32
  let outlen := bits lens 32 32
  let off := 64 * (p.rbase.toNat + k.2.1 * p.cell.toNat)
  let v := s.eff t.bay
  let die := graphDie s t.graph
  if 64 * p.cell.toNat < up64 reflen + outlen ∨ v.casklen.toNat < off + 64 * p.cell.toNat ∨ (v.det ∧ v.caskbase.toNat / 2 ^ 60 = 2) then
    .fault (genFault s 0x128 0 0 0)
  else
    let s := cleanSpan (cleanSpan s core (gReg g a) reflen) core (gReg g b) outlen
    let e := storedEntry s t core off reflen outlen (gReg g b)
    if (!v.det || t.unshadowed) && (roomFor s die t.bay k.1 k.2.1).isNone then .refused (noteStored (putEntry s die e) t)
    else
      .copy s [(gReg g a, arenaAddr s t.bay die off, reflen), (gReg g b, arenaAddr s t.bay die (off + up64 reflen), outlen)] e

/-- What a Cask copy answers: it has copied, it met a fault, or its writes wait for lines of the shadow arena (R338). -/
inductive CaskCopy where
  | ok (s : State)
  | bad (s : State) (e : AErr)
  | starves (s : State)
  deriving DecidableEq, Repr

/-- Reads spans, checks their destinations, and then writes them: a fault stops the copy. -/
def caskCopy (s : State) (core : Nat) : List (W64 × W64 × Nat) → CaskCopy
  | [] => .ok s
  | (src, dst, n) :: r =>
    match caskRead s core src n with
    | (s, .inr e) => .bad s e
    | (s, .inl data) =>
      match caskTarget s core dst n with
      | (s, .inr e) => .bad s e
      | (s, .inl ps) =>
        if !shadowRoom s (s.core core).task ps then .starves (starve s core)
        else caskCopy (caskWrite s core ps data) core r

/-- The first fault that the copies of spans would meet: all are checked before any is made (R106, R360). -/
def copyFaulty (s : State) (core : Nat) : List (W64 × W64 × Nat) → Option (State × AErr)
  | [] => none
  | (src, dst, n) :: r =>
    match caskRead s core src n with
    | (s, .inr e) => some (s, e)
    | (_, .inl _) =>
      match caskTarget s core dst n with
      | (s, .inr e) => some (s, e)
      | (_, .inl _) => copyFaulty s core r

/-- The entry update of a CKSTORE whose copies are done. -/
def storeDone (s : State) (t : Task) (core : Nat) (e : CaskEntry) : State :=
  let n := up64 e.reflen + e.outlen
  let lines := cellLines s core (graphDie s t.graph) t (64 * e.celloff.toNat) n
  let (_, s) := s.bump
  noteStored (changeEntry s t e false none lines) t

/-- CKSTORE's work once its waits have ended, in one step: the cell, the copies and the entry. -/
def ckstoreWork (d a b : Reg) (s : State) (t : Task) : Try :=
  match storePlan d a b s t with
  | .fault s => .fault s
  | .refused s => .done s
  | .copy s' spans e =>
    match copyFaulty s' s.cur.core spans with
    | some (x, err) => .fault (genAErr x err)
    | none =>
      match caskCopy s' s.cur.core spans with
      | .bad x err => .fault (genAErr x err)
      | .starves _ => .notYet
      | .ok x => .done (storeDone x t s.cur.core e)

/-- The copies of a core go granule by granule. -/
def caskSplits (s : State) (core : Nat) : Bool := (s.core core).caskRate != 0

/-- CKSTORE's condition and effect. -/
def tryCkstore (d a b : Reg) (s : State) (_ : GenWait) : Try :=
  match s.taskOn s.cur.core with
  | none => .notYet
  | some t =>
    if syncHolds (s.core s.cur.core) s.cur.ctx 0x1F && !caskSplits s s.cur.core then ckstoreWork d a b s t else .notYet

/-- CKSTORE (R133). -/
def execCkstore (d a b : Reg) (s : State) : Out :=
  genIssue s [d, a, b] false fun s =>
    match s.taskOn s.cur.core with
    | none => .next s
    | some t =>
      match keyFault t with
      | some c => .next (genFault s c 0 0 0)
      | none => startPlainWait s (.ckstore d a b) (BitVec.allOnes 64) 0 (tryCkstore d a b) id

/-! ### CKSKIP (R132, R361, R363) -/

/-- The destination of a republish by copy still lies in the bay's extent, or is mapped writable. -/
def destHolds (s : State) (core : Nat) (e : CaskEntry) : Bool :=
  match (access s { core := some core, bay := s.bayOn core, kind := 6 } e.dest e.outlen 1 .uc).2 with
  | .ok _ => true
  | .bad _ => e.outlen == 0

/-- The slot of a republish by PUBLISH is still enabled, owned by the bay, and covers the output. -/
def slotHolds (s : State) (e : CaskEntry) : Bool :=
  let p := rd s.pubs e.slot {}
  p.en && p.bay.toNat == e.bay && decide (p.vbase.toNat * 65536 ≤ e.dest.toNat) &&
    decide (e.dest.toNat + e.outlen ≤ (p.vbase.toNat + p.nblk.toNat) * 65536)

/-- What a CKSKIP republishes: the entry of its key as it stands, with the span to be copied, or none when its check fails (R361). -/
def skipPlan (s : State) (t : Task) : Option ((W64 × W64 × Nat) × CaskEntry) :=
  match caskEntry s t with
  | none => none
  | some e =>
    if !e.validFor t.graph || !(if e.kind then destHolds s s.cur.core e else slotHolds s e) then none
    else some ((arenaAddr s t.bay (graphDie s t.graph) (64 * e.celloff.toNat + up64 e.reflen), e.dest, e.outlen), e)

/-- A republish is complete: the entry as it then stands, of whichever CKSTORE, counts a skip (R362), the slot is published, and the task
ends. In a deterministic bay both are made at the commit (R363). -/
def skipDone (s : State) (t : Task) (core : Nat) (e : CaskEntry) : State :=
  let publish := if e.kind then none else some e.slot
  let s := match caskEntry s t with
    | some x => if x.v || (s.eff t.bay).det then changeEntry s t x.skipped true publish [] else (publish.map (exchange s)).getD s
    | none => if (s.eff t.bay).det then changeEntry s t e.skipped true publish [] else (publish.map (exchange s)).getD s
  memberEnds s core (if e.kind then .skippedCopy else .skippedPublish)

/-- A Cask copy has met a fault: lost data of a cell have invalidated its entry, and a task whose republish met them runs again from its
record (R364); any other fault is the task's. -/
def caskLost (s : State) (t : Task) (skip : Bool) (err : AErr) : State :=
  if err.cause = 0x0AE ∧ skip then kill s t.id .again else genAErr s err

/-- CKSKIP's work once its waits have ended, in one step: the republish, the skip count, and the end of the task. -/
def ckskipWork (s : State) (t : Task) : Try :=
  match skipPlan s t with
  | none => .fault (genFault s 0x129 0 0 0)
  | some (span, e) =>
    match caskCopy s s.cur.core [span] with
    | .bad x err => .fault (caskLost x t true err)
    | .starves _ => .notYet
    | .ok x => .done (skipDone x t s.cur.core e)

/-- CKSKIP's condition and effect. -/
def tryCkskip (s : State) (_ : GenWait) : Try :=
  match s.taskOn s.cur.core with
  | none => .notYet
  | some t => if tretHolds s && !caskSplits s s.cur.core then ckskipWork s t else .notYet

/-- Ends a CKSKIP's wait: the task has retired, so the program counter does not matter and nothing more issues. -/
def ckskipStep (s : State) (w : GenWait) : Out :=
  match tryCkskip s w with
  | .done a => .next (modCurG a fun g => { g with wait := none })
  | .fault a => .next (modCurG a fun g => { g with wait := none })
  | .notYet => .next s

/-- CKSKIP (R132). -/
def execCkskip (s : State) : Out :=
  genIssue s [] false fun s =>
    match s.taskOn s.cur.core with
    | none => .next s
    | some t =>
      if t.decision ≠ some true ∨ t.stored then .next (genFault s 0x073 0 0 0)
      else
        let (m, s) := s.bump
        let w : GenWait := { instr := .ckskip, since := s.now, timeout := BitVec.allOnes 64, mark := m }
        ckskipStep (modCurG s fun g => { g with wait := some w }) w

/-! ### Copies granule by granule (R362) -/

/-- The 4-byte granules of spans. -/
def caskGranules (spans : List (W64 × W64 × Nat)) : List (W64 × W64 × Nat) :=
  spans.flatMap fun x => (List.range ((x.2.2 + 3) / 4)).map fun i => (x.1 + w64 (4 * i), x.2.1 + w64 (4 * i), min 4 (x.2.2 - 4 * i))

/-- The waiting instruction of the executing context ends in a state. -/
def caskEnds (s : State) : State := modCurG s fun g => { g with wait := none }

/-- The copies in progress of a core go on by so many granules, and with the last the instruction completes. -/
def caskStep (s : State) (core : Nat) (t : Task) (j : CaskJob) : State :=
  let rate := (s.core core).caskRate
  let n := if rate = 0 then j.spans.length else rate
  let keep (s : State) (x : Option CaskJob) : State := s.modCore core fun c => { c with caskJob := x }
  match caskCopy s core (j.spans.take n) with
  | .starves x => x
  | .bad x err => caskEnds (caskLost (keep x none) t j.skip err)
  | .ok x =>
    match j.spans.drop n with
    | [] =>
      let x := keep x none
      if j.skip then caskEnds (skipDone x t core j.entry) else endWait (keep s none) (storeDone x t core j.entry) 4
    | rest => keep x (some { j with spans := rest })

/-- The copies of a CKSTORE or CKSKIP begin, when its other waits have ended. -/
def caskBegin (s : State) (t : Task) (i : Instr) : State :=
  let core := s.cur.core
  let begin_ (s : State) (skip : Bool) (spans : List (W64 × W64 × Nat)) (e : CaskEntry) : State :=
    s.modCore core fun c => { c with caskJob := some { ctx := s.cur.ctx, skip := skip, spans := caskGranules spans, entry := e } }
  match i with
  | .ckstore d a b =>
    if !syncHolds (s.core core) s.cur.ctx 0x1F then s
    else match storePlan d a b s t with
      | .fault x => faultWaiting x
      | .refused x => endWait s x 4
      | .copy x spans e =>
        match copyFaulty x core spans with
        | some (y, err) => faultWaiting (genAErr y err)
        | none => begin_ (if (x.eff t.bay).det && !t.unshadowed then x else takePlace x (graphDie x t.graph) e) false spans e
  | .ckskip =>
    if !tretHolds s then s
    else match skipPlan s t with
      | none => faultWaiting (genFault s 0x129 0 0 0)
      | some (span, e) => begin_ s true [span] e
  | _ => s

/-- The writes of a CKSTORE or CKSKIP whose other waits have ended wait for lines of the shadow arena (R338). -/
def caskHungry (s : State) (i : Instr) : State :=
  match i with
  | .ckstore .. => if syncHolds (s.core s.cur.core) s.cur.ctx 0x1F then starve s s.cur.core else s
  | .ckskip => if tretHolds s then starve s s.cur.core else s
  | _ => s

/-- A CKSTORE or CKSKIP that waits, or whose copies are in progress, goes on (R132, R133, R362). -/
def caskTurn (s : State) (w : GenWait) : State :=
  let core := s.cur.core
  match s.taskOn core, (s.core core).caskJob with
  | some t, some j => if j.ctx = s.cur.ctx then caskStep s core t j else s
  | some t, none => if caskSplits s core then caskBegin s t w.instr else caskHungry s w.instr
  | none, _ => s

end Sys2Proof.Machine
end

