-- ==== Sys2Proof/Machine/GenEmit.lean ====
section
/-! DEFINITION. The emit family (R55, R58, R119, R120, R122). -/

namespace Sys2Proof.Machine

/-- Registers that carry the patch values of a mask, from its first register on. -/
def patchRegs (mask : BitVec 4) (gp : Reg) : List Reg :=
  (List.range ((List.range 4).filter (bitAt mask)).length).map fun j => gp + BitVec.ofNat 5 j

/-- The patch registers would pass g31 (R58). -/
def patchBeyond (mask : BitVec 4) (gp : Reg) : Bool :=
  decide (32 < gp.toNat + ((List.range 4).filter (bitAt mask)).length)

/-- The patch values in lane order: the j-th register for the j-th set bit of the mask (R58). -/
def patchVals (g : GenCtx) (mask : BitVec 4) (gp : Reg) : Vector W64 4 :=
  Vector.ofFn fun i =>
    if bitAt mask i.val then gReg g (gp + BitVec.ofNat 5 ((List.range i.val).filter (bitAt mask)).length) else 0

/-- The emit queue has a free entry (R55). -/
def emitRoom (s : State) : Bool := decide ((s.core s.cur.core).e.emitQ.length < 64)

/-- Places one entry with the context's next sequence number and the provenance of the executing instruction (R55). -/
def placeEntry (s : State) (lit : Option (BitVec 384)) (index : BitVec 16) (mask : BitVec 4) (vals : Vector W64 4) : State :=
  let g := curG s
  let e : EmitEntry :=
    { ctx := s.cur.ctx, lit := lit, index := index, pmask := mask, pval := vals, gpc := g.pc, eseq := g.eseq }
  modCurG (s.modE s.cur.core fun x => { x with emitQ := x.emitQ ++ [e] }) fun g => { g with eseq := g.eseq + 1 }

/-- EMIT (R119); with no free entry it waits (R55). -/
def execEmit (idx : BitVec 16) (s : State) : Out :=
  genIssue s [] false fun s =>
    if !emitRoom s then .next s
    else .next (genDone s (placeEntry s none idx 0 (Vector.replicate 4 0)) 4)

/-- EMITP (R119). -/
def execEmitp (idx : BitVec 16) (mask : BitVec 4) (gp : Reg) (s : State) : Out :=
  genIssue s (patchRegs mask gp) false fun s =>
    if patchBeyond mask gp then .next (genFault s 0x059 0 0 0)
    else if !emitRoom s then .next s
    else .next (genDone s (placeEntry s none idx mask (patchVals (curG s) mask gp)) 4)

/-- EMITL: a literal of the compose registers (R119). -/
def execEmitl (mask : BitVec 4) (a : Reg) (s : State) : Out :=
  if composePending (curG s) then .next s
  else genIssue s (patchRegs mask a) false fun s =>
    let g := curG s
    if patchBeyond mask a then .next (genFault s 0x059 0 0 0)
    else if !emitRoom s then .next s
    else
      let lit := BitVec.ofNat 384 ((List.range 6).map fun i => (rd g.c i 0).toNat * 2 ^ (64 * i)).sum
      .next (genDone s (placeEntry s (some lit) 0xFFFF mask (patchVals g mask a)) 4)

/-- The executing multi-entry emit has placed an entry in this cycle: the next comes no earlier than the cycle after (R119, R120). -/
def entryPlaced (s : State) : State :=
  modCurG s fun g => { g with wait := g.wait.map fun w => { w with note := s.now + 1 } }

/-- Places the next entry of an EMITN, and completes it after the last (R119). -/
def emitnStep (idx : BitVec 16) (mask : BitVec 4) (gp : Reg) (n : BitVec 15) (s : State) : State :=
  let g := curG s
  if n.toNat ≤ g.eprog then endWait s (modCurG s fun g => { g with eprog := 0 }) 8
  else if !emitRoom s then s
  else
    let s' := placeEntry s none (idx + BitVec.ofNat 16 g.eprog) mask (patchVals g mask gp)
    let s' := modCurG s' fun g => { g with eprog := g.eprog + 1 }
    if g.eprog + 1 = n.toNat then endWait s (modCurG s' fun g => { g with eprog := 0 }) 8 else entryPlaced s'

/-- A multi-entry emit at issue: it stays in the generator until its last entry is placed. -/
def startEmit (s : State) (i : Instr) : State :=
  let (m, s) := s.bump
  modCurG s fun g => { g with wait := some { instr := i, since := s.now, timeout := BitVec.allOnes 64, mark := m } }

/-- EMITN (R119). An index range that passes 0xFFFE is reported before patch registers that pass g31 (DESIGN CHOICE, see assumption
94). -/
def execEmitn (idx : BitVec 16) (mask : BitVec 4) (gp : Reg) (n : BitVec 15) (s : State) : Out :=
  genIssue s (patchRegs mask gp) false fun s =>
    if n ≠ 0 ∧ 0xFFFE < idx.toNat + n.toNat - 1 then .next (genFault s 0x05A 0 0 0)
    else if patchBeyond mask gp then .next (genFault s 0x059 0 0 0)
    else .next (emitnStep idx mask gp n (startEmit s (.emitn idx mask gp n)))

/-- Reads `len` bytes of a stored stream as a generator load (R120), which the spans of a deterministic bay bind (R338); the reads are no accesses of R290. -/
def streamRead (s : State) (va : W64) (len : Nat) : State × (List Byte ⊕ AErr) :=
  match access s { genWho s 0 with anyPhase := true } va len 2 .wb with
  | (s, .bad e) => (s, .inr e)
  | (s, .ok ps) =>
    match loadKind s s.cur.core ps with
    | some k => (dropRead s (genWho s 0) k va len, .inr { cause := class2 0 k, addr := va })
    | none =>
      let (s, b) := readPieces s (some s.cur.core) true (s.core s.cur.core).task [] ps
      (s, .inl b)

/-- Places the next item of an EMITS, advancing gA and gB, and completes it when gB is 0 (R87, R120). -/
def emitsStep (a b : Reg) (s : State) : State :=
  let g := curG s
  let cancel (s : State) : State := modCurG s fun g => { g with wait := none }
  if gReg g b = 0 then endWait s s 4
  else if !emitRoom s then s
  else
    let va := gReg g a
    match streamRead s va 2 with
    | (s, .inr e) => cancel (genAErr s e)
    | (s, .inl h) =>
      let h := ofBytes h
      let next (s : State) (len : Nat) : State :=
        let s := modCurG s fun g => let g := gSet g a (gReg g a + w64 len); gSet g b (gReg g b - 1)
        if gReg (curG s) b = 0 then endWait s s 4 else entryPlaced s
      if h = 0xFFFF then
        match streamRead s (va + 2) 48 with
        | (s, .inr e) => cancel (genAErr s e)
        | (s, .inl l) => next (placeEntry s (some (BitVec.ofNat 384 (ofBytes l))) 0xFFFF 0 (Vector.replicate 4 0)) 50
      else next (placeEntry s none (BitVec.ofNat 16 h) 0 (Vector.replicate 4 0)) 2

/-- EMITS (R120). -/
def execEmits (a b : Reg) (s : State) : Out :=
  genIssue s [a, b] false fun s =>
    if gReg (curG s) a &&& 1 ≠ 0 then .next (genFault s 0x061 0 0 0)
    else .next (emitsStep a b (startEmit s (.emits a b)))

/-- The state with the executing core and context named, and the word of the instruction that context waits in. -/
def actAs (s : State) (core : Nat) (ctx : Ctx) : State :=
  let w := match ((s.core core).gctx ctx).wait with
    | some w => ((encodeGen w.instr).map (·.2)).getD 0
    | none => 0
  { s with cur := { core := core, ctx := ctx, bits := w64 w } }

/-- EMITN_ENTRY_PLACE: an EMITN or EMITS under way places its next entry (R119, R120). -/
def execEmitnEntryPlace (core : Nat) (ctx : Ctx) (s : State) : Out :=
  if !coreRuns s core ctx then .next s
  else
    match ((s.core core).gctx ctx).wait with
    | none => .next s
    | some w =>
      if s.now < w.note then .next s
      else match w.instr with
      | .emitn idx mask gp n => .next (emitnStep idx mask gp n (actAs s core ctx))
      | .emits a b => .next (emitsStep a b (actAs s core ctx))
      | _ => .next s

end Sys2Proof.Machine
end

