-- ==== Sys2Proof/Machine/Queue.lean ====
section
/-! DEFINITION. The sequencers' task queues (R346, R347, R384), and how waiting generator instructions complete or expire (R104,
R127). -/

namespace Sys2Proof.Machine

/-! ### Rings (R346, R347) -/

/-- A task queue of a graph changed. -/
def modQueue (s : State) (graph q : Nat) (f : TQueue → TQueue) : State :=
  s.modGraph graph fun g => { g with queues := wr g.queues q (f (rd g.queues q {})) }

/-- The address of ring slot `k`. -/
def ringAddr (t : TQueue) (k : Nat) : W64 := t.base + w64 (64 * (k % 2 ^ t.rsize))

/-- The record at the ring head, read at the point of coherence, or the fault. -/
def ringHead (s : State) (bay : Nat) (t : TQueue) : State × (BitVec 512 ⊕ AErr) :=
  match agentRead s (device bay 0) (ringAddr t t.head) 64 64 with
  | (s, .inr e) => (s, .inr e)
  | (s, .inl b) => (s, .inl (BitVec.ofNat 512 (ofBytes b)))

/-! ### Pops and pushes (R127, R347) -/

/-- The queue that a waiting QPUSH or QPOP names. -/
def waitQueue (w : GenWait) : Option (Bool × Nat) :=
  match w.instr with
  | .qpush _ n _ _ => some (true, n.toNat)
  | .qpop _ n _ _ => some (false, n.toNat)
  | _ => none

/-- The cores whose user context waits in a push or pop of a queue of a graph, in core order, with their waits. -/
def queueWaiters (s : State) (graph q : Nat) (push : Bool) : List (Nat × GenWait) :=
  (List.range 320).filterMap fun n =>
    if (s.core n).task.isNone then none
    else
      match (s.core n).e.user.wait with
      | some w =>
        if waitQueue w = some (push, q) && ((s.taskOn n).any fun t => t.graph == graph) && coreRuns s n .user then some (n, w) else none
      | none => none

/-- Waiting pops in the order in which they began to wait: those noted before, then the new ones by core number. -/
def popOrder (noted : List (Nat × Nat)) (waiting : List (Nat × GenWait)) : List (Nat × Nat) :=
  let now := waiting.map fun p => (p.1, p.2.mark)
  noted.filter (now.contains ·) ++ now.filter fun p => !noted.contains p

/-- Ends a queue instruction with C = 1. -/
def queueDone (s : State) (k : BitVec 4) : State := endWait s (modCurG s fun g => setCond g k true) 4

/-- Writes a popped record to gA: colour 0, at core scope (R127). -/
def popWrite (s : State) (va : W64) (r : BitVec 512) : State × Option AErr :=
  match access s (genWho s 1) va 64 64 .wb with
  | (s, .bad e) => (s, some e)
  | (s, .ok ps) =>
    if ps.any fun p => pieceDenied s p false true then (s, some { cause := 0x08C, addr := va })
    else (writePieces s (some s.cur.core) true (s.core s.cur.core).task 0 ps (toBytes 64 r.toNat), none)

/-- A popped record has its line in the shadow arena (R338). -/
def popRoom (s : State) (va : W64) : Bool :=
  match (access s (genWho s 1) va 64 64 .wb).2 with
  | .ok ps => shadowRoom s (s.core s.cur.core).task ps
  | .bad _ => true

/-- Serves the first waiting pops: each takes the head of the sequence; the rest go on waiting, as do those whose head is a record
that is being moved (R384). -/
def servePops (s : State) (graph q : Nat) : List (Nat × Nat) → State
  | [] => modQueue s graph q fun t => { t with pops := [] }
  | (n, m) :: rest =>
    match s.graphAt graph, (s.core n).e.user.wait with
    | some g, some w =>
      match w.instr with
      | .qpop k _ a _ =>
        let t := rd g.queues q {}
        let s0 := actAs s n .user
        let take (s : State) (r : BitVec 512) (pop : TQueue → TQueue) : State :=
          match popWrite s (gReg (curG s) a) r with
          | (s, some e) => faultWaiting (genAErr s e)
          | (s, none) => queueDone (modQueue s graph q pop) k
        if !popRoom s0 (gReg (curG s0) a) then modQueue (starve s n) graph q fun t => { t with pops := (n, m) :: rest }
        else
          match t.q with
          | r :: _ => servePops (take s0 r fun t => { t with q := t.q.drop 1 }) graph q rest
          | [] =>
            if t.count = 0 ∨ t.moving ≠ [] then modQueue s graph q fun t => { t with pops := (n, m) :: rest }
            else
              match ringHead s0 g.bay t with
              | (s1, .inr e) => servePops (faultWaiting (genAErr s1 e)) graph q rest
              | (s1, .inl r) => servePops (take s1 r fun t => { t with head := t.head + 1, count := t.count - 1 }) graph q rest
      | _ => servePops s graph q rest
    | _, _ => servePops s graph q rest

/-- Serves one waiting push: into the queue, to the ring tail, or not yet. -/
def servePush (s : State) (graph q : Nat) (n : Nat) (w : GenWait) : State :=
  match s.graphAt graph, w.instr with
  | some g, .qpush k _ _ _ =>
    let t := rd g.queues q {}
    let r := BitVec.ofNat 512 w.note
    let s0 := actAs s n .user
    if t.q.length < 32 ∧ t.count = 0 then queueDone (modQueue s0 graph q fun t => { t with q := t.q ++ [r] }) k
    else if 2 ^ t.rsize ≤ t.count then s
    else
      match agentWrite s0 (device g.bay 1) (ringAddr t (t.head + t.count)) 64 (toBytes 64 r.toNat) with
      | (s1, some e) => faultWaiting (genAErr s1 e)
      | (s1, none) => queueDone (modQueue s1 graph q fun t => { t with count := t.count + 1 }) k
  | _, _ => s

/-- Pops and pushes that reach a queue in one cycle: all pops, then all pushes, each in the order of R347. -/
def serveQueue (s : State) (graph q : Nat) : State :=
  match s.graphAt graph with
  | none => s
  | some g =>
    let t := rd g.queues q {}
    let s := servePops s graph q (popOrder t.pops (queueWaiters s graph q false))
    (queueWaiters s graph q true).foldl (fun s p => servePush s graph q p.1 p.2) s

/-- A queue has something to serve: a pop or a push waits. -/
def queueBusy (s : State) (graph q : Nat) : Bool := !(queueWaiters s graph q false).isEmpty || !(queueWaiters s graph q true).isEmpty

/-- QUEUE_SERVICE (R347): once per queue and cycle. -/
def execQueueService (graph q : Nat) (s : State) : Out :=
  match s.graphAt graph with
  | none => .next s
  | some g =>
    if s.now < (rd g.queues q {}).served || !queueBusy s graph q then .next s
    else .next (modQueue (serveQueue s graph q) graph q fun t => { t with served := s.now + 1 })

/-- A move may start: one a cycle, of a ring record that none moves yet, into an entry that none will fill (R384). -/
def moveDue (s : State) (t : TQueue) : Bool :=
  decide (t.moved ≤ s.now) && decide (t.moving.length < t.count) && decide (t.q.length + t.moving.length < 32)

/-- A move starts: its slot is read at the point of coherence. One that meets a fault leaves the record at the ring head (R346,
R384). -/
def startMove (graph q : Nat) (s : State) : State :=
  match s.graphAt graph with
  | none => s
  | some g =>
    let t := rd g.queues q {}
    if !moveDue s t then s
    else
      match ringHead s g.bay { t with head := t.head + t.moving.length } with
      | (s, .inr _) => modQueue s graph q fun t => { t with moved := s.now + 1 }
      | (s, .inl r) => modQueue s graph q fun t => { t with moving := t.moving ++ [r], moved := s.now + 1 }

/-- The oldest started move ends: its record enters the queue and leaves the ring (R384). -/
def endMove (graph q : Nat) (s : State) : State :=
  modQueue s graph q fun t =>
    match t.moving with
    | [] => t
    | r :: rest => { t with q := t.q ++ [r], moving := rest, head := t.head + 1, count := t.count - 1 }

/-- RING_TO_QUEUE_MOVE (R346, R384): the ring head moves to the queue tail: a move that has started ends, and where none has, one
starts and ends in this step. -/
def execRingToQueueMove (graph q : Nat) (s : State) : Out :=
  match (s.graphAt graph).map fun g => (rd g.queues q {}).moving with
  | none => .next s
  | some [] => .next (endMove graph q (startMove graph q s))
  | some _ => .next (endMove graph q s)

/-! ### Waits that end (R104, R105) -/

/-- The condition and effect of a waiting instruction; the queues serve QPUSH and QPOP. -/
def tryGen (s : State) (w : GenWait) : Try :=
  match w.instr with
  | .gfb k n a _ => tryGfb k n a s w
  | .gsync d _ fl => tryGsync d fl s w
  | .launchT k a _ => tryLaunch false k a s w
  | .launchG k a _ => tryLaunch true k a s w
  | .join k a _ => tryJoin k a s w
  | .gbwait k a _ => tryGbwait k a s w
  | .ckstore d a b => tryCkstore d a b s w
  | _ => .notYet

/-- The wait of a context that may act: a fault or pre-emption that has reached the core cancels it (R105, R295). -/
def activeWait (s : State) (core : Nat) (x : Ctx) : Option GenWait :=
  if coreRuns s core x && (x == .firmware || (s.core core).stop.all (·.reached)) then ((s.core core).gctx x).wait else none

/-- The wait of a context whose Cask copies are in progress: they go on even as a stop waits for them (R105, R132). -/
def copyingWait (s : State) (core : Nat) (x : Ctx) : Option GenWait :=
  if (s.core core).caskJob.any fun j => j.ctx == x then ((s.core core).gctx x).wait else none

/-- GEN_WAIT_COMPLETE (R104, R128, R132): the condition of a waiting instruction holds. -/
def execGenWaitComplete (core : Nat) (ctx : Ctx) (s : State) : Out :=
  match copyingWait s core ctx, activeWait s core ctx with
  | some w, _ => .next (caskTurn (actAs s core ctx) w)
  | none, none => .next s
  | none, some w =>
    let s0 := actAs s core ctx
    match w.instr with
    | .tret a => if tretHolds s0 then .next (tretDone a s0) else .next s
    | .ckskip =>
      match tryCkskip s0 w with
      | .notYet => .next (caskTurn s0 w)
      | _ => ckskipStep s0 w
    | i =>
      match tryGen s0 w with
      | .done a => .next (endWait s0 a 4)
      | .fault a => .next (faultWaiting a)
      | .notYet => match i with | .ckstore .. => .next (caskTurn s0 w) | _ => .next s

/-- The sequencer would end a QPUSH or QPOP in this cycle, so its timeout does not (R127). -/
def wouldServe (s : State) (core : Nat) (w : GenWait) : Bool :=
  match waitQueue w, s.taskOn core with
  | some (_, q), some t =>
    match s.graphAt t.graph with
    | some g =>
      decide ((rd g.queues q {}).served ≤ s.now) &&
        ((((serveQueue s t.graph q).core core).e.user.wait.map (·.mark)) != some w.mark)
    | none => false
  | _, _ => false

/-- GEN_WAIT_TIMEOUT (R104): the timeout has run out and the condition does not hold. -/
def execGenWaitTimeout (core : Nat) (ctx : Ctx) (s : State) : Out :=
  match activeWait s core ctx with
  | none => .next s
  | some w =>
    let s0 := actAs s core ctx
    let holds := match tryGen s0 w with | .notYet => false | _ => true
    if !waitExpired s w || holds then .next s
    else
      match w.instr with
      | .gfb k _ _ _ => .next (expireWait s0 k)
      | .gsync d _ _ => .next (expireGsync d s0)
      | .launchT k _ _ => .next (expireWait s0 k)
      | .launchG k _ _ => .next (expireWait s0 k)
      | .join k _ _ => .next (expireWait s0 k)
      | .gbwait k _ _ => .next (expireWait s0 k)
      | .qpush k _ _ _ => if wouldServe s core w then .next s else .next (expireWait s0 k)
      | .qpop k _ _ _ => if wouldServe s core w then .next s else .next (expireWait s0 k)
      | _ => .next s

end Sys2Proof.Machine
end

