-- ==== Sys2Proof/Machine/XCopy.lean ====
section
/-! DEFINITION. Copy channels: their ops (R206, R212), the copies of a run (R207, R208, R210, R211), the Eave conversions (R261),
delivery and the write pointer (R209), byte posts (R225, R376) and faults (R213). -/

namespace Sys2Proof.Machine

/-! ### A latched program (R147, R206) -/

/-- A field of a channel's latched program. -/
def runF (c : Chan) (n : Nat) : Nat := (rd c.run n 0).toNat

/-- The iterations of level `l`; a count of 0 is taken as 1 (R207). -/
def levelCount (p : Vector W64 36) (l : Nat) : Nat := max 1 (rd p (4 * l) 0).toNat

/-- The source stride of a level. -/
def srcStride (p : Vector W64 36) (l : Nat) : Int := signedOf 40 (rd p (4 * l + 1) 0).toNat

/-- The destination stride of a level. -/
def dstStride (p : Vector W64 36) (l : Nat) : Int := signedOf 40 (rd p (4 * l + 2) 0).toNat

/-- Copies of a run. -/
def runLength (p : Vector W64 36) : Nat := (List.range 6).foldl (fun n l => n * levelCount p l) 1

/-- Index of level `l` in iteration `k`; level 0 varies fastest (R207). -/
def levelIndex (p : Vector W64 36) (k l : Nat) : Nat :=
  k / (List.range l).foldl (fun n j => n * levelCount p j) 1 % levelCount p l

/-- A field of a program as a number. -/
def progF (p : Vector W64 36) (n : Nat) : Nat := (rd p n 0).toNat

/-- The run gathers rows by index (R211). -/
def gathers (p : Vector W64 36) : Bool := bitAt (rd p 0x22 0) 0

/-- Bytes of one copy. -/
def copyLen (p : Vector W64 36) : Nat := if gathers p then bits (rd p 0x22 0) 2 17 else progF p 0x1A

/-- Bytes of an index entry (R211). -/
def indexLen (p : Vector W64 36) : Nat := if bitAt (rd p 0x22 0) 1 then 4 else 2

/-- The Eave layout bits (R208). -/
def layoutOf (p : Vector W64 36) : Nat := bits (rd p 0x1E 0) 2 2

/-- What CPGO refuses (R206); `start` says that FN is not zero. -/
def programBad (p : Vector W64 36) (start : Bool) : Bool :=
  let many := (List.range 6).filter fun l => 1 < levelCount p l
  let s (l : Nat) : Nat := progF p (4 * l + 1)
  let d (l : Nat) : Nat := progF p (4 * l + 2)
  let row := bits (rd p 0x22 0) 2 17
  (!gathers p && progF p 0x1A == 0) || progF p 0x18 % 4 != 0 || progF p 0x19 % 4 != 0 ||
  (many.any fun l => s l % 4 != 0 || d l % 4 != 0) || progF p 0x1C % 4 != 0 ||
  (layoutOf p != 0 && (progF p 0x18 % 2048 != 0 || progF p 0x1A % 2048 != 0 || (List.range 6).any fun l => s l % 2048 != 0)) ||
  (gathers p && (progF p 3 != 0 || row == 0 || decide (65536 < row) || row % 4 != 0 || progF p 0x21 % indexLen p != 0)) ||
  (!bitAt (rd p 0x1E 0) 4 && start)

/-! ### Stopping and the C count (R206, R212) -/

/-- A channel of a core changed. -/
def modChan (s : State) (core ch : Nat) (f : Chan → Chan) : State :=
  s.modE core fun e => { e with ch := wr e.ch ch (f (rd e.ch ch {})) }

/-- A channel of a core. -/
def chanOf (s : State) (core ch : Nat) : Chan := rd (s.core core).e.ch ch {}

/-- A copy with bytes still to deliver. -/
def undelivered (c : Copy) : Bool := c.gran.any fun g => !g.2.2

/-- The bytes of the latest run's longest delivered prefix (R209), which a lost copy ends for good (R213). -/
def deliveredPrefix (c : Chan) : Nat :=
  (c.copies.filter fun x => x.run == c.runId).foldl (fun m x =>
    match x.gran.findIdx? fun g => !g.2.2 with
    | some i => min m (x.off + 4 * i)
    | none => m) (min c.issued (c.lostAt.getD c.issued))

/-- Releases the C count of each run that has issued its last copy, or has stopped, and whose copies are delivered; moves the write
pointer; forgets copies that are delivered and have posted (R209, R212). -/
def settleChan (s : State) (core ch : Nat) : State :=
  let c := chanOf s core ch
  let ended (r : Nat) : Bool := !(c.running && c.runId == r) && !(c.copies.any fun x => x.run == r && undelivered x)
  let n := (c.counting.filter ended).length
  let s := modChan s core ch fun c =>
    { c with counting := c.counting.filter fun r => !ended r
             wptr := w64 (deliveredPrefix c)
             copies := c.copies.filter fun x => undelivered x || x.post.isSome }
  s.modE core fun e => { e with cC := e.cC - n }

/-- The channel stops: no further copy of its run issues (R212). -/
def stopChan (s : State) (core ch : Nat) : State :=
  let s := s.modCore core fun c => { c with ahead := c.ahead.filter (·.agent != ch) }
  settleChan (modChan s core ch fun c => { c with running := false, startAt := none, batch := [], park := none }) core ch

/-- A copy fault: the channel stops and the task takes the fault, with the channel and the copy's iteration as detail (R213, R294); that of
a run that firmware started is firmware's (R293). -/
def copyFault (s : State) (core ch src : Nat) (cause : BitVec 9) (addr : W64) (iter : Nat) : State :=
  raise (stopChan s core ch) core
    { src := src, cause := cause, levelE := true, async := true, ctx := (chanOf s core ch).ctx, addr := addr, det0 := w64 ch, det1 := w64 iter }

/-- A fault that a copy meets: it parks the channel when the host may answer it, and stops the channel otherwise (R213, R269). -/
def copyError (s : State) (core ch : Nat) (e : AErr) : State :=
  if e.replayable then modChan s core ch fun c => { c with park := some (.wanting e.cause e.addr e.walk e.rp) }
  else copyFault s core ch 9 e.cause e.addr (chanOf s core ch).iter

/-! ### Channel ops (R206, R212) -/

/-- CPGO (R206). -/
def execCpgo (f : XROp) (s : State) : Out :=
  xGated s f (decide (f.a.toNat < 8) && f.sc == 0) fun s tag =>
    let e := curE s
    let n := f.a.toNat
    let c := rd e.ch n {}
    let p := c.prog
    let p := if f.b = 0 then p else wr p 0x18 (sReg e f.b.toNat)
    let p := if f.c = 0 then p else wr p 0x19 (sReg e f.c.toNat)
    let t := sReg e f.fn.toNat
    if programBad p (f.fn != 0) then xFault s 2
    else if c.running ∨ 255 ≤ e.cC then .wait
    else
      let (id, s) := s.bump
      let start := if bitAt (rd p 0x1E 0) 4 && decide (s.now < t.toNat) then some t else none
      let s := modCurE s fun e => { e with
        cC := e.cC + 1
        ch := wr e.ch n { c with ctx := s.cur.ctx, run := p, runId := id, running := true, iter := 0, issued := 0, startAt := start, batch := [],
                                 wptr := 0, oob := 0, counting := c.counting ++ [id], lostAt := none, park := none } }
      .go (tagOnly s tag) 1

/-- CPSTOP (R212). -/
def execCpstop (f : XROp) (s : State) : Out :=
  xGated s f (decide (f.a.toNat < 8) && f.b == 0 && f.c == 0 && f.fn == 0 && f.sc == 0) fun s tag =>
    let s' := if (chanOf s s.cur.core f.a.toNat).running then stopChan s s.cur.core f.a.toNat else s
    .go (tagOnly s' tag) 1

/-- CPDRAIN (R212). -/
def execCpdrain (f : XROp) (s : State) : Out :=
  xWait s f (decide (f.a.toNat < 8) && f.b == 0 && f.c == 0 && f.fn == 0 && f.sc == 0) fun s =>
    waitIssue s (xRunOf s (.cpdrain f) 0 0 [])

/-- CPWP reads a value of a channel at issue, at latency 2 (R212). -/
def pointerIssue (s : State) (f : XROp) (pick : Chan → W64) : Out :=
  slotIssue s f.tagw f.taga true
    (f.rsv == 0 && f.b == 0 && f.q == 0 && f.sc == 0 && f.tmo == 0 && decide (f.c.toNat < 8) && bits f.fn 1 5 == 0) fun s tag =>
      landGo s 2 [.s f.a.toNat (pick (rd (curE s).ch f.c.toNat {}))] tag

/-- CPWP: the write pointer (R209, R212). -/
def execCpwp (f : XROp) (s : State) : Out := pointerIssue s f (·.wptr)

/-- CPWP.OOB: the out-of-bounds counter (R212). -/
def execCpwpOob (f : XROp) (s : State) : Out := pointerIssue s f (·.oob)

/-! ### The Eave conversions (R261) -/

/-- Byte `b` of a converted 2-KiB tile of `z`-byte elements; under layout 10 the tile is given as its eight rows one after another. -/
def eaveByte (layout z : Nat) (tile : List Byte) (b : Nat) : Byte :=
  let byte (i : Nat) : Byte := (tile[i]?).getD 0
  match layout with
  | 1 =>
    let e := b / z
    byte (64 * (e % 32) + e / 32 * z + b % z)
  | 3 =>
    BitVec.ofNat 8 (((List.range 8).map fun j =>
      let i := 8 * b + j
      let from_ := 8 * z * (i % (2048 / z)) + i / (2048 / z)
      if bitAt (byte (from_ / 8)) (from_ % 8) then 2 ^ j else 0).sum)
  | _ => byte b

/-- The 2-KiB tile at a source address as a layout delivers it: converted when the tile lies in HBM, as it stands otherwise. -/
def readTile (s : State) (k : Who) (layout z : Nat) (pitch : Int) (va : W64) : State × (List Byte ⊕ AErr) :=
  let plain := agentRead s k va 2048 4
  match access s k va 4 4 .uc with
  | (s, .bad e) => (s, .inr e)
  | (s', .ok ps) =>
    let hbm := ps.any fun p => match p.loc with | .phys pa => target pa == .hbm | _ => false
    if !hbm then plain
    else if layout = 2 then
      (List.range 8).foldl (fun (r : State × (List Byte ⊕ AErr)) i =>
        match r with
        | (s, .inr e) => (s, .inr e)
        | (s, .inl b) =>
          match agentRead s k (va + BitVec.ofInt 64 (Int.ofNat i * pitch)) 256 4 with
          | (s, .inr e) => (s, .inr e)
          | (s, .inl c) => (s, .inl (b ++ c))) (s', .inl [])
    else
      match agentRead s' k va 2048 4 with
      | (s, .inr e) => (s, .inr e)
      | (s, .inl t) => (s, .inl ((List.range 2048).map (eaveByte layout z t)))

/-- Reads `n` source bytes, tile by tile when a layout is set. -/
def readSource (s : State) (k : Who) (layout z : Nat) (pitch : Int) (va : W64) (n : Nat) : State × (List Byte ⊕ AErr) :=
  if n = 0 then (s, .inl [])
  else if layout = 0 then agentRead s k va n 4
  else
    (List.range ((n + 2047) / 2048)).foldl (fun (r : State × (List Byte ⊕ AErr)) i =>
      match r with
      | (s, .inr e) => (s, .inr e)
      | (s, .inl b) =>
        match readTile s k layout z pitch (va + w64 (2048 * i)) with
        | (s, .inr e) => (s, .inr e)
        | (s, .inl c) => (s, .inl (b ++ c))) (s, .inl [])

/-! ### Issuing a copy (R207, R208) -/

/-- The agent of a channel's accesses. -/
def copyWho (s : State) (core ch kind : Nat) : Who :=
  { core := some core, bay := s.bayOn core, kind := kind, task := (s.core core).task, chan := true, agent := some ch,
    fw := decide ((chanOf s core ch).ctx = .firmware) }

/-- A copy channel of a core may issue: its task is on the core and is not being taken off it (R306). -/
def copiesRun (s : State) (core : Nat) : Bool :=
  let c := s.core core
  rd s.powered (core / 160) false && c.task.isSome && !c.restoring && !(computePhase s (s.bayOn core)) &&
    match c.stop with
    | none => true
    | some st => !(st.reached && match st.why with | .fault => false | _ => true)

/-- The batch holds the index of the next iteration, or none is needed (R211). -/
def indexReady (c : Chan) : Bool := !gathers c.run || decide (c.iter % 8 < c.batch.length)

/-- A channel has a copy to issue now. -/
def copyDue (c : Chan) : Bool := c.running && c.startAt.isNone && c.park.isNone && indexReady c

/-- The channel is the next of its latency class in turn: the channels of a class take turns in channel order (R208). -/
def hasTurn (e : Engine) (ch : Nat) : Bool :=
  let cls (c : Chan) : Nat := bits (rd c.run 0x1E 0) 0 2
  let k := cls (rd e.ch ch {})
  let last := (rd e.copyTurn k (7, 0)).1
  let order := (List.range 8).map fun i => (last + 1 + i) % 8
  (order.find? fun n => let c := rd e.ch n {}; copyDue c && cls c == k) == some ch

/-- Where the destination granule at an address lands under the swizzle (R207). -/
def swizzled (p : Vector W64 36) (a : W64) : W64 :=
  let swz := rd p 0x1C 0
  a ^^^ w64 (Nat.land (bits a 0 20 / 2 ^ bits swz 20 6) (bits swz 0 20))

/-- The places of the destination granules, or the first fault. -/
def destinations (s : State) (k : Who) (p : Vector W64 36) (d : W64) : Nat → Nat → State × (List Loc ⊕ AErr)
  | 0, _ => (s, .inl [])
  | n + 1, o =>
    match access s k (swizzled p (d + w64 o)) 4 4 .uc with
    | (s, .bad e) => (s, .inr e)
    | (s, .ok ps) =>
      if ps.any fun x => pieceDenied s x false true then (s, .inr { cause := 0x0B4, addr := swizzled p (d + w64 o) })
      else
        match destinations s k p d n (o + 4) with
        | (s, .inr e) => (s, .inr e)
        | (s, .inl r) => (s, .inl ((ps.head?.map (·.loc)).getD (.scratch 0) :: r))

/-- Source address, destination address and whether all of it is filled, for iteration `k` (R207). -/
def copyPlace (c : Chan) (k : Nat) : W64 × W64 × Bool :=
  let p := c.run
  let i (l : Nat) : Int := Int.ofNat (levelIndex p k l)
  let d := ((List.range 6).map fun l => i l * dstStride p l).sum
  let outer := ((List.range 5).map fun l => i (l + 1) * srcStride p (l + 1)).sum
  let idx := (c.batch[k % 8]?).getD 0
  let s0 : Int := if gathers p then Int.ofNat idx * srcStride p 0 else i 0 * srcStride p 0
  let out := if gathers p then decide (progF p 0x23 ≠ 0 ∧ progF p 0x23 ≤ idx)
    else (List.range 5).any fun l => let x := progF p (4 * (l + 1) + 3); decide (x ≠ 0 ∧ x ≤ levelIndex p k (l + 1))
  (rd p 0x18 0 + BitVec.ofInt 64 (s0 + outer), rd p 0x19 0 + BitVec.ofInt 64 d, out)

/-- Bytes of the copy that are read from the source: the granules before the first filled one (R207). -/
def sourceLen (p : Vector W64 36) (k : Nat) (out : Bool) : Nat :=
  let len := copyLen p
  let ext := progF p 3
  if out then 0
  else if gathers p ∨ ext = 0 then len
  else
    let z := 2 ^ bits (rd p 0x1B 0) 0 2
    ((List.range (len / 4)).filter fun g => decide ((levelIndex p k 0 * len + 4 * g) / z < ext)).length * 4

/-- Where a copy posts: the package that holds its first destination byte, and the barrier (R210, R376). -/
def postPlace (s : State) (p : Vector W64 36) (locs : List Loc) : Option (Nat × Nat) :=
  let b := rd p 0x1F 0
  if !bitAt b 12 then none
  else
    let pkg := match locs.head? with
      | some (.phys pa) => (match target pa with | .remote g _ => g | _ => s.regs.plkSelf.toNat)
      | _ => s.regs.plkSelf.toNat
    some (pkg, bits b 0 12)

/-- Issues the next copy of a channel whose turn it is. -/
def issueCopy (s : State) (core ch : Nat) : State :=
  let c := chanOf s core ch
  let p := c.run
  let k := c.iter
  let (sa, da, out) := copyPlace c k
  let n := sourceLen p k out
  let len := copyLen p
  let cls := bits (rd p 0x1E 0) 0 2
  match readSource s (copyWho s core ch 5) (layoutOf p) (2 ^ bits (rd p 0x1B 0) 0 2) (srcStride p 1) sa n with
  | (s, .inr e) => copyError s core ch e
  | (s, .inl src) =>
    match destinations s (copyWho s core ch 6) p da (len / 4) 0 with
    | (s, .inr e) => copyError s core ch e
    | (s, .inl locs) =>
      let fill : BitVec 32 := (rd p 0x1D 0).setWidth 32
      let word (g : Nat) : BitVec 32 := if 4 * g < n then BitVec.ofNat 32 (ofBytes ((src.drop (4 * g)).take 4)) else fill
      let gran := locs.zipIdx.map fun x => (x.1, word x.2, false)
      let from_ := if n = 0 then [] else match (access s (copyWho s core ch 5) sa n 4 .uc).2 with | .ok ps => ps.map (·.loc) | .bad _ => []
      let (id, s) := s.bump
      let copy : Copy :=
        { k := id, run := c.runId, iter := k, off := c.issued, pubs := rd p 0x20 0, src := from_, gran := gran, post := postPlace s p locs }
      let last := decide (runLength p ≤ k + 1)
      let s := modChan s core ch fun c =>
        { c with iter := k + 1, issued := c.issued + len, copies := c.copies ++ [copy], running := !last,
                 oob := if out && gathers p then c.oob + 1 else c.oob,
                 batch := if (k + 1) % 8 = 0 ∨ last then [] else c.batch }
      s.modE core fun e => { e with copyTurn := wr e.copyTurn cls (ch, s.now + 1) }

/-- The scratchpad banks that bytes from an address use. -/
def addrBanks (a : W64) (n : Nat) : BitVec 16 := if a.toNat / 2 ^ 60 = 1 then banksOf (a.toNat % 2 ^ 20) n else 0

/-- The scratchpad banks that a channel's next copy reads. -/
def sourceBanks (c : Chan) : BitVec 16 :=
  let (sa, _, out) := copyPlace c c.iter
  addrBanks sa (sourceLen c.run c.iter out)

/-- COPY_ISSUE (R207, R208): a running channel issues its next copy when its class has its turn for it, one per class and cycle of the
core's clock (R5), in a cycle that leaves the scratchpad banks it reads over (R195). -/
def execCopyIssue (core ch : Nat) (s : State) : Out :=
  let e := (s.core core).e
  let c := rd e.ch ch {}
  let cls := bits (rd c.run 0x1E 0) 0 2
  if copiesRun s core && rd s.clockEdge (core / 160) true && copyDue c && hasTurn e ch && decide ((rd e.copyTurn cls (7, 0)).2 ≤ s.now) &&
      leftOver s core (sourceBanks c) then .next (issueCopy s core ch)
  else .next s

/-- CPGO_PHASED_START (R210, R290): the cycle counter has reached a channel's start cycle, in a phase in which copies issue. -/
def execCpgoPhasedStart (core ch : Nat) (s : State) : Out :=
  let c := chanOf s core ch
  match c.startAt with
  | none => .next s
  | some t =>
    if c.running && decide (t.toNat ≤ s.now) && copiesRun s core then
      execCopyIssue core ch (modChan s core ch fun c => { c with startAt := none })
    else .next s

/-- GATHER_INDEX_READ (R211): a batch of up to 8 index entries is read with the rights of a copy read. -/
def execGatherIndexRead (core ch : Nat) (s : State) : Out :=
  let c := chanOf s core ch
  let p := c.run
  let w := indexLen p
  let first := c.iter / 8 * 8
  let n := min 8 (runLength p - first)
  if !(copiesRun s core && c.running && gathers p && c.startAt.isNone && c.park.isNone && !indexReady c) ||
      !leftOver s core (addrBanks (rd p 0x21 0 + w64 (first * w)) (n * w)) then .next s
  else
    match agentRead s (copyWho s core ch 5) (rd p 0x21 0 + w64 (first * w)) (n * w) w with
    | (s, .inr e) => .next (copyError s core ch e)
    | (s, .inl b) =>
      .next (modChan s core ch fun c => { c with batch := (List.range n).map fun i => ofBytes ((b.drop (i * w)).take w) })

/-! ### Translation ahead of the cursor (R267) -/

/-- The pages of space 0x0 that a channel's cursor comes to, in program order: access kind and page. Of a gathered run the rows whose
indices are known count. -/
def channelPages (c : Chan) : List (Nat × Nat) :=
  let p := c.run
  let n := runLength p - c.iter
  let n := if gathers p then min n (8 - c.iter % 8) else min n 4096
  (List.range n).flatMap fun i =>
    let k := c.iter + i
    let (sa, da, out) := copyPlace c k
    let src := (pagesOf sa.toNat (sourceLen p k out)).map fun x => (5, x)
    let dst := ((List.range (copyLen p / 4)).map fun g => (6, (swizzled p (da + w64 (4 * g))).toNat / 4096)).eraseDups
    (src ++ dst).filter fun x => x.2 < 2 ^ 44

/-- The translation of a page by the copy channels of a core that come to it (R267); a parked one translates nothing ahead (R313). -/
def channelsAhead (s : State) (core va : Nat) : State :=
  (List.range 8).foldl (fun s ch =>
    let c := chanOf s core ch
    if !c.running || c.park.isSome then s
    else [5, 6].foldl (fun s kind => if isAhead (channelPages c) kind (va / 4096) then keepAhead s core (copyWho s core ch kind) va else s) s) s

/-! ### Delivery (R209) -/

/-- The granule is not in space 0x0. -/
def localGran (g : Loc × BitVec 32 × Bool) : Bool := match g.1 with | .phys _ => false | _ => true

/-- A granule may be delivered: into spaces 0x1 to 0x3 only after every earlier granule of its run that goes there (R209). -/
def mayDeliver (c : Chan) (x : Copy) (n : Nat) : Bool :=
  match x.gran[n]? with
  | none => false
  | some g =>
    !g.2.2 && (!localGran g ||
      (!((x.gran.take n).any fun h => localGran h && !h.2.2) &&
        !(c.copies.any fun y => y.run == x.run && decide (y.off < x.off) && y.gran.any fun h => localGran h && !h.2.2)))

/-- A granule's place leaves a cycle's accesses to it: a bank of the scratchpad that other accesses leave over (R195). -/
def placeFree (s : State) (core : Nat) (l : Loc) : Bool :=
  match l with
  | .scratch off => leftOver s core (banksOf off 4)
  | _ => true

/-- A granule's write has left for another package (R375, R376). -/
def granLeft (s : State) (core ch k n : Nat) : State :=
  modChan s core ch fun c => { c with copies := c.copies.map fun y => if y.k = k then { y with away := n :: y.away } else y }

/-- A granule is delivered. -/
def granDone (s : State) (core ch k n : Nat) (g : Loc × BitVec 32 × Bool) : State :=
  settleChan (modChan s core ch fun c => { c with copies := c.copies.map fun y =>
    if y.k = k then { y with gran := y.gran.set n (g.1, g.2.1, true) } else y }) core ch

/-- COPY_DELIVERY (R209, R283): granule `n` of copy `k` is written at its destination. The write of one in another package leaves, and the
granule is delivered with its acknowledgement (R375, R376). -/
def execCopyDelivery (core ch k n : Nat) (s : State) : Out :=
  let c := chanOf s core ch
  match c.copies.find? (·.k = k) with
  | none => .next s
  | some x =>
    match x.gran[n]? with
    | none => .next s
    | some g =>
      let waits := match g.1 with
        | .phys pa => !shadowRoom s (s.core core).task [{ va := 0, loc := .phys pa, len := 4, pol := .uc, group := 0 }]
        | _ => false
      if !mayDeliver c x n || !placeFree s core g.1 then .next s
      else if x.away.contains n then .next (granDone s core ch k n g)
      else if waits then .next (starve s core)
      else
        let piece : Piece := { va := 0, loc := g.1, len := 4, pol := .uc, group := 0, sys := true }
        let far := (shadowTask s (s.core core).task).isNone && (remoteOf s piece).isSome
        let s := writePiece s (some core) false (s.core core).task 0 piece (toBytes 4 g.2.1.toNat)
        .next (if far then granLeft s core ch k n else granDone s core ch k n g)

/-- COPY_BYTE_POST (R210, R225, R376): a copy that is delivered posts its length; a post that overflows PEND, or reaches a barrier
with TARGET 0, is not applied and stops the channel. -/
def execCopyBytePost (core ch k : Nat) (s : State) : Out :=
  let c := chanOf s core ch
  match c.copies.find? (·.k = k) with
  | none => .next s
  | some x =>
    match x.post with
    | none => .next s
    | some (pkg, n) =>
      if undelivered x then .next s
      else
        let len := 4 * x.gran.length
        let s := modChan s core ch fun c => { c with copies := c.copies.filter fun y => y.k ≠ k }
        let bad (cause : BitVec 9) : State := copyFault s core ch 11 cause 0 x.iter
        if pkg ≠ s.regs.plkSelf.toNat then .next (sendSync s pkg (.post n len))
        else if (s.barrier n).target = 0 then .next (bad 0x102)
        else
          match addPend (s.barrier n) (-Int.ofNat len) with
          | none => .next (bad 0x100)
          | some b => .next (s.modBarrier n fun _ => b)

end Sys2Proof.Machine
end

