-- ==== Sys2Proof/Machine/Traps.lean ====
section
/-! DEFINITION. The stop boundary: the snapshot, the fault record and handler entry, faulted and killed tasks (R295 to R306, R333,
R334); replayable faults and the host fault queue (R269, R270, R380, R381); page walks (R264). -/

namespace Sys2Proof.Machine

/-! ### What stands still at the boundary (R295, R298, R300) -/

/-- No op is between beats: V ops have run all their beats and a MACC stands at a group boundary; a drain stands between rows. -/
def betweenBeats (e : Engine) : Bool :=
  e.vrun.toArray.toList.any Option.isSome || (match e.macc with | some r => !atBoundary r | none => false)

/-- A generator context that a stop reaches: a waiting instruction is cancelled and its steer register's CV stays clear (R105), and
outstanding replies have arrived (R106), but for one that may still be a fault: it comes later, before the context issues again. -/
def haltG (g : GenCtx) : GenCtx :=
  let g := (g.loads.filter (!·.firm)).foldl applyLoad g
  { g with wait := none, k := g.k.map fun x => { x with busy := false } }

/-- Results in flight at cycle `b` as snapshot entries (R298), after those of an earlier stop that have still to land. -/
def snapshotAt (e : Engine) (b : Nat) : List SnapEntry :=
  (e.snapshot.map fun x => { x with rem := e.resumed + x.rem - b }) ++
    (e.landings.filter fun l => decide (b < l.at_)).map fun l => { rem := l.at_ - b, seq := l.seq, writes := l.writes, tag := l.tag }

/-- The first time a stop reaches its boundary B, which is now: the generator is cancelled, fibre ops stop, and the snapshot is
taken. A later stop of a core that stands still finds all that already done. -/
def standStill (s : State) (n : Nat) (st : Stop) : State :=
  match st.at_ with
  | some _ => s
  | none =>
    let s := stopFibre (stopFibre (s.modG n .user haltG) n .x0) n .x1
    s.modE n fun e => { e with snapshot := snapshotAt e s.now, landings := [] }

/-! ### Faulted, saved and killed tasks -/

/-- Every copy channel of a core stops as under CPSTOP (R334). -/
def stopChannels (s : State) (n : Nat) : State :=
  (List.range 8).foldl (fun s ch => if (chanOf s n ch).running then stopChan s n ch else s) s

/-- The task on a core is faulted (R302, R333): it is to end as faulted, the other members of its gang stop, its record goes to the
fault log and the bay's policy acts. Its channels stop (DEDUCED, see assumption 23). -/
def endFaulted (s : State) (n : Nat) (t : Task) (fi : FaultInfo) : State :=
  let ws := recordWords s n fi
  let s := s.modTask t.id fun t => { t with stat := .retiring (.ends (.faulted fi.cause)) }
  let s := t.cores.foldl (fun s m => if m = n then s else requestStop s m (.kill .record)) (stopChannels s n)
  taskFaulted s t fi.cause ws

/-- The kill that a stop stands for or that waits behind it, and the abort of the task (R334, R337). -/
def killDue (t : Task) (why : StopWhy) (next : Option StopWhy) : Option KillHow :=
  let join (x : Option KillHow) (w : Option StopWhy) : Option KillHow :=
    match w, x with
    | some (.kill b), some a => some (strongest a b)
    | some (.kill b), none => some b
    | _, x => x
  let own := join (if t.aborted then some .again else none) (some why)
  own.map fun k => (join (some k) next).getD k

/-- What the stop of a core does at its boundary, by its reason, with a kill that waits behind another; `w` is the instruction that
waited. A task that has been aborted takes no fault any more (R337). -/
def stopTaken (s : State) (n : Nat) (t : Task) (st : Stop) (w : Option Instr) : State :=
  let next := (s.core n).stopNext
  match t.stat with
  | .retiring l =>
    match killDue t st.why next with
    | some how => (stopChannels s n).modTask t.id fun t => { t with stat := .retiring (killLeave l how) }
    | none => stopChannels s n
  | _ =>
    match killDue t st.why next with
    | some how => (stopChannels s n).modTask t.id fun t => { t with stat := .retiring (leaveOf how) }
    | none =>
      match st.why with
      | .kill _ => s
      | .save waits => s.modTask t.id fun t => { t with stat := .saving, waitFor := if waits then w else t.waitFor }
      | .fault =>
        match st.faults with
        | [] => s
        | fi :: _ =>
          match enterHandler s n fi with
          | (s, true) => s
          | (s, false) => endFaulted s n t fi

/-- The stop that a core is in, or that comes next on a core that already stands still (R305). A CKSTORE or CKSKIP whose copies have
begun completes first (R105, R132). -/
def dueStop (s : State) (n : Nat) (t : Task) : Option Stop :=
  let c := s.core n
  match c.stop with
  | none => none
  | some st =>
    if st.reached then
      match c.stopNext with
      | some w => if isRetiring t then none else some { st with why := w, b := s.now - 1, reached := false }
      | none => none
    else if st.b < s.now ∧ !betweenBeats c.e ∧ !(c.caskJob.any fun j => j.ctx == .user) then some st
    else none

/-- STOP_BOUNDARY (R295, R298, R302, R306): a core that has been asked to stop, and none of whose ops is between beats, stands
still. -/
def execStopBoundary (core : Nat) (s : State) : Out :=
  match s.taskOn core with
  | none => .next s
  | some t =>
    match dueStop s core t with
    | none => .next s
    | some st =>
      let w := ((s.core core).e.user.wait).map (·.instr)
      let late := ((s.core core).stop.map (·.reached)).getD false
      let s := standStill s core st
      let at_ := st.at_.getD s.now
      let s := s.modCore core fun c =>
        { c with stop := some { st with reached := true, at_ := some at_ }, stopNext := if late then none else c.stopNext }
      .next (stopTaken s core t st w)

/-! ### The host fault queue (R269, R312, R380) -/

/-- The fault queue is enabled. -/
def fqOn (q : Fq) : Bool := bitAt q.w0 63

/-- Records that the fault-queue ring holds. -/
def fqSize (q : Fq) : Nat := 2 ^ (bits q.w0 48 4 + 6)

/-- The next token: tokens count up modulo 2^25, and no two unanswered records share one. -/
def nextToken (q : Fq) : Nat :=
  ((List.range (q.open_.length + 1)).map fun i => (q.nextToken + i) % 2 ^ 25).find? (fun t => !q.open_.any (·.token == t)) |>.getD 0

/-- How an agent stands. -/
def parkOf (s : State) (core : Nat) (agent : Agent) (n : Nat) : Option Park :=
  match agent with
  | .copyChannel => (chanOf s core n).park
  | .fibreStream => (fStream s core n).park
  | .spargeChannel => (rd s.sparge n {}).park

/-- An agent with its park changed. -/
def setPark (s : State) (core : Nat) (agent : Agent) (n : Nat) (p : Option Park) : State :=
  match agent with
  | .copyChannel => modChan s core n fun c => { c with park := p }
  | .fibreStream => modF s core n fun f => { f with park := p }
  | .spargeChannel => { s with sparge := wr s.sparge n { rd s.sparge n {} with park := p } }

/-- The bay that an agent acts in. -/
def agentBay (s : State) (core : Nat) (agent : Agent) (n : Nat) : Nat :=
  match agent with
  | .spargeChannel => (((rd s.sparge n {}).part.bind fun i => s.parts.find? (·.id == i)).map (·.bay)).getD 0
  | _ => s.bayOn core

/-- The number of an agent kind in a record. -/
def agentCode : Agent → Nat
  | .copyChannel => 0
  | .fibreStream => 1
  | .spargeChannel => 2

/-- A part is over: a linked part stands in its RUN as done, and a program that firmware started is gone. -/
def endPart (s : State) (p : Part) : State :=
  match p.run with
  | some _ => { s with parts := s.parts.map fun (x : Part) => if x.id = p.id then { x with done := true } else x }
  | none => { s with parts := s.parts.filter fun (x : Part) => x.id != p.id }

/-- A linked part of a RUN ends as faulted (R327, R369): it counts as a faulted task with index 0xFFFF, under the bay's policy, and
the record of its fault goes to the bay's log. A program that firmware started has no RUN to count in and no policy acts on it (DESIGN
CHOICE, see assumption 102). -/
def partFaulted (s : State) (part : Nat) (cause : BitVec 9) (addr : W64) : State :=
  match s.parts.find? (·.id == part) with
  | none => s
  | some p =>
    let record (step : Nat) : List W64 := eventWords s p.bay 0xFFFF step 9 cause 0 addr 0 0
    match p.run with
    | none => endPart (logRecord s p.bay (record 0)) p
    | some run =>
      let step := (((s.runAt run).bind fun r => s.graphAt r.graph).map (·.step)).getD 0
      let s := s.modRun run fun r =>
        { r with nFault := r.nFault + 1
                 fails := r.fails ++ [{ via := [], step := step, index := 0xFFFF, cause := cause, killed := false }] }
      applyPolicy (logRecord (endPart s p) p.bay (record step)) p.bay 0xFFFF step cause 9

/-- A Sparge channel stops and is free. -/
def freeSparge (s : State) (ch : Nat) : State := { s with sparge := wr s.sparge ch {} }

/-- A refusal applied to a parked agent: a channel stops and its task takes 0x0AF or 0x0B7, a fibre op stops with kind 7, and a
Sparge stream stops as a faulted part (R213, R246, R369). A fibre op whose core is stopping is tried again on resumption instead
(R247). -/
def refuseAgent (s : State) (core : Nat) (agent : Agent) (n : Nat) (cause : BitVec 9) (addr : W64) : State :=
  match agent with
  | .copyChannel => copyFault s core n 9 (if cause.toNat < 0x0B0 then 0x0AF else 0x0B7) addr (chanOf s core n).iter
  | .fibreStream => if (s.core core).stop.isSome then s else refuseFibre s core n addr
  | .spargeChannel =>
    let part := (rd s.sparge n {}).part
    let s := freeSparge s n
    match part with
    | some p => partFaulted s p 0x0AF addr
    | none => s

/-- The 32 bytes of a fault-queue record. -/
def fqRecord (s : State) (core : Nat) (agent : Agent) (n : Nat) (cause : BitVec 9) (addr detail : W64) (refused : Bool) (token : Nat) :
    List Byte :=
  let c := match agent with | .spargeChannel => 0x1FF | _ => core
  wordBytes [addr,
    w64 (agentBay s core agent n * 2 ^ 52 + c * 2 ^ 43 + agentCode agent * 2 ^ 40 + n % 32 * 2 ^ 35 + cause.toNat * 2 ^ 26 +
      (if refused then 2 ^ 25 else 0) + token),
    detail, w64 s.now]

/-- Appends a record to the host fault queue: the record first, then the count that covers it (R380). -/
def fqAppend (s : State) (core : Nat) (agent : Agent) (n : Nat) (cause : BitVec 9) (addr detail : W64) (refused : Bool) : State × Nat :=
  let q := s.fq
  let t := nextToken q
  let s := pocWrite s (bits q.w0 0 48 + 32 * (q.count % fqSize q)) (fqRecord s core agent n cause addr detail refused t)
  let s := pocWrite s (bits q.w1 6 42 * 64) (toBytes 8 (q.count + 1))
  let r : FqRec := { token := t, refused := refused, core := core, agent := agent, n := n }
  ({ s with fq := { q with count := q.count + 1, nextToken := (t + 1) % 2 ^ 25, open_ := q.open_ ++ [r] } }, t)

/-- REPLAYABLE_FAULT_PARK (R269, R380): a parked agent appends its record, or is refused at once; it stays parked without a record
while the ring is full of unanswered ones. -/
def execReplayableFaultPark (core : Nat) (agent : Agent) (n : Nat) (s : State) : Out :=
  match parkOf s core agent n with
  | some (.wanting cause addr detail rp) =>
    if !fqOn s.fq then .next (refuseAgent (setPark s core agent n none) core agent n cause addr)
    else if fqSize s.fq ≤ s.fq.open_.length then .next s
    else
      let (s, t) := fqAppend s core agent n cause addr detail (!rp)
      if rp then .next (setPark s core agent n (some (.token t cause addr)))
      else .next (refuseAgent (setPark s core agent n none) core agent n cause addr)
  | _ => .next s

/-- No fault is kept for the pages ahead of a core's agents: they are translated again when the cursor reaches them (R267). -/
def forgetAhead (s : State) (core : Nat) : State := s.modCore core fun c => { c with ahead := [] }

/-- The driver answers a token (R381): an unanswered record is answered, and its agent, if it still waits for it, replays or is
refused. A replayed access walks anew for every page it touches (R270, R313). -/
def verdict (s : State) (token : Nat) (replay : Bool) : State :=
  match s.fq.open_.find? (·.token == token) with
  | none => s
  | some r =>
    let s := { s with fq := { s.fq with open_ := s.fq.open_.filter (·.token != token) } }
    if r.refused then s
    else
      match parkOf s r.core r.agent r.n with
      | some (.token t cause addr) =>
        if t ≠ token then s
        else
          let s := setPark s r.core r.agent r.n none
          if replay then
            match r.agent with
            | .fibreStream => modF (forgetAhead s r.core) r.core r.n fun f => { f with parked := false }
            | .copyChannel => forgetAhead s r.core
            | .spargeChannel => s
          else refuseAgent s r.core r.agent r.n cause addr
      | _ => s

/-- FQ_VERDICT_REPLAY (R270, R381): the parked agent translates its access again. -/
def execFqVerdictReplay (token : Nat) (s : State) : Out := .next (verdict s token true)

/-- FQ_VERDICT_REFUSE (R381). -/
def execFqVerdictRefuse (token : Nat) (s : State) : Out := .next (verdict s token false)

/-- A write of HST_FQ: reserved bits read back as zero, and setting EN starts the count and the tokens at 0 (R380). While the queue is
enabled a write can only clear EN (assumption 79). -/
def writeFq (s : State) (w0 w1 : W64) : State :=
  if fqOn s.fq then (if bitAt w0 63 then s else { s with fq := { s.fq with w0 := setBit s.fq.w0 63 false } })
  else
    let q := { s.fq with w0 := w0 &&& 0x800FFFFFFFFFFFFF, w1 := w1 &&& 0x0000FFFFFFFFFFC0 }
    { s with fq := if bitAt w0 63 then { q with count := 0, nextToken := 0 } else q }

/-- FQ_ENABLE (R380). -/
def execFqEnable (w0 w1 : W64) (s : State) : Out := .next (if bitAt w0 63 then writeFq s w0 w1 else s)

/-! ### Page walks (R264) -/

/-- PAGE_WALK (R264, R266, R267): a walk for a core completes, and a translation it finds is held; a fault never is, but the one that a
copy channel or fibre stream meets on a page ahead of its cursor is kept for it. Space 0x0 alone is translated. -/
def execPageWalk (core : Nat) (va : W64) (s : State) : Out :=
  if va.toNat / 2 ^ 56 ≠ 0 then .next s
  else .next (streamsAhead (channelsAhead (translate s (some core) (s.bayOn core) va.toNat).1 core va.toNat) core va.toNat)

end Sys2Proof.Machine
end

