-- ==== Sys2Proof/Machine/Sched.lean ====
section
/-! DEFINITION. Dispatch, gang reservation, quanta, yielding, saving and restoring contexts, and a task's retirement (R291, R306,
R328 to R332). -/

namespace Sys2Proof.Machine

/-! ### Levels, holdings and readiness (R328, R331, R350) -/

/-- The boost of a bay: that of the highest boosted graph in it (R350). -/
def boostOf (s : State) (bay : Nat) : Nat :=
  (s.graphs.filter fun g => g.bay == bay && g.boosted && graphRuns g).foldl (fun m g => max m g.boost) 0

/-- A core is held by its task: not while the task is being saved or restored (R330). -/
def holdsCore (s : State) (n : Nat) : Bool :=
  !(s.core n).restoring && (s.taskOn n).any fun t => t.stat != .saving

/-- The cores that a bay holds. -/
def coresHeld (s : State) (bay : Nat) : Nat :=
  ((List.range 320).filter fun n => (s.core n).task.isSome && s.bayOn n == bay && holdsCore s n).length

/-- The condition that a yielded instruction waited for can be met (R331). -/
def canMeet (s : State) (t : Task) : Bool :=
  let queue (n : Nat) : TQueue := rd (((s.graphAt t.graph).map (·.queues)).getD (Vector.replicate 4 {})) n {}
  match t.waitFor with
  | some (.launchT _ _ _) => (freeEntry s (graphDie s t.graph) t.bay).isSome
  | some (.launchG _ _ _) => (freeEntry s (graphDie s t.graph) t.bay).isSome
  | some (.join _ _ _) => t.children.isEmpty || t.children.any fun c => c.how.isSome
  | some (.qpush _ n _ _) => let q := queue n.toNat; decide (q.q.length < 32 ∧ q.count = 0) || decide (q.count < 2 ^ q.rsize)
  | some (.qpop _ n _ _) => let q := queue n.toNat; !q.q.isEmpty || q.count != 0
  | _ => true

/-- A task is ready: released and not running; one that yielded a wait only when its condition can be met (R328, R331). -/
def isReady (s : State) (t : Task) : Bool :=
  match t.stat with
  | .ready => true
  | .saved _ waits => !waits || canMeet s t
  | _ => false

/-- The level of a bay (R328): 16 when it is owed a core. -/
def levelOf (s : State) (bay : Nat) : Nat :=
  let v := s.effNow bay
  if coresHeld s bay < v.cmin.toNat ∧ s.tasks.any fun t => t.bay == bay && isReady s t then 16
  else min 15 (v.prio.toNat + boostOf s bay)

/-- The cores a task needs. -/
def sizeOf_ (t : Task) : Nat := if t.gang then 4 else 1

/-! ### Where a task fits (R328, R329, R330) -/

/-- A reservation stands while its gang waits. -/
def standing (s : State) (r : Reservation) : Bool := (s.taskAt r.task).any fun t => isReady s t

/-- A core is free for a task: nobody holds it and no other gang has reserved it. -/
def freeFor (s : State) (task n : Nat) : Bool :=
  let c := s.core n
  rd s.powered (n / 160) false && !c.offline && c.task.isNone &&
    !(s.reservations.any fun r => r.task != task && decide (r.first ≤ n ∧ n < r.first + 4) && standing s r)

/-- The first cores of the halves of a die's clusters. -/
def halves (die : Nat) : List Nat := (List.range 40).map fun i => 160 * die + 4 * i

/-- The four cores of a half. -/
def halfOf (first : Nat) : List Nat := (List.range 4).map (first + ·)

/-- The cores of a die on which a ready task would be placed: those it left, its reserved half, or the lowest-numbered that fit. -/
def placeFor (s : State) (die : Nat) (t : Task) : Option (List Nat) :=
  let v := s.effNow t.bay
  let ok (n : Nat) : Bool := freeFor s t.id n && bitAt v.cores n
  let bound := match t.stat with | .saved .. => !t.cores.isEmpty | _ => false
  if bound then if t.cores.all fun n => n / 160 == die && ok n then some t.cores else none
  else if t.gang then
    match s.reservations.find? (·.task == t.id) with
    | some r => if r.die = die ∧ (halfOf r.first).all ok then some (halfOf r.first) else none
    | none => ((halves die).find? fun h => (halfOf h).all ok).map halfOf
  else (((List.range 160).map (160 * die + ·)).find? ok).map fun n => [n]

/-- `a` comes before `b` in a bay: the lower step, then the lower task index; of equals the older (R328). -/
def before (a b : Task) : Bool :=
  a.step < b.step || a.step == b.step && (a.index < b.index || a.index == b.index && a.id < b.id)

/-- The task of a bay that a die would place first, and where, while the bay holds fewer cores than its CMAX (R328; assumption 63). -/
def firstFit (s : State) (die : Nat) (bay : Nat) : Option (Task × List Nat) :=
  let held := coresHeld s bay
  let cmax := (s.effNow bay).cmax.toNat
  (s.tasks.filter fun t => t.bay == bay && isReady s t && decide (held < cmax)).foldl (fun best t =>
    match placeFor s die t with
    | none => best
    | some c =>
      match best with
      | some (b, _) => if before t b then some (t, c) else best
      | none => some (t, c)) none

/-- The bays of the highest level that has a task to place on a die, and that level. -/
def topBays (s : State) (die : Nat) : List Bay × Nat :=
  let bs := s.bays.filter fun b => (firstFit s die b.bay).isSome
  let top := bs.foldl (fun m b => max m (levelOf s b.bay)) 0
  (bs.filter fun b => levelOf s b.bay == top, top)

/-- The first bay with credit, searching upward from the one after `last`, wrapping at 4,096. -/
def nextBay (last : Nat) (bs : List Bay) : Option Bay :=
  let dist (b : Bay) : Nat := (b.bay + 8191 - last) % 4096
  (bs.filter fun b => b.credit != 0).foldl (fun best b =>
    match best with
    | some x => if dist b < dist x then some b else best
    | none => some b) none

/-! ### Placing a task (R72, R317, R330) -/

/-- A saved engine as it comes back: what was parked is translated again (R306). -/
def revive (e : Engine) : Engine :=
  { e with ch := e.ch.map fun c => { c with park := none }, f := e.f.map fun f => { f with park := none } }

/-- Puts a saved context back on a core, which restores it. The dictionary cache is empty then, as at a task's start (DESIGN CHOICE, see
assumption 100). -/
def restoreOn (s : State) (t : Task) (n : Nat) (x : Saved) : State :=
  let spns := (s.effNow t.bay).spns
  let s := if !spns || t.scratchLost then healScratch s n else s
  s.modCore n fun c =>
    { c with
      task := some t.id, e := revive x.e, dcache := [], dmiss := none, endStores := [], ahead := [], caskJob := none, restoring := true
      lastBay := some t.bay
      l1 := if c.l1Task = some t.id then c.l1 else []
      l1Task := some t.id
      scratch := if !spns then x.scratch else if t.scratchLost then [] else c.scratch
      stop := x.stop.map fun st => { st with why := .save false, reached := true }
      held := x.held, stopNext := none }

/-- Tasks of other bays saved on a core will find its scratchpad lost (R330). -/
def loseScratch (s : State) (bay : Nat) (cores : List Nat) : State :=
  { s with tasks := s.tasks.map fun (t : Task) =>
      match t.stat with
      | .saved .. => if t.bay != bay && t.cores.any (cores.contains ·) then { t with scratchLost := true } else t
      | _ => t }

/-- Places a task on cores: it starts there, or its context comes back (R72, R306, R317). -/
def placeTask (s : State) (t : Task) (cores : List Nat) : State :=
  let s := s.modBay t.bay fun b => { b with eff := s.effNow t.bay }
  let s := loseScratch s t.bay cores
  let s := { s with reservations := s.reservations.filter fun r => r.task != t.id }
  let run (t : Task) : Task := { t with stat := .running, cores := cores, quantumFrom := s.now, waitFor := none, scratchLost := false }
  if t.saved.isEmpty then
    let t' := { run t with trets := [], ownLoft := false }
    let s := s.modTask t.id fun _ => t'
    digestKernel (cores.foldl (fun s n => startOn s t' n) s) t'
  else
    let s := s.modTask t.id run
    (cores.zip t.saved).foldl (fun s p => restoreOn s t p.1 p.2) s

/-- What a die's dispatcher does: the bay and task it chooses, with the credits and the bay last served (R328). -/
def dispatchOne (s : State) (die : Nat) : Option State :=
  let (bs, lev) := topBays s die
  if bs.isEmpty then none
  else
    let fresh := bs.all fun b => b.credit == 0
    let s := if fresh then bs.foldl (fun s b => s.modBay b.bay fun x => { x with credit := (s.effNow b.bay).weight.toNat }) s else s
    match nextBay (rd s.lastServed lev 0) (s.bays.filter fun b => bs.any (·.bay == b.bay)) with
    | none => none
    | some b =>
      match firstFit s die b.bay with
      | none => none
      | some (t, cores) =>
        let s := s.modBay b.bay fun x => { x with credit := x.credit - 1 }
        some (placeTask { s with lastServed := wr s.lastServed lev b.bay } t cores)

/-- DISPATCH (R328): a die places at most one task a cycle of its clock (R5); die 0 chooses first. A package that is to power down places
none (R395). -/
def execDispatch (die : Nat) (s : State) : Out :=
  let due (d : Nat) : Bool := decide (d < 2) && decide (rd s.placed d 0 ≤ s.now) && rd s.clockEdge d true
  if s.shutdown.isSome || !due die || (die == 1 && due 0 && (dispatchOne s 0).isSome) then .next s
  else
    match dispatchOne s die with
    | none => .next s
    | some s' => .next { s' with placed := wr s'.placed die (s.now + 1) }

/-- The half that an aged gang reserves: of those in its bay's set that no gang has reserved, the one with the most free cores, the lowest
of equals; one bound to its cores waits for these. -/
def bestHalf (s : State) (t : Task) : Option Nat :=
  let v := s.effNow t.bay
  let bound := match t.stat with | .saved .. => !t.cores.isEmpty | _ => false
  let open_ := (halves 0 ++ halves 1).filter fun h =>
    (halfOf h).all (fun n => bitAt v.cores n && !(s.core n).offline) && !(s.reservations.any (·.first == h)) &&
      (!bound || t.cores == halfOf h)
  let frees (h : Nat) : Nat := ((halfOf h).filter (freeFor s t.id)).length
  open_.foldl (fun (m : Option Nat) h => match m with
    | some x => if frees x < frees h then some h else m
    | none => some h) none

/-- GANG_RESERVE (R329): an aged gang that fits on neither die reserves the best half, when it lies on this die and fewer than 8
reservations stand there. -/
def execGangReserve (die task : Nat) (s : State) : Out :=
  let s := { s with reservations := s.reservations.filter (standing s) }
  match s.taskAt task with
  | none => .next s
  | some t =>
    let waits := t.gang && isReady s t && decide (t.readySince + s.regs.dspAge ≤ s.now) && (placeFor s 0 t).isNone && (placeFor s 1 t).isNone &&
      !(s.reservations.any (·.task == task)) && decide ((s.reservations.filter (·.die == die)).length < 8)
    match (if waits then bestHalf s t else none) with
    | none => .next s
    | some h =>
      if h / 160 ≠ die then .next s
      else .next { s with reservations := s.reservations ++ [{ die := die, task := task, first := h }] }

/-! ### Pre-emption (R330, R331, R332) -/

/-- The lowest core of a task: the one that its events name. -/
def leadCore (t : Task) (n : Nat) : Bool := t.cores.foldl min n == n

/-- Save slots in use or asked for in the save area of a bay. -/
def slotsUsed (s : State) (bay : Nat) : List Nat × Nat :=
  let area := (s.eff bay).savebase
  let here := s.tasks.filter fun t => (s.eff t.bay).savebase == area
  (here.flatMap fun t => match t.stat with | .saved l _ => l | _ => [],
   ((here.filter fun t => t.stat == .saving || t.stat == .running && t.cores.any fun n =>
      let c := s.core n
      !c.restoring && ((match c.stop with | some st => (match st.why with | .save _ => true | _ => false) | none => false) ||
        (match c.stopNext with | some (.save _) => true | _ => false))).map sizeOf_).sum)

/-- `k` free save slots of a bay, lowest first; `asked` more are spoken for. -/
def freeSlots (s : State) (bay k asked : Nat) : Option (List Nat) :=
  let used := (slotsUsed s bay).1
  let n := (s.eff bay).savecnt.toNat
  let free := ((List.range (used.length + k + asked)).filter fun i => decide (i < n) && !used.contains i)
  if k + asked ≤ free.length then some (free.take k) else none

/-- A ready task of equal or higher level could be placed on a core of a running task, were that to leave its cores (R330). -/
def rival (s : State) (t : Task) : Bool :=
  let free := t.cores.foldl (fun s n => s.modCore n fun c => { c with task := none }) s
  let lev := levelOf s t.bay
  s.tasks.any fun u =>
    u.id != t.id && isReady s u && decide (lev ≤ levelOf s u.bay) &&
      decide (coresHeld free u.bay < (s.effNow u.bay).cmax.toNat) &&
      t.cores.any fun n =>
        -- were this core the only one left free of those the rival does not need, it would be placed there
        let v := s.effNow u.bay
        let ok (m : Nat) : Bool := freeFor free u.id m && bitAt v.cores m
        let bound := match u.stat with | .saved .. => !u.cores.isEmpty | _ => false
        if bound then u.cores.contains n && u.cores.all ok
        else if u.gang then (halfOf (n / 4 * 4)).all ok
        else ok n

/-- The cores of a task may be asked to stop for pre-emption: none is being stopped for it already. -/
def mayPreempt (s : State) (t : Task) : Bool :=
  t.stat == .running && t.cores.all fun n =>
    let c := s.core n
    !c.restoring && c.stopNext.isNone && match c.stop with | none => true | some st => st.why == .fault

/-- Pre-empts a task: every core of it stops, to be saved (R306, R332). `yields` is the core whose generator gives up its wait. -/
def preempt (s : State) (t : Task) (yields : Option Nat) : State :=
  t.cores.foldl (fun s n => requestStop s n (.save (yields == some n))) s

/-- The bay of a task has save slots for it. -/
def slotsLeft (s : State) (t : Task) : Bool := (freeSlots s t.bay (sizeOf_ t) (slotsUsed s t.bay).2).isSome

/-- QUANTUM_EXPIRY (R330): the quantum has ended; the task is pre-empted if a rival could take its core and save slots are free, and
else its quantum starts again. -/
def execQuantumExpiry (core : Nat) (s : State) : Out :=
  match s.taskOn core with
  | none => .next s
  | some t =>
    let q := (s.eff t.bay).quantum.toNat * 1024
    if q = 0 || !leadCore t core || !mayPreempt s t || decide (s.now < t.quantumFrom + q) then .next s
    else if rival s t && slotsLeft s t then .next (preempt s t none)
    else .next (s.modTask t.id fun t => { t with quantumFrom := s.now })

/-- An instruction whose wait may give up the core (R331). -/
def yieldable (i : Instr) : Bool :=
  match i with
  | .launchT _ _ _ => true
  | .launchG _ _ _ => true
  | .join _ _ _ => true
  | .qpush _ _ _ _ => true
  | .qpop _ _ _ _ => true
  | _ => false

/-- YIELD_THRESHOLD_EXPIRY (R331). -/
def execYieldThresholdExpiry (core : Nat) (s : State) : Out :=
  match s.taskOn core, (s.core core).e.user.wait with
  | some t, some w =>
    let y := (s.eff t.bay).yield.toNat * 1024
    if y = 0 || !yieldable w.instr || decide (s.now ≤ w.since + y) || !mayPreempt s t || !coreRuns s core .user || !slotsLeft s t then .next s
    else .next (preempt s t (some core))
  | _, _ => .next s

/-- GYIELD (R137, R331): the task is pre-empted at the next bundle boundary, as at quantum end, when another would take its core. -/
def execGyield (s : State) : Out :=
  genIssue s [] false fun s =>
    let after := match s.taskOn s.cur.core with
      | some t => if mayPreempt s t && rival s t && slotsLeft s t then preempt s t none else s
      | none => s
    .next (genDone s after 4)

/-! ### Saving, restoring and leaving (R291, R306, R401) -/

/-- Nothing of a core's task is on its way: counted accesses, replies to its generator, background work, copies. -/
def settled (c : Core) : Bool :=
  c.e.cL == 0 && c.e.cS == 0 && c.e.xacc.isEmpty && c.e.bg.isEmpty && c.e.user.loads.isEmpty &&
    c.e.ch.toArray.toList.all fun x => x.copies.isEmpty

/-- A core without its task; its dictionary cache is empty (DESIGN CHOICE, see assumption 100). -/
def vacate (s : State) (n : Nat) : State :=
  (healStores s n).modCore n fun c =>
    { c with task := none, e := {}, dcache := [], dmiss := none, endStores := [], ahead := [], caskJob := none, stop := none, held := [],
             stopNext := none, restoring := false, scratch := c.endStores.foldl (fun m p => memSet m p.1 p.2) c.scratch }

/-- What firmware saves of a core (R306, R401); a bundle that the expander was reading goes back to the emit queue. -/
def savedOf (s : State) (bay n : Nat) : Saved :=
  let c := s.core n
  let line := match (agentRead s (firmware bay 5) (recordLine s bay n) 64 64).2 with | .inl b => b | .inr _ => []
  { e := { c.e with emitQ := (match c.dmiss with | some d => [d.entry] | none => []) ++ c.e.emitQ }
    scratch := c.endStores.foldl (fun m p => memSet m p.1 p.2) c.scratch, line := line, stop := c.stop, held := c.held }

/-- The bytes of save slots once firmware has saved contexts in them: their layout is left open (R330; assumption 54). -/
def spoilSlots (s : State) (bay : Nat) (slots : List Nat) : State :=
  let base := (s.eff bay).savebase.toNat
  let pages := slots.flatMap fun k => (List.range 512).filterMap fun i =>
    let va := base + 2 ^ 21 * k + 4096 * i
    match walk s bay va with
    | .leaf t => some (t.pa + (va - t.va))
    | .notMapped _ => none
  let held (l : L2Line) : Bool := pages.any fun p => decide (p ≤ l.pa * 128 ∧ l.pa * 128 < p + 4096)
  let spoilt (x : Option Sector) : Option Sector := x.map fun x => { x with dirty := true }
  { s with
    fresh := s.fresh + 1
    mem := pages.foldl (fun m p => memWrite m p ((List.range 4096).map fun i => Config.savedByte s.fresh (p + i))) s.mem
    l2 := s.l2.map fun l => if held l then { l with lo := spoilt l.lo, hi := spoilt l.hi } else l }

/-- CONTEXT_SAVE_COMPLETE (R306, R330, R332): the cores of a task stand still and its counted work has ended; its dirty lines are
written back, its contexts go to the lowest free save slots, and it becomes ready, bound to its cores. A task whose core has gone offline
is bound to no core, and is killed where it has accessed its own Loft since it started (R391). -/
def execContextSaveComplete (core : Nat) (s : State) : Out :=
  match s.taskOn core with
  | none => .next s
  | some t =>
    let still := t.cores.all fun n =>
      let c := s.core n
      settled c && c.stopNext.isNone && match c.stop with | some st => st.reached && (match st.why with | .save _ => true | _ => false) | none => false
    let offline := t.cores.any fun n => (s.core n).offline
    if t.stat != .saving || !leadCore t core || !still then .next s
    else if offline && t.ownLoft then .next (s.modTask t.id fun t => { t with stat := .retiring (.ends .killed) })
    else
      match freeSlots s t.bay t.cores.length 0 with
      | none => .next s
      | some slots =>
        let cores := t.cores
        let s := cores.foldl (fun s n => cleanAll s n) s
        let saved := cores.map (savedOf s t.bay)
        let s := (spoilSlots s t.bay slots).modTask t.id fun t =>
          { t with stat := .saved slots t.waitFor.isSome, saved := saved, scratchLost := false, readySince := s.now
                   cores := if offline then [] else t.cores }
        .next (cores.foldl vacate s)

/-- Writes a saved fault-record line back (R401). -/
def restoreLine (s : State) (bay n : Nat) (line : List Byte) : State :=
  if line.isEmpty then s else (agentWrite s (firmware bay 6) (recordLine s bay n) 64 line).1

/-- A restored core goes on: in handler mode where it was in it, else from its recorded positions (R299, R304). -/
def resumeCore (s : State) (n : Nat) : State :=
  let s := s.modCore n fun c => { c with restoring := false }
  if (s.core n).stopNext.isSome then s
  else if (s.core n).e.user.handler then
    s.modCore n fun c => { c with stop := c.stop.map fun st => { st with why := .fault } }
  else resumeOrNext s n

/-- CONTEXT_RESTORE_COMPLETE (R306, R330, R332): the contexts of a task are back on its cores, which resume together. -/
def execContextRestoreComplete (core : Nat) (s : State) : Out :=
  match s.taskOn core with
  | none => .next s
  | some t =>
    if t.stat != .running || !leadCore t core || !(t.cores.all fun n => (s.core n).restoring) then .next s
    else
      let s := (t.cores.zip t.saved).foldl (fun s p => restoreLine s t.bay p.1 p.2.line) s
      let s := s.modTask t.id fun t => { t with saved := [], quantumFrom := s.now }
      .next (t.cores.foldl resumeCore s)

/-- A PUBLISH of a core has not completed. -/
def publishWaits (c : Core) : Bool :=
  c.e.xrun.toArray.toList.any fun r => match r with | some r => (match r.instr with | .publish _ => true | _ => false) | none => false

/-- TASK_RETIRE (R291, R335): the work of a retiring task has ended on all its cores; its lines are written back, its L1s are empty,
and it leaves them: as ended, as ready again, or as awaiting commit in a deterministic bay. -/
def execTaskRetire (core : Nat) (s : State) : Out :=
  match s.taskOn core with
  | none => .next s
  | some t =>
    match t.stat with
    | .retiring how =>
      let still := t.cores.all fun n =>
        let c := s.core n
        settled c && !publishWaits c && match c.stop with | some st => st.reached | none => true
      let how : Leave := match how with
        -- an aborted task runs again, however its run has ended (R337)
        | Leave.ends e => if t.aborted ∧ e ≠ End.killed then Leave.again else how
        | _ => how
      if !leadCore t core || !still then .next s
      else
        let s := t.cores.foldl (fun s n => (cleanAll s n).modCore n fun c => { c with l1 := [], l1Task := none }) s
        let s := t.cores.foldl vacate s
        match how with
        | .ends e =>
          if (s.eff t.bay).det && e != .killed then
            .next (s.modTask t.id fun t =>
              let t := { t with stat := .done e }
              -- what it has read can still abort it (R337)
              match e with | .faulted _ => { t with shadow := [], fadds := [], cask := [] } | _ => t)
          else .next (leave s t.id how)
        | _ => .next (leave s t.id how)
    | _ => .next s

end Sys2Proof.Machine
end

