-- ==== Sys2Proof/Machine/Mash.lean ====
section
/-! DEFINITION. The Mash sequencer: assignment, graph acceptance, the step loop, ends of tasks, stage deadlines, checkpoints and
re-runs (R339 to R353, R364), and commit in deterministic bays (R335 to R338). -/

namespace Sys2Proof.Machine

/-! ### Firmware copies (R322, R351, R399) -/

/-- A firmware copy of 64 bytes in a bay's address space: translated, not checked by the access tables, and delivered at system scope
(R322, R351, R370). -/
def fwBlock (s : State) (bay : Nat) (src dst : W64) : State × Option (BitVec 9 × W64) :=
  match agentRead s (firmware bay 5) src 64 1 with
  | (s, .inr e) => (s, some (e.cause, e.addr))
  | (s, .inl b) =>
    match agentWrite s { firmware bay 6 with sys := true } dst 1 b with
    | (s, some e) => (s, some (e.cause, e.addr))
    | (s, none) => (s, none)

/-- A firmware copy of some 64-byte blocks, in order, up to the first fault. -/
def fwCopy (s : State) (bay : Nat) (src dst : W64) : Nat → State × Option (BitVec 9 × W64)
  | 0 => (s, none)
  | n + 1 =>
    match fwBlock s bay src dst with
    | (s, some f) => (s, some f)
    | (s, none) => fwCopy s bay (src + 64) (dst + 64) n

/-! ### Sequencers (R339, R348) -/

/-- The die that holds more cores of a set; die 0 on a tie. -/
def homeDie (cores : BitVec 320) : Nat :=
  let count (d : Nat) : Nat := ((List.range 160).filter fun i => bitAt cores (160 * d + i)).length
  if count 0 < count 1 then 1 else 0

/-- The lowest-numbered free sequencer of a die on which the bay's reserve fits. -/
def freeSeq (s : State) (bay die : Nat) : Option Nat :=
  let more := if bayRunsOn s die bay then 0 else (s.effNow bay).lres.toNat
  if 256 < reserveSum s die + more then none
  else ((List.range 16).map (16 * die + ·)).find? fun n => (rd s.seqs n none).isNone

/-! ### Acceptance (R340, R341, R342, R351) -/

/-- Reads bytes for a sequencer. -/
def seqRead (s : State) (bay : Nat) (va : W64) (n align : Nat) : State × Option (List Byte) :=
  match agentRead s (device bay 5) va n align with
  | (s, .inl b) => (s, some b)
  | (s, .inr _) => (s, none)

/-- 64-bit words of bytes. -/
def wordsOf (b : List Byte) (n : Nat) : List W64 := (List.range n).map fun i => w64 (ofBytes ((b.drop (8 * i)).take 8))

/-- Word `i` of a list. -/
def wordAt (ws : List W64) (i : Nat) : W64 := (ws[i]?).getD 0

/-- A descriptor breaks R340. -/
def descBad (d : List W64) : Bool :=
  let w (i : Nat) : Nat := (wordAt d i).toNat
  bits (wordAt d 0) 38 26 != 0 || decide (bits (wordAt d 0) 0 16 = 0 ∨ 4096 < bits (wordAt d 0) 0 16) || bits (wordAt d 0) 16 16 == 0 ||
    w 1 % 64 != 0 || w 2 % 128 != 0 || w 3 % 32 != 0 || w 4 % 32 != 0 || bits (wordAt d 5) 8 56 != 0 ||
    decide (64 < bits (wordAt d 5) 0 8) || w 7 % 8 != 0

/-- The task records' first words and their successor list addresses; none when one is unreadable or breaks R341. -/
def readRecords (s : State) (bay : Nat) (tasks : W64) : List Nat → State × Option (List (W64 × W64))
  | [] => (s, some [])
  | i :: r =>
    match seqRead s bay (tasks + w64 (64 * i)) 64 64 with
    | (s, none) => (s, none)
    | (s, some b) =>
      if recordBad (recordOf b) (some i) then (s, none)
      else
        match readRecords s bay tasks r with
        | (s, some l) => (s, some ((recWord (recordOf b) 0, recWord (recordOf b) 3) :: l))
        | (s, none) => (s, none)

/-- A task's successor list; none when it is unreadable or its count is above 4,095. -/
def readSucc (s : State) (bay : Nat) (va : W64) : State × Option (List Nat) :=
  if va = 0 then (s, some [])
  else
    match seqRead s bay va 2 2 with
    | (s, none) => (s, none)
    | (s, some b) =>
      let m := ofBytes b
      if 4095 < m then (s, none)
      else if m = 0 then (s, some [])
      else
        match seqRead s bay (va + 2) (2 * m) 2 with
        | (s, none) => (s, none)
        | (s, some c) => (s, some ((List.range m).map fun k => ofBytes ((c.drop (2 * k)).take 2)))

/-- Every successor list. -/
def readSuccs (s : State) (bay : Nat) : List W64 → State × Option (List (List Nat))
  | [] => (s, some [])
  | va :: r =>
    match readSucc s bay va with
    | (s, none) => (s, none)
    | (s, some l) =>
      match readSuccs s bay r with
      | (s, some ls) => (s, some (l :: ls))
      | (s, none) => (s, none)

/-- Tasks that still have a predecessor among the living, after `k` rounds. -/
def prune (succ : List (List Nat)) : Nat → List Nat → List Nat
  | 0, l => l
  | k + 1, l => prune succ k (l.filter fun j => l.any fun i => ((succ[i]?).getD []).contains j)

/-- The successor lists break R342. -/
def succBad (n : Nat) (succ : List (List Nat)) : Bool :=
  (succ.zipIdx.any fun p => p.1.any (fun j => decide (n ≤ j) || j == p.2) || !decide p.1.Nodup) ||
    decide (16384 < (succ.map List.length).sum) || !(prune succ n (List.range n)).isEmpty

/-- The rings of the ring table (R340); none when it is unreadable or breaks it. -/
def readRings (s : State) (bay : Nat) (qtab : W64) : State × Option (Vector TQueue 4) :=
  if qtab = 0 then (s, some (Vector.replicate 4 {}))
  else
    match seqRead s bay qtab 32 8 with
    | (s, none) => (s, none)
    | (s, some b) =>
      let ws := wordsOf b 4
      if ws.any fun w => bits w 56 8 != 0 || decide (20 < bits w 0 6) then (s, none)
      else
        let ring (w : W64) : TQueue := { base := w64 (bits w 6 50 * 64), rsize := bits w 0 6 }
        (s, some (Vector.ofFn fun i => ring (wordAt ws i.val)))

/-- A checkpoint entry breaks R351: its source in space 0x0 or in the Loft of a core of the bay's set, both ends mapped. -/
def ckptBad (s : State) (bay : Nat) (ws : List W64) : Bool :=
  let src := wordAt ws 0
  let dst := wordAt ws 1
  let len := (wordAt ws 2).toNat
  let sp := src.toNat / 2 ^ 60
  let maps (va : W64) (kind : Nat) : Bool := match (access s (device bay kind) va len 1 .uc).2 with | .ok _ => true | .bad _ => false
  !(sp == 0 || sp == 3 && bitAt (s.effNow bay).cores (src.toNat / 2 ^ 32 % 2 ^ 9)) || dst.toNat / 2 ^ 60 != 0 ||
    len == 0 || len % 64 != 0 || wordAt ws 3 != 0 || !maps src 5

/-- The checkpoint list. -/
def readCkpts (s : State) (bay : Nat) (va : W64) (n : Nat) : State × Option (List Ckpt) :=
  if n = 0 then (s, some [])
  else
    match seqRead s bay va (32 * n) 32 with
    | (s, none) => (s, none)
    | (s, some b) =>
      let es := (List.range n).map fun i => wordsOf (b.drop (32 * i)) 4
      if es.any (ckptBad s bay) then (s, none)
      else (s, some (es.map fun ws => { src := wordAt ws 0, dst := wordAt ws 1, len := (wordAt ws 2).toNat }))

/-- The graph as accepted, from its descriptor and what acceptance read. -/
def acceptedGraph (g : Graph) (d : List W64) (recs : List (W64 × W64)) (succ : List (List Nat)) (rings : Vector TQueue 4)
    (ckpts : List Ckpt) : Graph :=
  let w0 := wordAt d 0
  let n := bits w0 0 16
  { g with
    words := d, stat := .betweenSteps, ntask := n, nstep := bits w0 16 16, boost := bits w0 32 4, haltf := bitAt w0 36
    cken := bitAt w0 37, tasksAddr := wordAt d 1, sched := wordAt d 2, rrbase := wordAt d 3
    dl := Vector.ofFn fun k => BitVec.ofNat 32 (bits (wordAt d (8 + k.val / 2)) (32 * (k.val % 2)) 32)
    ckpts := ckpts, succ := succ, npred := (List.range n).map fun j => (succ.filter (·.contains j)).length
    w0s := recs.map (·.1), queues := rings, step := 0 }

/-- What acceptance answers: the graph as accepted, or none when it is refused (R340, R342). -/
def acceptGraph (s : State) (g : Graph) : State × Option Graph :=
  let (s, d) := if g.desc.toNat / 2 ^ 60 ≠ 0 then (s, none)
    else if g.words.isEmpty then
      (match seqRead s g.bay g.desc 128 64 with | (s, some b) => (s, some (wordsOf b 16)) | (s, none) => (s, none))
    else (s, some g.words)
  match d with
  | none => (s, none)
  | some d =>
    if descBad d then (s, none)
    else
      let n := bits (wordAt d 0) 0 16
      match readRecords s g.bay (wordAt d 1) (List.range n) with
      | (s, none) => (s, none)
      | (s, some recs) =>
        match readSuccs s g.bay (recs.map (·.2)) with
        | (s, none) => (s, none)
        | (s, some succ) =>
          if succBad n succ then (s, none)
          else
            match readRings s g.bay (wordAt d 7) with
            | (s, none) => (s, none)
            | (s, some rings) =>
              match readCkpts s g.bay (wordAt d 4) (bits (wordAt d 5) 0 8) with
              | (s, none) => (s, none)
              | (s, some cks) => (s, some (acceptedGraph g d recs succ rings cks))

/-! ### Ends (R323, R343, R345, R349) -/

/-- A graph and the graphs above it. -/
def graphChain (s : State) : Nat → Nat → List Nat
  | 0, _ => []
  | fuel + 1, id =>
    match s.graphAt id with
    | some g => id :: match g.parent with | some p => graphChain s fuel p.1 | none => []
    | none => []

/-- The graphs above and including one. -/
def chainOf (s : State) (id : Nat) : List Nat := graphChain s (s.graphs.length + 1) id

/-- Counts an end: retired, skipped, faulted, killed. -/
def addEnd (how : End) (c : Nat × Nat × Nat × Nat) : Nat × Nat × Nat × Nat :=
  match how with
  | .retired _ => (c.1 + 1, c.2)
  | .skippedPublish => (c.1, c.2.1 + 1, c.2.2)
  | .skippedCopy => (c.1, c.2.1 + 1, c.2.2)
  | .faulted _ => (c.1, c.2.1, c.2.2.1 + 1, c.2.2.2)
  | .killed => (c.1, c.2.1, c.2.2.1, c.2.2.2 + 1)
  | .absent => c

/-- The ends of a graph. -/
def graphEnds (g : Graph) : Nat × Nat × Nat × Nat := (g.nRet, g.nSkip, g.nFault, g.nKill)

/-- The graph with other ends. -/
def setEnds (g : Graph) (c : Nat × Nat × Nat × Nat) : Graph := { g with nRet := c.1, nSkip := c.2.1, nFault := c.2.2.1, nKill := c.2.2.2 }

/-- The RUN with other ends. -/
def setRunEnds (r : Run) (c : Nat × Nat × Nat × Nat) : Run := { r with nRet := c.1, nSkip := c.2.1, nFault := c.2.2.1, nKill := c.2.2.2 }

/-- Counts an end of a graph in that graph, those above it and its RUN (R345). A deadline handler's end belongs to no attempt of a step
(R350, R352). -/
def countEnd (s : State) (run graph step index : Nat) (how : End) (handler : Bool) : State :=
  let up := chainOf s graph
  let more (g : Graph) : Graph :=
    let g := setEnds g (addEnd how (graphEnds g))
    let g := if handler then { g with base := addEnd how g.base } else g
    match how, g.firstCause with
    | .faulted c, none => { g with firstCause := some c }
    | _, _ => g
  let s := { s with graphs := s.graphs.map fun (g : Graph) => if up.contains g.id then more g else g }
  s.modRun run fun r =>
    let r := setRunEnds r (addEnd how (r.nRet, r.nSkip, r.nFault, r.nKill))
    match how with
    | .faulted c => { r with fails := r.fails ++ [{ via := up, step := step, index := index, cause := c, killed := false, handler := handler, mark := s.fresh }] }
    | .killed => { r with fails := r.fails ++ [{ via := up, step := step, index := index, cause := 0, killed := true, handler := handler, mark := s.fresh }] }
    | _ => r

/-- A graph's step loop has ended: its sequencer is free, its queues are gone, its Cask entries are invalidated (R354), and its
parent's child set holds its end. -/
def finishGraph (s : State) (id : Nat) : State :=
  match s.graphAt id with
  | none => s
  | some g =>
    let s := match g.seq with | some n => { s with seqs := wr s.seqs n none } | none => s
    let s := invalidate s fun e => e.graph == id
    match g.parent with
    | some (_, t, o) => childEnded { s with graphs := s.graphs.filter fun x => x.id != id } t o (graphEnd g)
    | none => s.modGraph id fun g => { g with stat := .ended, seq := none, queues := Vector.replicate 4 {}, boosted := false }

/-- SEQUENCER_ASSIGN (R339, R348): a waiting RUN takes a sequencer of its die, a child graph one of its parent's die or else of the
other. -/
def execSequencerAssign (graph : Nat) (s : State) : Out :=
  match s.graphAt graph with
  | none => .next s
  | some g =>
    if g.stat != .waiting then .next s
    else if g.killed then .next (finishGraph s graph)
    else
      let dies := match g.parent with
        | some _ => [g.die, 1 - g.die]
        | none => [homeDie (s.effNow g.bay).cores]
      match dies.findSome? (freeSeq s g.bay) with
      | none => .next s
      | some n =>
        .next ({ s with seqs := wr s.seqs n (some graph) }.modGraph graph fun g =>
          { g with seq := some n, die := n / 16, stat := .assigned })

/-- A graph is refused at acceptance: its RUN completes with status 0x10 and its bay takes back what it had (R323), or its parent counts it
as faulted with 0x121 (R342, R349). -/
def refuseGraph (s : State) (g : Graph) : State :=
  let s := match g.seq with | some n => { s with seqs := wr s.seqs n none } | none => s
  let s := { s with graphs := s.graphs.filter fun x => x.id != g.id }
  match g.parent with
  | some (_, t, o) => childEnded s t o (.faulted 0x121)
  | none =>
    match s.runAt g.run with
    | none => s
    | some r =>
      let s := match r.before with
        | some x => s.modBay r.bay fun b => { b with eff := x.1, phase0 := x.2 }
        | none => s
      { s with
        runs := s.runs.filter fun (x : Run) => x.id != r.id
        parts := s.parts.filter fun (p : Part) => p.run != some r.id
        packets := s.packets.map fun (p : Packet) => if p.id = r.packet then { p with done := some (0x10, 0xFFFF) } else p }

/-- GRAPH_ACCEPT (R342): the sequencer reads and checks the graph and keeps its lists, or refuses it. -/
def execGraphAccept (graph : Nat) (s : State) : Out :=
  match s.graphAt graph with
  | none => .next s
  | some g =>
    if g.stat != .assigned then .next s
    else if g.killed then .next (finishGraph s graph)
    else
      match acceptGraph s g with
      | (s, none) => .next (refuseGraph s g)
      | (s, some g') => .next (s.modGraph graph fun _ => g')

/-! ### The step loop (R343, R344, R345) -/

/-- Element `i` of a list replaced. -/
def setAt {α : Type} (l : List α) (i : Nat) (x : α) : List α := l.set i x

/-- An end as a task of a deterministic bay reaches it: it awaits its turn in commit order (R335). -/
def endStat (det : Bool) (how : End) : TStat := if det then .done how else .ended how

/-- Task `i` of a graph becomes ready: its record is read again; a bad record ends it as faulted with 0x120 (R342, R343). -/
def makeReady (s : State) (graph i : Nat) : State :=
  match s.graphAt graph with
  | none => s
  | some g =>
    let va := g.tasksAddr + w64 (64 * i)
    let (s, b) := seqRead s g.bay va 64 64
    let rec_ := match b with
      | some b => if recordBad (recordOf b) (some i) then none else some (recordOf b)
      | none => none
    let (id, s) := s.bump
    let seed := ((s.runAt g.run).map (·.seed)).getD 0
    let t : Task :=
      { id := id, bay := g.bay, graph := graph, run := g.run, kind := .graph, index := i, step := g.step, recAddr := va, seed := seed,
        ms := g.ms, readySince := s.now, ofHandler := g.ofHandler }
    match rec_ with
    | some r =>
      let t := { t with rec_ := r, gang := bits (recWord r 0) 22 2 == 3 }
      { s with tasks := s.tasks ++ [t] }
    | none =>
      let w0 := (g.w0s[i]?).getD (w64 i)
      let t := { t with rec_ := wr (Vector.replicate 8 0) 0 w0, stat := endStat (s.eff g.bay).det (.faulted 0x120) }
      taskFaulted { s with tasks := s.tasks ++ [t] } t 0x120 (eventWords s g.bay i g.step 12 0x120 0 va 0 0)

/-- Releases task `i` of a graph, at most once in a step (R343). -/
def release (s : State) (graph i : Nat) : State :=
  match s.graphAt graph with
  | none => s
  | some g =>
    if (g.released[i]?).getD true then s
    else makeReady (s.modGraph graph fun g => { g with released := setAt g.released i true }) graph i

/-- Lowers the counts of a task's successors, and releases those that reach 0. -/
def dropCounts (s : State) (graph i : Nat) : State :=
  match s.graphAt graph with
  | none => s
  | some g =>
    ((g.succ[i]?).getD []).foldl (fun s j =>
      let s := s.modGraph graph fun g => { g with cnt := setAt g.cnt j ((g.cnt[j]?).getD 0 - 1) }
      match s.graphAt graph with
      | some g => if (g.cnt[j]?).getD 0 = 0 ∧ !g.killed then release s graph j else s
      | none => s) s

/-- The END code, cause and return code of a retire record (R345). -/
def endCode : End → Nat × Nat × Nat
  | .retired c => (0, 0, c.toNat)
  | .skippedPublish => (1, 0, 0)
  | .skippedCopy => (2, 0, 0)
  | .faulted c => (3, c.toNat, 0)
  | .killed => (4, 0, 0)
  | .absent => (5, 0, 0)

/-- Writes the retire record of task `i` (R345); a write that faults is dropped and logged. -/
def writeRetire (s : State) (g : Graph) (i core openKids : Nat) (how : End) : State :=
  if g.rrbase = 0 then s
  else
    let (e, cause, code) := endCode how
    let w0 := w64 (core % 512 * 2 ^ 52 + cause * 2 ^ 43 + e * 2 ^ 40 + code * 2 ^ 32 + g.step % 65536 * 2 ^ 16 + i)
    match agentWrite s (device g.bay 6) (g.rrbase + w64 (32 * i)) 32 (wordBytes [w0, w64 s.now, w64 openKids, 0]) with
    | (s, none) => s
    | (s, some x) => logEvent s g.bay i g.step 12 x.cause 0 x.addr 0 0

/-- A graph task has ended in a step: retire record, then successors (R343), whose counts an end after a re-run does not lower again
(R390). -/
def endTask (s : State) (graph i core openKids : Nat) (how : End) : State :=
  match s.graphAt graph with
  | none => s
  | some g =>
    let s := s.modGraph graph fun g => { g with ended := setAt g.ended i true, lowered := if g.lowered.contains i then g.lowered else i :: g.lowered }
    let s := writeRetire s g i core openKids how
    if g.lowered.contains i then s else dropCounts s graph i

/-- The core on which a task ended: the lowest of a gang's; 0x1FF when it was never placed. -/
def endCore (t : Task) : Nat :=
  match t.cores with
  | [] => 0x1FF
  | a :: r => r.foldl min a

/-- TASK_END (R343, R345, R349): the sequencer records an end: the counts, the retire record with the children still in the child set,
the parent's child set, and the successors. -/
def execTaskEnd (task : Nat) (s : State) : Out :=
  match s.taskAt task with
  | none => .next s
  | some t =>
    match t.stat with
    | .ended how =>
      let s := dropTask s task
      let s := countEnd s t.run t.graph t.step t.index how t.ofHandler
      let isFault := match how with | .faulted _ => true | _ => false
      match t.kind with
      | .graph =>
        let s := s.modGraph t.graph fun g => { g with faultedStep := g.faultedStep || isFault, past := g.past ++ [(task, t.index, how)] }
        .next (endTask s t.graph t.index (endCore t) t.children.length how)
      | .child p o =>
        let s := s.modGraph t.graph fun g => { g with faultedStep := g.faultedStep || (isFault && (!t.ofHandler || g.ofHandler)) }
        .next (childEnded s p o how)
      | .deadline => .next s
    | _ => .next s

/-- Checkpoint copies, forward or back; the first fault. -/
def ckptCopy (s : State) (bay : Nat) (back : Bool) : List Ckpt → State × Option (BitVec 9 × W64)
  | [] => (s, none)
  | c :: r =>
    match (if back then fwCopy s bay c.dst c.src (c.len / 64) else fwCopy s bay c.src c.dst (c.len / 64)) with
    | (s, some f) => (s, some f)
    | (s, none) => ckptCopy s bay back r

/-- A graph ends because a checkpoint, its restoration or its schedule record met a fault (R351). -/
def failGraph (s : State) (g : Graph) (cause : BitVec 9) : State :=
  finishGraph (countEnd s g.run g.id g.step 0xFFFF (.faulted cause) false) g.id

/-- The step of a graph begins: registers, counts, absent tasks and roots (R343). The boost of an attempt stays for the step's re-run
(R350). -/
def beginStep (s : State) (g : Graph) (ws : List W64) (again : Bool) : State :=
  let ms : Vector W64 16 := Vector.ofFn fun i =>
    if i.val = 0 then w64 g.step else if i.val = 1 then w64 (g.nstep - 1 - g.step) else wordAt ws (i.val - 2)
  let away (i : Nat) : Bool := absentIn ((g.w0s[i]?).getD 0) g.step g.nstep
  let (mark, s) := s.bump
  let s := s.modGraph g.id fun g =>
    { g with
      stat := .running, ms := ms, trel := s.now, cnt := g.npred, released := (List.range g.ntask).map away
      ended := List.replicate g.ntask false, boosted := again && g.boosted, expired := 0, faultedStep := false, rerun := false, reran := again
      ckptJob := none, base := graphEnds g, baseFails := mark + 1, past := [], lowered := [], reported := if again then g.reported else [], attempt := [] }
  let s := ((List.range g.ntask).filter away).foldl (fun s i => endTask s g.id i 0x1FF 0 .absent) s
  (List.range g.ntask).foldl (fun s i =>
    match s.graphAt g.id with
    | some x => if (x.cnt[i]?).getD 1 = 0 ∧ !x.killed then release s g.id i else s
    | none => s) s

/-- The schedule record of a graph's step. -/
def readSched (s : State) (g : Graph) : State × (List W64 ⊕ BitVec 9) :=
  match agentRead s (device g.bay 5) (g.sched + w64 (128 * g.step)) 128 128 with
  | (s, .inl b) => (s, .inl (wordsOf b 16))
  | (s, .inr e) => (s, .inr e.cause)

/-- The places of a span of a bay's space 0x0: where its pages translate to, and both backings of what a publish slot covers (R272). -/
def spanPlaces (s : State) (bay : Nat) (va len : Nat) : List (Nat × Nat) :=
  let pages := (spanRanges s bay (va + len) (len / 4096 + 2) va).map fun r => (ownPa r.1, ownPa r.1 + (r.2 - r.1))
  let backs := (s.pubs.toArray.toList.filter fun p => p.en && p.bay.toNat == bay).flatMap fun p =>
    let base := p.vbase.toNat * 65536
    let lo := max va base
    let hi := min (va + len) (base + p.nblk.toNat * 65536)
    if hi ≤ lo then [] else [p.b0, p.b1].map fun b => (b.toNat * 65536 + (lo - base), b.toNat * 65536 + (hi - base))
  pages ++ backs

/-- The sectors that the L2 holds of the buffers of a RUN whose coherence mode is selected (R325). -/
def bufferSectors (s : State) (r : Run) (modes : List Nat) : List Nat :=
  let places := (r.buffers.filter fun b => modes.contains b.mode).flatMap fun b => spanPlaces s r.bay b.addr.toNat (b.len * 64)
  (l2Held s).filter fun g => places.any fun p => decide (p.1 < (g + 1) * 64 ∧ g * 64 < p.2)

/-- INVALIDATE-BEFORE of a RUN's buffers: the L2 copies of their spans are written back and dropped (R325). -/
def dropBuffers (s : State) (r : Run) : State := (bufferSectors s r [1, 3]).foldl dropSector s

/-- WRITEBACK-AFTER of a RUN's buffers: the dirty L2 sectors of their spans are written to system scope (R325). -/
def pushBuffers (s : State) (r : Run) : State := (bufferSectors s r [2, 3]).foldl pushSector s

/-- What a RUN's buffer modes ask for before its first task is released: step 0 of its own graph (R325). -/
def beforeFirst (s : State) (g : Graph) : State :=
  match s.runAt g.run with
  | some r => if r.graph = g.id ∧ g.step = 0 then dropBuffers s r else s
  | none => s

/-- The next part of a checkpoint copy or restore: one entry, or its end, for which `done` says what follows; a fault ends the graph
(R351; assumption 71). -/
def ckptStepOn (s : State) (g : Graph) (j : CkptJob) (done : State → State) : State :=
  match j.left with
  | [] => done s
  | c :: r =>
    match ckptCopy s g.bay j.back [c] with
    | (s, some f) => failGraph s g f.1
    | (s, none) => s.modGraph g.id fun g => { g with ckptJob := some { j with left := r } }

/-- STEP_START (R343, R351, R327, R325): once every linked part has started, the step's schedule record is read, a checkpoint is taken
when it asks for one, an entry at a time, and the step begins; before step 0 of a RUN's own graph its buffers are treated as their modes
ask. A schedule record that cannot be read ends the graph as a checkpoint that faults does (DESIGN CHOICE, see assumption 24). -/
def execStepStart (graph : Nat) (s : State) : Out :=
  match s.graphAt graph with
  | none => .next s
  | some g =>
    let partsWait := g.parent.isNone && s.parts.any fun p => p.run == some g.run && p.sparge && !p.started && !p.done
    if g.stat != .betweenSteps then .next s
    else if g.killed then .next (finishGraph s graph)
    else if partsWait then .next s
    else
      match g.ckptJob with
      | some j =>
        .next (ckptStepOn s g j fun s =>
          let g := { g with ckptStep := some g.step }
          beginStep (beforeFirst (s.modGraph graph fun _ => g) g) g j.words false)
      | none =>
        match readSched s g with
        | (s, .inr c) => .next (failGraph s g c)
        | (s, .inl ws) =>
          if g.cken && bitAt (wordAt ws 14) 0 then
            .next (s.modGraph graph fun g => { g with ckptJob := some { back := false, left := g.ckpts, words := ws } })
          else .next (beginStep (beforeFirst s g) g ws false)

/-- A task or child graph holds a graph's step open: a deadline handler and what descends from it do not (R350). -/
def holdsStep (s : State) (graph : Nat) : Bool :=
  let handlers := ((s.graphAt graph).map (·.ofHandler)).getD false
  (s.tasks.any fun t => t.graph == graph && t.kind != .deadline && (!t.ofHandler || handlers)) ||
    s.graphs.any fun g => (!g.ofHandler || handlers) && match g.parent with | some p => p.1 == graph && g.stat != .ended | none => false

/-- The tasks that a stop under HALTF leaves unrun (R343): those of the later steps that are not absent in them. -/
def unrun (g : Graph) : Nat :=
  ((List.range (g.nstep - 1 - g.step)).map fun k =>
    (g.w0s.filter fun w => !absentIn w (g.step + 1 + k) g.nstep).length).sum

/-- Counts unrun tasks as killed. -/
def countUnrun (s : State) (g : Graph) (n : Nat) : State :=
  if n = 0 then s
  else
    let up := chainOf s g.id
    let s := { s with graphs := s.graphs.map fun (x : Graph) => if up.contains x.id then { x with nKill := x.nKill + n } else x }
    let first := ((List.range g.ntask).find? fun i => !absentIn ((g.w0s[i]?).getD 0) (g.step + 1) g.nstep).getD 0
    s.modRun g.run fun r =>
      { r with nKill := r.nKill + n, fails := r.fails ++ [{ via := up, step := g.step + 1, index := first, cause := 0, killed := true, mark := s.fresh }] }

/-- STEP_END (R343): everything of the step has ended; the boost is cleared, and the next step follows, or the graph has ended. -/
def execStepEnd (graph : Nat) (s : State) : Out :=
  match s.graphAt graph with
  | none => .next s
  | some g =>
    if g.stat != .running || holdsStep s graph || (g.rerun && !g.killed) then .next s
    else
      let s := s.modGraph graph fun g => { g with boosted := false }
      if g.killed then .next (finishGraph s graph)
      else if g.haltf && g.faultedStep then .next (finishGraph (countUnrun s g (unrun g)) graph)
      else if g.nstep ≤ g.step + 1 then .next (finishGraph s graph)
      else .next (s.modGraph graph fun g => { g with step := g.step + 1, stat := .betweenSteps })

/-! ### Stage deadlines (R350) -/

/-- Tasks of a stage that have not ended. -/
def unended (s : State) (g : Graph) (stage : Nat) : List Nat :=
  (List.range g.ntask).filter fun i =>
    bits ((g.w0s[i]?).getD 0) 16 6 == stage && !(g.ended[i]?).getD true &&
      !(s.tasks.any fun t => t.graph == g.id && t.kind == .graph && t.index == i && (match t.stat with | .ended _ => true | _ => false))

/-- Starts the deadline handler of a bay; the state, and whether it could be started. -/
def startHandler (s : State) (g : Graph) (stage count : Nat) : State × Bool :=
  let dlh := (s.eff g.bay).dlh
  if dlh = 0 then (s, true)
  else
    match freeEntry s g.die g.bay with
    | none => (s, false)
    | some p =>
      match seqRead s g.bay dlh 64 64 with
      | (s, none) => (s, false)
      | (s, some b) =>
        let r := recordOf b
        if recordBad r none then (s, false)
        else
          let r := wr (wr (wr r 5 (w64 stage)) 6 (w64 g.step)) 7 (w64 count)
          let (id, s) := s.bump
          let t : Task :=
            { id := id, bay := g.bay, graph := g.id, run := g.run, kind := .deadline, index := bits (recWord r 0) 0 16, step := g.step,
              rec_ := r, recAddr := dlh, seed := ((s.runAt g.run).map (·.seed)).getD 0, ms := g.ms,
              gang := bits (recWord r 0) 22 2 == 3, readySince := s.now, pool := some p, ofHandler := true }
          ({ s with tasks := s.tasks ++ [t] }, true)

/-- STAGE_DEADLINE_EXPIRY (R350): evaluated once per stage and step. -/
def execStageDeadlineExpiry (graph stage : Nat) (s : State) : Out :=
  match s.graphAt graph with
  | none => .next s
  | some g =>
    let dl := (rd g.dl stage 0).toNat * 1024
    if g.stat != .running || g.ckptJob.isSome || decide (16 ≤ stage) || dl == 0 || bitAt g.expired stage || decide (s.now < g.trel + dl) then .next s
    else
      let late := unended s g stage
      let s := s.modGraph graph fun g => { g with expired := setBit g.expired stage true }
      match late with
      | [] => .next s
      | first :: _ =>
        let (s, ok) := startHandler s g stage late.length
        let s := logEvent s g.bay first g.step 12 0x138 0 0 (w64 stage) (w64 (late.length + if ok then 0 else 2 ^ 63))
        let s := s.modGraph graph fun g => { g with boosted := true }
        if (s.eff g.bay).dlstop then
          let ids := (s.tasks.filter fun t => t.graph == graph && t.kind == .graph && late.contains t.index).map (·.id)
          .next (ids.foldl killUnended s)
        else .next s

/-! ### Re-runs (R352, R364) -/

/-- The Cask's side of an abandoned attempt: entries stored in it are invalidated, and entries only skipped get their SKIPS back. -/
def undoAttempt (s : State) (g : Graph) : State :=
  let back (e : CaskEntry) : CaskEntry :=
      match g.attempt.find? fun a => a.1 == e.layer && a.2.1 == e.tile with
      | some (_, _, skip, skips) =>
        if e.bay ≠ g.bay ∨ e.graph ≠ g.id then e else if skip then { e with skips := skips } else { e with v := false }
      | none => e
  { s with cask := s.cask.map (List.map back) }

/-- The cause of the first faulted end that a RUN has noted of a graph. -/
def firstCauseOf (s : State) (g : Graph) : Option (BitVec 9) :=
  (s.runAt g.run).bind fun r => (r.fails.find? fun f => !f.killed && f.via.contains g.id).map (·.cause)

/-- The graphs' first causes as the failing tasks of their RUN give them, for some graphs. -/
def recause (s : State) (up : List Nat) : State :=
  { s with graphs := s.graphs.map fun (x : Graph) => if up.contains x.id then { x with firstCause := firstCauseOf s x } else x }

/-- Takes the ends of the abandoned attempt of a graph's step out of every count; those of deadline handlers stay. -/
def uncount (s : State) (g : Graph) : State :=
  let sub (a b c : Nat × Nat × Nat × Nat) : Nat × Nat × Nat × Nat :=
    (a.1 - (b.1 - c.1), a.2.1 - (b.2.1 - c.2.1), a.2.2.1 - (b.2.2.1 - c.2.2.1), a.2.2.2 - (b.2.2.2 - c.2.2.2))
  let now := graphEnds g
  let up := chainOf s g.id
  let s := { s with graphs := s.graphs.map fun (x : Graph) => if up.contains x.id then setEnds x (sub (graphEnds x) now g.base) else x }
  let s := s.modRun g.run fun r =>
    { setRunEnds r (sub (r.nRet, r.nSkip, r.nFault, r.nKill) now g.base) with
      fails := r.fails.filter fun f => f.handler || f.mark < g.baseFails || !f.via.contains g.id }
  recause s up

/-- An end taken out of counts. -/
def subEnd (how : End) (c : Nat × Nat × Nat × Nat) : Nat × Nat × Nat × Nat :=
  match how with
  | .retired _ => (c.1 - 1, c.2)
  | .skippedPublish => (c.1, c.2.1 - 1, c.2.2)
  | .skippedCopy => (c.1, c.2.1 - 1, c.2.2)
  | .faulted _ => (c.1, c.2.1, c.2.2.1 - 1, c.2.2.2)
  | .killed => (c.1, c.2.1, c.2.2.1, c.2.2.2 - 1)
  | .absent => c

/-- Takes the end of one task of a graph's present step out of every count. -/
def uncountOne (s : State) (g : Graph) (index : Nat) (how : End) : State :=
  let up := chainOf s g.id
  let s := { s with graphs := s.graphs.map fun (x : Graph) => if up.contains x.id then setEnds x (subEnd how (graphEnds x)) else x }
  let s := s.modRun g.run fun r =>
    let mine (f : Fail) : Bool := !f.handler && f.via == up && f.step == g.step && f.index == index
    { setRunEnds r (subEnd how (r.nRet, r.nSkip, r.nFault, r.nKill)) with
      fails := match r.fails.findIdx? mine with | some i => r.fails.eraseIdx i | none => r.fails }
  recause s up

/-- A task of the present step that has ended runs again from its record, with its end uncounted (R345, R390). -/
def runAgain (s : State) (g : Graph) (task index : Nat) (how : End) : State :=
  let s := (uncountOne s g index how).modGraph g.id fun g =>
    { g with ended := setAt g.ended index false, past := g.past.filter fun p => p.1 != task }
  makeReady s g.id index

/-- STEP_RERUN (R352): the tasks of the step and their children are killed without record; when they are gone, the checkpoint is
copied back, an entry at a time, and the step runs again, with its ends uncounted. A deadline handler and its children are none of the
step's tasks. -/
def execStepRerun (graph : Nat) (s : State) : Out :=
  match s.graphAt graph with
  | none => .next s
  | some g =>
    if g.stat != .running || !g.rerun || g.reran || g.killed || g.ckptStep != some g.step then .next s
    else if holdsStep s graph then
      let mine (h : Bool) : Bool := !h || g.ofHandler
      let ids := (s.tasks.filter fun t => t.graph == graph && t.kind != .deadline && mine t.ofHandler).map (·.id)
      let s := ids.foldl (fun s i => kill s i .discard) s
      let kids := (s.graphs.filter fun x => mine x.ofHandler && match x.parent with | some p => p.1 == graph && !x.killed | none => false).map (·.id)
      .next (kids.foldl (fun s i => killGraph (killFuel s) s i .discard) s)
    else
      match g.ckptJob with
      | none => .next ((uncount (undoAttempt s g) g).modGraph graph fun g => { g with ckptJob := some { back := true, left := g.ckpts } })
      | some j =>
        .next (ckptStepOn s g j fun s =>
          match readSched s g with
          | (s, .inr c) => failGraph s g c
          | (s, .inl ws) => beginStep s g ws true)

/-! ### Deterministic commit (R335 to R338, R363) -/

/-- `a` comes before `b` in commit order: timestamp, then task index; of equals the older. -/
def commitBefore (a b : Task) : Bool :=
  let ts (t : Task) : Nat := (recWord t.rec_ 4).toNat
  ts a < ts b || ts a == ts b && (a.index < b.index || a.index == b.index && a.id < b.id)

/-- A task of the bay that has still to commit. -/
def uncommitted (bay : Nat) (t : Task) : Bool := t.bay == bay && match t.stat with | .ended _ => false | _ => true

/-- The first task of a bay in commit order. -/
def firstUncommitted (s : State) (bay : Nat) : Option Task :=
  (s.tasks.filter (uncommitted bay)).foldl (fun m t => match m with
    | some x => if commitBefore t x then some t else m
    | none => some t) none

/-- Applies a kept FADD at the point of coherence (R117, R338): the state, and the 64-byte lines it writes. One on another package leaves
as a request (R373). -/
def applyFadd (s : State) (bay : Nat) (f : Fadd) : State × List Nat :=
  match access s (device bay 4) f.va (amoLen f.wide) (amoLen f.wide) .uc with
  | (s, .bad _) => (s, [])
  | (s, .ok ps) =>
    if ps.any fun p => pieceDenied s p true true then (s, [])
    else
      match ps.findSome? (remoteOf s) with
      | some (pa, pkg, off) =>
        ({ s with sent := s.sent ++ [.flit ((linkTo s pkg pa).getD 0) pkg off (.atomic 10 f.wide f.operand 0)] }, [])
      | none =>
        let (s, b) := readPieces s none false none [] ps
        let new := amoNew 10 (8 * amoLen f.wide) (ofBytes b) f.operand.toNat 0
        (writePieces s none false none 0 ps (toBytes (amoLen f.wide) new), pieceLines ps)

/-- Applies kept FADDs in order. -/
def applyFadds (s : State) (bay : Nat) : List Fadd → State × List Nat
  | [] => (s, [])
  | f :: r =>
    let (s, a) := applyFadd s bay f
    let (s, b) := applyFadds s bay r
    (s, a ++ b)

/-- The directory lines of a die whose entries are in one list and not in another. -/
def entriesGone (die : Nat) (old new : List CaskEntry) : List Nat :=
  (old.filter fun e => !(new.any fun x => x.isKey e.bay e.layer e.tile)).map fun e => caskLine die e.bay e.layer e.tile

/-- Applies a kept entry change (R363): the state, the directory lines that changed, and the cell's lines when a CKSTORE is refused, which
then has copied nothing (R356). -/
def applyCask (s : State) (t : Task) (c : CaskChange) : State × List Nat × List Nat :=
  let die := graphDie s t.graph
  let dir := caskDir s die
  let old := dir.find? fun e => e.isKey t.bay c.layer c.tile
  let line := caskLine die t.bay c.layer c.tile
  let s := noteAttempt s t.graph c.layer c.tile c.skip ((old.map (·.skips)).getD 0)
  let publish (s : State) : State := match c.publish with | some n => exchange s n | none => s
  if c.skip then
    match old with
    | some o => (publish (if o.v then putEntry s die o.skipped else s), [line], [])
    | none => (publish s, [], [])
  else
    let e := entryOf c.words s.fresh t.graph
    let (_, s) := s.bump
    let after := putEntry s die e
    match roomFor s die t.bay c.layer c.tile with
    | none => (after, [], c.lines)
    | some rest => (after, line :: entriesGone die dir (e :: rest), [])

/-- Applies kept entry changes in order. -/
def applyCasks (s : State) (t : Task) : List CaskChange → State × List Nat × List Nat
  | [] => (s, [], [])
  | c :: r =>
    let (s, a, x) := applyCask s t c
    let (s, b, y) := applyCasks s t r
    (s, a ++ b, x ++ y)

/-- A 64-byte line lies in a backing of one of some publish slots: what an exchange changes is which of the two is visible (R271, R272). -/
def inBacking (s : State) (ns : List Nat) (g : Nat) : Bool :=
  ns.any fun n =>
    let p := rd s.pubs n {}
    [p.b0, p.b1].any fun b => decide (b.toNat * 1024 ≤ g ∧ g < b.toNat * 1024 + p.nblk.toNat * 1024)

/-- Publishes what a task has written: its entry changes with their exchanges, its shadow, its FADDs; then aborts every later task that has
read a line it wrote, a line of a backing that an exchange showed or hid, or an entry it changed or displaced (R335, R337, R363). -/
def commitWork (s : State) (t : Task) : State :=
  let (s, keys, refused) := applyCasks s t t.cask
  let shadow := t.shadow.filter fun l => !refused.contains l.1
  let s := shadow.foldl (fun s l => pocWrite s (l.1 * 64) (toBytes 64 l.2.toNat)) s
  let (s, added) := applyFadds s t.bay t.fadds
  let lines := shadow.map (·.1) ++ added ++ t.wrote ++ keys
  let shown := t.cask.filterMap (·.publish)
  let touched (u : Task) : Bool :=
    u.readSet.any (fun l => lines.contains l || inBacking s shown l) || u.shadow.any fun l => inBacking s shown l.1
  let readers := (s.tasks.filter fun u =>
    uncommitted t.bay u && u.id != t.id && commitBefore t u && !u.aborted && touched u).map (·.id)
  readers.foldl (fun s i => (kill s i .again).modBay t.bay fun b => { b with aborts := b.aborts + 1 }) s

/-- A task with nothing left to commit. -/
def committed (t : Task) : Task := { t with shadow := [], readSet := [], fadds := [], cask := [], wrote := [], starved := false }

/-- DET_COMMIT (R335, R338): the first task in commit order commits once it has left its core, a faulted one with nothing; a running
one for whose write the arena has no line commits at once and goes on without a shadow. -/
def execDetCommit (bay : Nat) (s : State) : Out :=
  match firstUncommitted s bay with
  | none => .next s
  | some t =>
    match t.stat with
    | .done how => .next ((commitWork s t).modTask t.id fun t => { committed t with stat := .ended how })
    | .running =>
      if (s.eff bay).det && t.starved && !t.aborted then .next ((commitWork s t).modTask t.id fun t => { committed t with unshadowed := true })
      else .next s
    | _ => .next s

/-! ### Sequencer status (R353) -/

/-- MSQ_STATn as the host driver reads it. -/
def msqStat (s : State) (n : Nat) : W64 :=
  match (rd s.seqs n none).bind s.graphAt with
  | none => 0
  | some g =>
    let busy := match g.stat with | .betweenSteps => true | .running => true | _ => false
    let open_ := ((List.range g.ntask).filter fun i => (g.released[i]?).getD false && !(g.ended[i]?).getD true).length
    if busy then
      w64 (2 ^ 63 + (if g.ckptJob.isSome then 2 ^ 62 else 0) + (if g.boosted then 2 ^ 61 else 0) + g.bay % 4096 * 2 ^ 49 + g.step % 65536 * 2 ^ 33 + open_ * 2 ^ 20)
    else 0

/-- MSQ_GADRn: the descriptor's address of the graph on a sequencer. -/
def msqGadr (s : State) (n : Nat) : W64 := (((rd s.seqs n none).bind s.graphAt).map (·.desc)).getD 0

end Sys2Proof.Machine
end

