-- ==== Sys2Proof/Machine/Sparge.lean ====
section
/-! DEFINITION. Sparge weight streams (R365 to R369, R182) and linked firmware copies (R327). -/

namespace Sys2Proof.Machine

/-! ### Programs (R365) -/

/-- FMT of a program. -/
def spFmt (p : Vector W64 8) : Nat := bits (rd p 3 0) 11 2
/-- LAYOUT. -/
def spLayout (p : Vector W64 8) : Nat := bits (rd p 3 0) 9 2
/-- The element size of the Eave conversion in bytes. -/
def spElem (p : Vector W64 8) : Nat := 2 ^ bits (rd p 3 0) 7 2
/-- GROUP. -/
def spGroup (p : Vector W64 8) : Nat := bits (rd p 3 0) 0 7
/-- FMV. -/
def spFmv (p : Vector W64 8) : BitVec 32 := (rd p 4 0).setWidth 32
/-- OUTLEN. -/
def spOut (p : Vector W64 8) : Nat := (rd p 2 0).toNat

/-- 128-byte blocks of a group record of format 2 (R366): headers, then side and plane blocks per chunk. -/
def recordBlocks (v : BitVec 32) : Nat := let l := bLayout v; l.hdr + l.chunks * (l.side + l.planes)

/-- A program breaks R365. -/
def spargeBad (p : Vector W64 8) : Bool :=
  let w (i : Nat) : Nat := (rd p i 0).toNat
  let fmt := spFmt p
  let lay := spLayout p
  let v := spFmv p
  let fam := fmFamily v
  w 5 != 0 || w 6 != 0 || w 7 != 0 || bits (rd p 4 0) 32 32 != 0 || bits (rd p 3 0) 13 11 != 0 || fmt == 3 || (fmt != 0 && lay != 0) ||
    (lay != 2 && bits (rd p 3 0) 24 24 != 0) ||
    (if fmt = 2 then !fmValid v || !(fam == 1 || fam == 2) else v != 0) ||
    (!(fmt == 1 || fmt == 2 && fam == 2) && w 1 != 0) ||
    w 2 == 0 || w 2 % 128 != 0 || (fmt == 2 && w 2 % (128 * recordBlocks v) != 0) ||
    decide (2 ^ 56 ≤ w 0) || w 0 % (if lay ≠ 0 then 2048 else if fmt = 2 then 64 else 128) != 0

/-! ### The plane stream of a pass (R182, R366) -/

/-- Who reads for a stream: a channel, whose reads may take the long-reach path (R371). -/
def spWho (bay : Nat) : Who := { device bay 5 with chan := true }

/-- A byte whose bit `k` is bit `pos k` of a number. -/
def gatherByte (x : Nat) (pos : Nat → Nat) : Byte :=
  BitVec.ofNat 8 ((List.range 8).foldl (fun a k => if x.testBit (pos k) then a + 2 ^ k else a) 0)

/-- Block `j` of a group record from its 128 element blocks of `len` bytes, elements of `w` bits from bit `base` on; `hdr` header
blocks come before it. -/
def formBlock (v : BitVec 32) (src : List Byte) (len base w hdr j : Nat) : List Byte :=
  let l := bLayout v
  let n := l.side + l.planes
  let t := (j - hdr) / n
  let i := (j - hdr) % n
  (List.range 128).map fun c =>
    let x := ofBytes ((src.drop (len * c)).take len)
    gatherByte x fun k => base + (8 * t + k) * w + bBitPos v i

/-- Block `k` of a pass, given the next unused source block of format 1: its 128 bytes and the next unused block after it. -/
def passBlock (s : State) (bay : Nat) (p : Vector W64 8) (k used : Nat) : State × ((List Byte × Nat) ⊕ AErr) :=
  let src := rd p 0 0
  let aux := rd p 1 0
  let keep (r : State × (List Byte ⊕ AErr)) (f : List Byte → List Byte) (u : Nat) : State × ((List Byte × Nat) ⊕ AErr) :=
    match r with
    | (s, .inl b) => (s, .inl (f b, u))
    | (s, .inr e) => (s, .inr e)
  match spFmt p with
  | 0 =>
    if spLayout p = 0 then keep (agentRead s (spWho bay) (src + w64 (128 * k)) 128 4) id used
    else
      let pitch : Int := Int.ofNat (bits (rd p 3 0) 24 24 * 2048)
      keep (readTile s (spWho bay) (spLayout p) (spElem p) pitch (src + w64 (128 * k / 2048 * 2048)))
        (fun b => (b.drop (128 * k % 2048)).take 128) used
  | 1 =>
    match agentRead s (spWho bay) (aux + w64 (k / 8)) 1 1 with
    | (s, .inr e) => (s, .inr e)
    | (s, .inl b) =>
      if (ofBytes b).testBit (k % 8) then keep (agentRead s (spWho bay) (src + w64 (128 * used)) 128 4) id (used + 1)
      else (s, .inl (List.replicate 128 0, used))
  | _ =>
    let v := spFmv p
    let g := k / recordBlocks v
    let j := k % recordBlocks v
    if fmFamily v = 1 then
      let len := 2 * (fmWidth v + 1) + 2
      let r := agentRead s (spWho bay) (src + w64 (128 * g * len)) (128 * len) 1
      if j < 2 then keep r (fun b => (List.range 128).map fun c => (b[len * c + j]?).getD 0) used
      else keep r (fun b => formBlock v b len 16 (fmWidth v + 1) 2 j) used
    else
      let w := aWidth v
      if j = 0 then keep (agentRead s (spWho bay) (aux + w64 (128 * g)) 128 1) id used
      else keep (agentRead s (spWho bay) (src + w64 (512 * w * g)) (512 * w) 1) (fun b => formBlock v b (4 * w) 0 w 1 j) used

/-- Blocks of the stream from block `k` on, zero past its last; the next unused source block follows the passes. -/
def streamBlocks (s : State) (bay : Nat) (p : Vector W64 8) : Nat → Nat → Nat → State × ((List Byte × Nat) ⊕ AErr)
  | 0, _, used => (s, .inl ([], used))
  | n + 1, k, used =>
    let per := spOut p / 128
    let total := (bits (rd p 3 0) 48 16 + 1) * per
    if total ≤ k then (s, .inl (List.replicate (128 * (n + 1)) 0, used))
    else
      let used := if k % per = 0 then 0 else used
      match passBlock s bay p (k % per) used with
      | (s, .inr e) => (s, .inr e)
      | (s, .inl (b, used)) =>
        match streamBlocks s bay p n (k + 1) used with
        | (s, .inr e) => (s, .inr e)
        | (s, .inl (c, used)) => (s, .inl (b ++ c, used))

/-- Portions of a stream (R367). -/
def portions (p : Vector W64 8) : Nat := ((bits (rd p 3 0) 48 16 + 1) * spOut p + 65535) / 65536

/-! ### Channels (R365, R367, R368) -/

/-- The part that a channel runs. -/
def partOn (s : State) (ch : Nat) : Option Part := (rd s.sparge ch {}).part.bind fun i => s.parts.find? (·.id == i)

/-- A part changed. -/
def modPart (s : State) (id : Nat) (f : Part → Part) : State :=
  { s with parts := s.parts.map fun (x : Part) => if x.id = id then f x else x }

/-- A part has completed: a linked part counts among the retired tasks of its RUN (R327, R345). -/
def partCompletes (s : State) (p : Part) : State :=
  let after := endPart s p
  match p.run with
  | some run => after.modRun run fun r => { r with nRet := r.nRet + 1 }
  | none => after

/-- The graph of a RUN has been accepted, and runs or has ended. -/
def runAccepted (s : State) (run : Nat) : Bool :=
  ((s.runAt run).bind fun r => s.graphAt r.graph).any fun g =>
    match g.stat with | .waiting => false | .assigned => false | _ => true

/-- The graph of a RUN has ended. -/
def runEnded (s : State) (run : Nat) : Bool := ((s.runAt run).bind fun r => s.graphAt r.graph).any fun g => g.stat == .ended

/-- The RUN of a part lets it start: its graph has been accepted and has not ended. A program of firmware's has no RUN. -/
def partRuns (s : State) (p : Part) : Bool :=
  match p.run with
  | some run => runAccepted s run && !runEnded s run
  | none => true

/-- Firmware starts a Sparge program in a bay: one that breaks the rules of programs does not start (R365; assumption 102). -/
def firmwareProgram (s : State) (bay : Nat) (words : List W64) : State :=
  let p : Vector W64 8 := Vector.ofFn fun i => wordAt words i.val
  if spargeBad p || (s.bayAt bay).isNone then s
  else let (id, s) := s.bump; { s with parts := s.parts ++ [{ id := id, run := none, bay := bay, sparge := true, words := p }] }

/-- SPARGE_START (R365): a program takes the lowest-numbered free channel of its group's die, when the group has no running stream. -/
def execSpargeStart (part : Nat) (s : State) : Out :=
  match s.parts.find? (·.id == part) with
  | none => .next s
  | some p =>
    let grp := spGroup p.words
    let chans := (List.range 32).map (grp / 64 * 32 + ·)
    let busy := (List.range 64).any fun ch => (partOn s ch).any fun q => spGroup q.words == grp
    if !p.sparge || p.started || p.done || !partRuns s p || busy then .next s
    else
      match chans.find? fun ch => (rd s.sparge ch {}).part.isNone with
      | none => .next s
      | some ch => .next (modPart { s with sparge := wr s.sparge ch { part := some part } } part fun p => { p with started := true })

/-- The weight buffers of a core that subscribe to a group. -/
def subscribed (e : Engine) (grp : Nat) : List Nat := [0, 1].filter fun i => (rd e.wb i {}).group == some grp

/-- The half a buffer fills next is empty. -/
def nextEmpty (w : WBuf) : Bool := if w.nextFill then !w.full1 else !w.full0

/-- A portion written into a buffer's next half. -/
def fillHalf (w : WBuf) (b : BitVec 524288) : WBuf :=
  if w.nextFill then { w with half1 := b, full1 := true, nextFill := false }
  else { w with half0 := b, full0 := true, nextFill := true }

/-- The buffers that subscribe to a group, by core. -/
def subscribers (s : State) (grp : Nat) : List (Nat × Nat) :=
  (List.range 320).flatMap fun n => if (s.core n).task.isNone then [] else (subscribed (s.core n).e grp).map fun i => (n, i)

/-- A subscriber is saved or being restored: its stream waits for it (R306, R367). -/
def savedSubscriber (s : State) (grp : Nat) : Bool :=
  (s.tasks.any fun t => t.saved.any fun x => !(subscribed x.e grp).isEmpty) ||
    (subscribers s grp).any fun p => (s.core p.1).restoring

/-- SPARGE_PORTION_WRITE (R367, R369): the next portion goes into the next half of every subscriber, when every one is empty. A fault
the host may answer parks the channel before the portion; any other stops the stream as a faulted part. -/
def execSpargePortionWrite (ch : Nat) (s : State) : Out :=
  let c := rd s.sparge ch {}
  match partOn s ch with
  | none => .next s
  | some p =>
    let grp := spGroup p.words
    let subs := subscribers s grp
    let ready := subs.all fun x => nextEmpty (rd (s.core x.1).e.wb x.2 {})
    let bay := p.bay
    if c.park.isSome || portions p.words ≤ c.portion || subs.isEmpty || !ready || savedSubscriber s grp then .next s
    else
      match streamBlocks s bay p.words 512 (512 * c.portion) c.block with
      | (s, .inr e) =>
        if e.replayable then
          .next { s with sparge := wr s.sparge ch { c with park := some (.wanting e.cause e.addr e.walk e.rp) } }
        else .next (partFaulted (freeSparge s ch) p.id e.cause e.addr)
      | (s, .inl (b, used)) =>
        let half := BitVec.ofNat 524288 (ofBytes b)
        let s := subs.foldl (fun s x => s.modE x.1 fun e => { e with wb := wr e.wb x.2 (fillHalf (rd e.wb x.2 {}) half) }) s
        let last := decide (portions p.words ≤ c.portion + 1)
        let c' : Sparge := { c with portion := c.portion + 1, block := used, lastTo := if last then subs else [] }
        .next { s with sparge := wr s.sparge ch c' }

/-- SPARGE_STREAM_COMPLETE (R368): the final portion has been written, full in every buffer that was subscribed then. -/
def execSpargeStreamComplete (ch : Nat) (s : State) : Out :=
  match partOn s ch with
  | none => .next s
  | some p =>
    if (rd s.sparge ch {}).portion < portions p.words then .next s
    else .next (partCompletes (freeSparge s ch) p)

/-- SPARGE_STREAM_STOP (R368): a stream that has not completed when its graph has ended is stopped, and counts as a killed part. -/
def execSpargeStreamStop (ch : Nat) (s : State) : Out :=
  match (partOn s ch).bind fun p => p.run.map fun run => (p, run) with
  | none => .next s
  | some (p, run) =>
    if !runEnded s run || portions p.words ≤ (rd s.sparge ch {}).portion then .next s
    else
      let step := (((s.runAt run).bind fun r => s.graphAt r.graph).map (·.step)).getD 0
      let s := s.modRun run fun r =>
        { r with nKill := r.nKill + 1, fails := r.fails ++ [{ via := [], step := step, index := 0xFFFF, cause := 0, killed := true }] }
      .next (endPart (freeSparge s ch) p)

/-- LINKED_COPY_COMPLETE (R327): a firmware-copy part has copied its bytes, or met a fault. -/
def execLinkedCopyComplete (part : Nat) (s : State) : Out :=
  match s.parts.find? (·.id == part) with
  | none => .next s
  | some p =>
    if p.sparge || p.done || !(p.run.any fun run => runAccepted s run) then .next s
    else
      match fwCopy s p.bay (rd p.words 0 0) (rd p.words 1 0) ((rd p.words 2 0).toNat / 64) with
      | (s, some f) => .next (partFaulted s part f.1 f.2)
      | (s, none) => .next (partCompletes s p)

end Sys2Proof.Machine
end

