-- ==== Sys2Proof/Machine/Packets.lean ====
section
/-! DEFINITION. Submission rings and packets: rings (R319 to R321), refusals (R322, R323), bays (R316 to R318, R334, R402), RUN packets
with their buffer and link lists (R324 to R327), COPY and CONFIG packets (R268, R271, R357), completion records (R323) and manifest
entries (R397, R398). -/

namespace Sys2Proof.Machine

/-! ### Rings (R319, R320) -/

/-- Ring `n`. -/
def ringOf (s : State) (n : Nat) : Ring := rd s.rings n {}

/-- The state with a ring replaced. -/
def setRing (s : State) (n : Nat) (r : Ring) : State := { s with rings := wr s.rings n r }

/-- A ring reads packets: EN is set and ERR is clear. -/
def ringOn (r : Ring) : Bool := bitAt r.w0 63 && !bitAt r.w0 62

/-- Packets that a ring holds. -/
def ringSize (r : Ring) : Nat := 2 ^ (bits r.w0 48 4 + 6)

/-- The physical address of a ring's tail line. -/
def tailLine (r : Ring) : Nat := bits r.w1 6 42 * 64

/-- A write of HST_RINGn's words by the host driver: while EN is set only EN and ERR change, ERR is cleared by writing 1, reserved
bits stay zero, and setting EN starts both counts at 0. -/
def writeRing (s : State) (n : Nat) (w0 w1 : Option W64) : State :=
  let r := ringOf s n
  let on := bitAt r.w0 63
  let r := match w1 with
    | some v => if on then r else { r with w1 := v &&& 0x0000FFFFFFFFFFC0 }
    | none => r
  let r := match w0 with
    | none => r
    | some v =>
      let err := bitAt r.w0 62 && !bitAt v 62
      let base := if on then r.w0 &&& 0x000FFFFFFFFFFFFF else v &&& 0x000FFFFFFFFFFFFF
      let w := setBit (setBit base 62 err) 63 (bitAt v 63)
      if !on && bitAt v 63 then { r with w0 := w, head := 0, tail := 0 } else { r with w0 := w }
  setRing s n r

/-- RING_ENABLE (R319). -/
def execRingEnable (ring : Nat) (w0 w1 : W64) (s : State) : Out :=
  .next (if bitAt w0 63 then writeRing s ring (some w0) (some w1) else s)

/-- RING_ERR_CLEAR (R319): 1 is written to ERR, and EN keeps its value. -/
def execRingErrClear (ring : Nat) (s : State) : Out := .next (writeRing s ring (some (setBit (ringOf s ring).w0 62 true)) none)

/-- RING_TAIL_UPDATE (R320): the device reads TAIL again; a bad one sets ERR, and nothing is read until a valid one is written. -/
def execRingTailUpdate (ring : Nat) (s : State) : Out :=
  let r := ringOf s ring
  if !ringOn r then .next s
  else
    let t := (pocRead8 s (tailLine r)).toNat
    if t < r.head ∨ r.head + ringSize r < t then .next (setRing s ring { r with w0 := setBit r.w0 62 true, tail := r.head })
    else .next (setRing s ring { r with tail := t })

/-! ### The next packet (R320, R321, R322) -/

/-- Word `i` of a packet. -/
def pw (w : Vector W64 8) (i : Nat) : W64 := rd w i 0

/-- KIND. -/
def pKind (w : Vector W64 8) : Nat := bits (pw w 0) 0 8
/-- The bay that a packet names. -/
def pBay (w : Vector W64 8) : Nat := bits (pw w 0) 8 12
/-- OP of a BAY packet. -/
def pOp (w : Vector W64 8) : Nat := bits (pw w 2) 0 2
/-- SUB of a CONFIG packet. -/
def pSub (w : Vector W64 8) : Nat := bits (pw w 2) 0 8

/-- A packet that has not completed holds later packets of its ring: BAY, COPY, FENCE and CONFIG (R321). -/
def holdsRing (p : Packet) : Bool := [2, 3, 4, 6].contains (pKind p.words)

/-- The words of the next packet of a ring, when it may start. -/
def nextWords (s : State) (n : Nat) : Option (Vector W64 8) :=
  let r := ringOf s n
  if !ringOn r || decide (r.tail ≤ r.head) || s.packets.any (fun p => p.ring == n && holdsRing p) then none
  else some (recordOf (pocRead s (bits r.w0 0 48 + 64 * (r.head % ringSize r)) 64))

/-- The next packet of a ring is read and HEAD advances with a coherent write; the packet has started. -/
def takePacket (s : State) (n : Nat) (w : Vector W64 8) : Packet × State :=
  let r := ringOf s n
  let (id, s) := s.bump
  let s := pocWrite (setRing s n { r with head := r.head + 1 }) (tailLine r + 8) (toBytes 8 (r.head + 1))
  let p : Packet := { id := id, ring := n, words := w, since := s.now, done := none }
  (p, { s with packets := s.packets ++ [p] })

/-- A packet has done what it does: its status and w2 are known. -/
def donePacket (s : State) (id status : Nat) (w2 : W64) : State :=
  { s with packets := s.packets.map fun (p : Packet) => if p.id = id then { p with done := some (status, w2) } else p }

/-- A bay that packets may name: it exists and is not being killed. -/
def bayThere (s : State) (n : Nat) : Bool := match s.bayAt n with | some b => b.killing.isNone | none => false

/-- A field that must be zero is not, or a KIND, OP, SUB or alignment is refused (R322). -/
def packetBad (w : Vector W64 8) : Bool :=
  let zero (l : List Nat) : Bool := l.all fun i => pw w i == 0
  let off (i n : Nat) : Bool := (pw w i).toNat % n != 0
  bits (pw w 0) 20 12 != 0 || off 1 64 || bits (pw w 1) 56 8 != 0 ||
    match pKind w with
    | 1 => off 2 64 || bits (pw w 2) 56 8 != 0 || off 3 16 || bits (pw w 4) 32 32 != 0 || off 6 32 || off 7 64
    | 2 => bits (pw w 2) 2 62 != 0 || pOp w == 3 || (pOp w == 2 && pw w 3 != 0) || off 3 64 || !zero [4, 5, 6, 7]
    | 3 => off 2 64 || off 3 64 || off 4 64 || !zero [5, 6, 7]
    | 4 => !zero [2, 3, 4, 5, 6, 7]
    | 5 => !zero [2, 3, 4, 5, 6, 7]
    | 6 => bits (pw w 2) 8 56 != 0 ||
      (match pSub w with
        | 0 => bits (pw w 3) 31 33 != 0 || decide (4 < bits (pw w 3) 28 3) || !zero [4, 5, 6, 7]
        | 1 => bits (pw w 3) 8 56 != 0
        | 2 => !zero [5, 6, 7]
        | 3 => bits (pw w 3) 6 58 != 0 || !zero [6, 7]
        | _ => true)
    | _ => true

/-- The refusals that every packet shares (R322, R323): its status. -/
def refusal (s : State) (w : Vector W64 8) : Option Nat :=
  if packetBad w then some 0x10
  else if pKind w = 2 ∧ pOp w = 0 then (if (s.bayAt (pBay w)).isSome then some 0x11 else none)
  else if bayThere s (pBay w) then none else some 0x11

/-- The next packet of a ring starts, when it is one of those selected, and does what is given unless it is refused. -/
def startPacket (n : Nat) (which : Vector W64 8 → Bool) (s : State) (act : State → Packet → State) : Out :=
  match nextWords s n with
  | none => .next s
  | some w =>
    if !which w then .next s
    else
      let (p, s) := takePacket s n w
      match refusal s w with
      | some st => .next (donePacket s p.id st 0xFFFF)
      | none => .next (act s p)

/-! ### Bay images (R316) -/

/-- The fields of an image that overrides cover. -/
def imageVals (w : List W64) : BayVals :=
  let f (i lo n : Nat) : Nat := bits (wordAt w i) lo n
  { prio := BitVec.ofNat 4 (f 0 28 4), weight := BitVec.ofNat 8 (f 0 32 8)
    dlstop := bitAt (wordAt w 0) 40, pol := bitAt (wordAt w 0) 41, det := bitAt (wordAt w 0) 42
    phased := bitAt (wordAt w 0) 43, spns := bitAt (wordAt w 0) 44
    cmin := BitVec.ofNat 9 (f 1 7 9), cmax := BitVec.ofNat 9 (f 1 16 9), loft := BitVec.ofNat 7 (f 1 25 7)
    quantum := BitVec.ofNat 24 (f 1 32 24), yield := BitVec.ofNat 8 (f 1 56 8)
    rp := bitAt (wordAt w 2) 0, ag := BitVec.ofNat 4 (f 2 8 4), lres := BitVec.ofNat 8 (f 2 12 8), ptroot := BitVec.ofNat 28 (f 2 20 28)
    cores := BitVec.ofNat 320 (((List.range 5).map fun i => (wordAt w (3 + i)).toNat * 2 ^ (64 * i)).sum)
    caskbase := wordAt w 8, casklen := wordAt w 9, phbar := BitVec.ofNat 12 (f 10 0 12), phen := bitAt (wordAt w 10) 12
    dlh := wordAt w 11, savebase := wordAt w 12, savecnt := BitVec.ofNat 32 (f 13 0 32)
    flogbase := wordAt w 14, flogsz := BitVec.ofNat 8 (f 15 0 8), shbase := wordAt w 16, shlen := wordAt w 17 }

/-- A reserved field is nonzero, or a field of a group that the image overrides breaks its alignment, space or range (status 0x10);
a group that is inherited is not looked at (R317). -/
def imageBad (ovr : BitVec 16) (w : List W64) : Bool :=
  let res (i lo n : Nat) : Bool := bits (wordAt w i) lo n != 0
  let in0 (i a : Nat) : Bool := (wordAt w i).toNat / 2 ^ 60 == 0 && (wordAt w i).toNat % a == 0
  let sp := (wordAt w 8).toNat / 2 ^ 60
  let own (g : Nat) (bad : Bool) : Bool := bitAt ovr g && bad
  ((List.range 14).any fun i => wordAt w (18 + i) != 0) || res 15 8 56 || res 13 32 32 || res 10 13 51 || res 2 48 16 || res 2 1 7 ||
    res 1 0 7 || res 0 24 4 || own 15 (!in0 16 4096) || own 14 (!in0 14 64) || own 13 (!in0 12 (2 ^ 21)) ||
    own 12 ((wordAt w 11).toNat % 64 != 0) || own 11 (!(sp == 0 || sp == 2)) ||
    own 14 (decide (bits (wordAt w 15) 0 8 < 4 ∨ 20 < bits (wordAt w 15) 0 8)) ||
    own 4 (bitAt (wordAt w 0) 43 && !bitAt (wordAt w 10) 12)

/-- A budget is broken (status 0x12, R323): WEIGHT 0, CMAX 0 or CMIN above CMAX, and, in a group that the image overrides, a value above
its field's range. -/
def budgetBad (ovr : BitVec 16) (v : BayVals) : Bool :=
  v.weight == 0 || v.cmax == 0 || decide (v.cmax.toNat < v.cmin.toNat) || bitAt ovr 7 && decide (320 < v.cmax.toNat) ||
    bitAt ovr 6 && decide (96 < v.loft.toNat)

/-- The 256 bytes from an address lie in one target, HBM or host memory, and no read of them fails. -/
def imageReads (s : State) (pa : Nat) : Bool :=
  (match target pa, target (pa + 255) with
    | .hbm, .hbm => true
    | .host, .host => true
    | _, _ => false) && (lostKind s .phys pa 256).isNone

/-- The image at a physical address in HBM or host memory; none when it is not there or its read fails (R322). -/
def readImage (s : State) (pa : W64) : Option (List W64) :=
  if 2 ^ 48 ≤ pa.toNat ∨ !imageReads s pa.toNat then none else some (wordsOf (pocRead s pa.toNat 256) 32)

/-! ### Loft extents (R318) -/

/-- A bay holds a 64 KiB unit of a core's Loft. -/
def holdsUnit (b : Bay) (core u : Nat) : Bool := b.extents.any fun x => x.core == core && x.first ≤ u && u < x.first + x.units

/-- A unit lies in the parent's extent, and no other child of the parent holds it. -/
def unitFree (s : State) (parent self core u : Nat) : Bool :=
  (s.bays.any fun b => b.bay == parent && holdsUnit b core u) &&
    !s.bays.any fun b => b.bay != 0 && b.parent == parent && b.bay != self && holdsUnit b core u

/-- The lowest free run of units on a core. -/
def findRun (s : State) (parent self len core : Nat) : Option Nat :=
  (List.range (97 - len)).find? fun f => (List.range len).all fun i => unitFree s parent self core (f + i)

/-- Cores of a set, in order. -/
def coresIn (set : BitVec 320) : List Nat := (List.range 320).filter fun n => bitAt set n

/-- Extents of some length on each of some cores. -/
def carve (s : State) (parent self len : Nat) : List Nat → Option (List Extent)
  | [] => some []
  | c :: r =>
    if len = 0 then some []
    else
      match findRun s parent self len c, carve s parent self len r with
      | some f, some l => some ({ core := c, first := f, units := len } :: l)
      | _, _ => none

/-- The new extent of a modified bay on one core, under its parent: kept, shrunk from its top or grown in place where its units allow it,
else placed afresh. -/
def refit (s : State) (parent : Nat) (b : Bay) (len core : Nat) : Option (List Extent) :=
  match b.extents.find? (·.core == core) with
  | some x =>
    if (List.range len).all fun i => x.first + i < 96 && unitFree s parent b.bay core (x.first + i) then some [{ x with units := len }]
    else carve s parent b.bay len [core]
  | none => carve s parent b.bay len [core]

/-- The new extents of a modified bay. -/
def refitAll (s : State) (parent : Nat) (b : Bay) (len : Nat) : List Nat → Option (List Extent)
  | [] => some []
  | c :: r =>
    match refit s parent b len c, refitAll s parent b len r with
    | some x, some l => some (x ++ l)
    | _, _ => none

/-- The units of some extents, one by one, that others do not hold. -/
def unitsLost (old new : List Extent) : List Extent :=
  old.flatMap fun x => (List.range x.units).filterMap fun i =>
    if new.any fun y => y.core == x.core && y.first ≤ x.first + i && x.first + i < y.first + y.units then none
    else some { core := x.core, first := x.first + i, units := 1 }

/-! ### BAY packets (R316 to R318, R334) -/

/-- The bay that a create makes, less its extents, or the status of its refusal. -/
def newBay (s : State) (n : Nat) (w : List W64) : Nat ⊕ Bay :=
  let parent := bits (wordAt w 0) 12 12
  match s.bayAt parent with
  | none => .inl 0x11
  | some u =>
    if u.killing.isSome then .inl 0x11
    else if imageBad (BitVec.ofNat 16 (bits (wordAt w 0) 48 16)) w then .inl 0x10
    else if budgetBad (BitVec.ofNat 16 (bits (wordAt w 0) 48 16)) (imageVals w) || decide (7 ≤ u.depth) || decide (4096 ≤ s.bays.length) then .inl 0x12
    else .inr { bay := n, parent := parent, depth := u.depth + 1, ovr := BitVec.ofNat 16 (bits (wordAt w 0) 48 16), own := imageVals w }

/-- Creates a bay from an image. -/
def createBay (s : State) (p : Packet) : State :=
  match readImage s (pw p.words 3) with
  | none => donePacket s p.id 0x10 0xFFFF
  | some w =>
    match newBay s (pBay p.words) w with
    | .inl st => donePacket s p.id st 0xFFFF
    | .inr b =>
      let eff := { s with bays := s.bays ++ [b] }.effNow b.bay
      match carve s b.parent b.bay eff.loft.toNat (coresIn eff.cores) with
      | none => donePacket s p.id 0x12 0xFFFF
      | some xs =>
        let b := { b with eff := eff, extents := xs }
        donePacket (zeroExtents { s with bays := s.bays ++ [b] } xs) p.id 0 0xFFFF

/-- The status with which a bay may not come under a parent: one that does not exist, that lies at or below the bay, or under which a
bay of the moved subtree would lie at depth 8 (R316, R323). -/
def reparentBad (s : State) (n parent : Nat) : Option Nat :=
  match s.bayAt parent, s.bayAt n with
  | some u, some b =>
    let lowest := (subtree s n).foldl (fun m x => max m (((s.bayAt x).map (·.depth)).getD 0)) b.depth
    if u.killing.isSome then some 0x11
    else if (subtree s n).contains parent || decide (7 < u.depth + 1 + (lowest - b.depth)) then some 0x12
    else none
  | _, _ => some 0x11

/-- A bay comes under a parent: its depth and those below it follow. -/
def reparent (s : State) (n parent : Nat) : State :=
  let below := subtree s n
  let old := ((s.bayAt n).map (·.depth)).getD 0
  let new := ((s.bayAt parent).map (·.depth)).getD 0 + 1
  let s := { s with bays := s.bays.map fun (b : Bay) => if below.contains b.bay then { b with depth := new + (b.depth - old) } else b }
  s.modBay n fun b => { b with parent := parent }

/-- Modifies a bay from an image: bay 0 keeps PARENT, OVR and LOFT, and its extent. -/
def modifyBay (s : State) (p : Packet) : State :=
  let n := pBay p.words
  match readImage s (pw p.words 3), s.bayAt n with
  | some w, some b =>
    let v := imageVals w
    let v := if n = 0 then { v with loft := b.own.loft } else v
    let ovr := if n = 0 then b.ovr else BitVec.ofNat 16 (bits (wordAt w 0) 48 16)
    let parent := if n = 0 then b.parent else bits (wordAt w 0) 12 12
    let move := if parent = b.parent then none else reparentBad s n parent
    if imageBad ovr w then donePacket s p.id 0x10 0xFFFF
    else if budgetBad ovr v then donePacket s p.id 0x12 0xFFFF
    else
      match move with
      | some st => donePacket s p.id st 0xFFFF
      | none =>
        let s1 := (if parent = b.parent then s else reparent s n parent).modBay n fun b => { b with own := v, ovr := ovr }
        let eff := s1.effNow n
        if n = 0 then donePacket (s1.modBay n fun b => { b with eff := eff }) p.id 0 0xFFFF
        else
          match refitAll s parent b eff.loft.toNat (coresIn eff.cores) with
          | none => donePacket s p.id 0x12 0xFFFF
          | some xs =>
            let xs := xs.filter fun x => x.units != 0
            let gone := unitsLost b.extents xs
            let inUse := s.bays.any fun c => c.bay != 0 && c.parent == n && gone.any fun x => holdsUnit c x.core x.first
            if inUse then donePacket s p.id 0x12 0xFFFF
            else
              let s := s1.modBay n fun b => { b with eff := eff, extents := xs }
              donePacket (zeroExtents s (gone ++ unitsLost xs b.extents)) p.id 0 0xFFFF
  | _, _ => donePacket s p.id 0x10 0xFFFF

/-- A packet is a BAY packet of an OP. -/
def isBay (op : Nat) (w : Vector W64 8) : Bool := pKind w == 2 && pOp w == op

/-- BAY_CREATE (R316, R318). -/
def execBayCreate (ring : Nat) (s : State) : Out := startPacket ring (isBay 0) s createBay

/-- BAY_MODIFY (R316, R317, R318). -/
def execBayModify (ring : Nat) (s : State) : Out := startPacket ring (isBay 1) s modifyBay

/-- BAY_KILL (R334): bay 0 is never killed; of any other bay, it and its descendants stop, and the packet completes when they have. -/
def execBayKill (ring : Nat) (s : State) : Out :=
  startPacket ring (isBay 2) s fun s p =>
    if pBay p.words = 0 then donePacket s p.id 0x12 0xFFFF else killBay s (pBay p.words) 2

/-! ### RUN packets (R322, R324, R326, R327, R365, R402) -/

/-- A buffer list entry, or none when it breaks R324. -/
def bufferOf (latch : W64) (ws : List W64) : Option Buffer :=
  let w0 := wordAt ws 0
  let o := bits (wordAt ws 1) 32 32
  let len := bits (wordAt ws 1) 0 32
  if bits w0 60 4 ≠ 0 ∨ len = 0 ∨ bits w0 56 2 = 0 ∨ 4 < bits w0 50 3 ∨ (bitAt w0 59 ∧ o ≠ 0xFFFFFFFF ∧ 4095 < o) then none
  else
    let obj : Option BindObj := if o = 0xFFFFFFFF then none
      else if bitAt w0 59 then some (.barrier o) else some (.latch (latch + w64 (64 * o)))
    some
      { addr := w64 (bits w0 0 50 * 64), len := len, mode := bits w0 50 3, col := BitVec.ofNat 3 (bits w0 53 3)
        acc := BitVec.ofNat 2 (bits w0 56 2), ored := bitAt w0 58, obj := obj }

/-- Every entry, or none when one breaks R324. -/
def buffersOf (latch : W64) : List (List W64) → Option (List Buffer)
  | [] => some []
  | e :: r =>
    match bufferOf latch e, buffersOf latch r with
    | some b, some l => some (b :: l)
    | _, _ => none

/-- The buffer list of a RUN; none when it cannot be read or is invalid. -/
def readBuffers (s : State) (w : Vector W64 8) : State × Option (List Buffer) :=
  let n := bits (pw w 4) 0 16
  if 1024 < n then (s, none)
  else if n = 0 then (s, some [])
  else
    match seqRead s (pBay w) (pw w 3) (16 * n) 16 with
    | (s, none) => (s, none)
    | (s, some b) =>
      match buffersOf (pw w 7) ((List.range n).map fun i => wordsOf (b.drop (16 * i)) 2) with
      | none => (s, none)
      | some l => (s, if 32 < (l.filter fun x => x.obj.isSome).length then none else some l)

/-- A linked part from its link list entry: none when the entry or its program is refused or cannot be read. -/
def readPart (s : State) (bay run : Nat) (ws : List W64) : State × Option Part :=
  let at_ := wordAt ws 1
  if wordAt ws 2 ≠ 0 ∨ wordAt ws 3 ≠ 0 then (s, none)
  else
    match (wordAt ws 0).toNat with
    | 0 =>
      match seqRead s bay at_ 64 64 with
      | (s, none) => (s, none)
      | (s, some b) =>
        let p := recordOf b
        if at_.toNat / 2 ^ 60 ≠ 0 ∨ spargeBad p then (s, none)
        else let (id, s) := s.bump; (s, some { id := id, run := some run, bay := bay, sparge := true, words := p })
    | 1 =>
      match seqRead s bay at_ 24 8 with
      | (s, none) => (s, none)
      | (s, some b) =>
        let l := wordsOf b 3
        if l.any fun x => x.toNat % 64 != 0 then (s, none)
        else
          let (id, s) := s.bump
          (s, some { id := id, run := some run, bay := bay, sparge := false, words := Vector.ofFn fun i => wordAt l i.val, started := true })
    | _ => (s, none)

/-- Every linked part. -/
def readParts (s : State) (bay run : Nat) : List (List W64) → State × Option (List Part)
  | [] => (s, some [])
  | e :: r =>
    match readPart s bay run e with
    | (s, none) => (s, none)
    | (s, some p) =>
      match readParts s bay run r with
      | (s, some l) => (s, some (p :: l))
      | (s, none) => (s, none)

/-- The linked parts of a RUN; none when the link list is invalid. -/
def readLinks (s : State) (run : Nat) (w : Vector W64 8) : State × Option (List Part) :=
  let n := bits (pw w 4) 16 16
  if 64 < n then (s, none)
  else if n = 0 then (s, some [])
  else
    match seqRead s (pBay w) (pw w 6) (32 * n) 32 with
    | (s, none) => (s, none)
    | (s, some b) => readParts s (pBay w) run ((List.range n).map fun i => wordsOf (b.drop (32 * i)) 4)

/-- The bytes of a policy as a CONFIG packet gives them (R357, R397). -/
def policyBytes (p : Policy) : List Byte :=
  wordBytes [w64 (p.cfmt.toNat * 2 ^ 49 + (if p.metric then 2 ^ 48 else 0) + p.maxdist.toNat * 2 ^ 40 + p.maxskip.toNat * 2 ^ 32 +
    p.thresh.toNat), w64 (p.cell.toNat * 2 ^ 32 + p.rbase.toNat)]

/-- The window bits of the manifest (R397). -/
def windowBits (s : State) : BitVec 32 :=
  BitVec.ofNat 32 (((List.range 16).map fun i =>
    let w := rd s.regs.l2w i 0
    (if bitAt w 63 then 2 ^ (2 * i) else 0) + (if bitAt w 62 then 2 ^ (2 * i + 1) else 0)).sum)

/-- The state in which a RUN begins in a bay. When no other RUN of the bay is in progress, the bay takes its effective values anew, since
it has no task to dispatch before (DESIGN CHOICE, see assumption 103), and its phases count from 0 (R290). -/
def openBay (s : State) (bay : Nat) : State :=
  if s.runs.any fun r => r.bay == bay then s
  else
    let eff := s.effNow bay
    let phases := ((s.barriers.lookup eff.phbar.toNat).map (·.phases)).getD 0
    s.modBay bay fun b => { b with eff := eff, phase0 := phases }

/-- A bay takes back what it had: a refused packet has no effect (R323). -/
def giveBack (s : State) (old : Option Bay) : State :=
  match old with
  | some x => s.modBay x.bay fun b => { b with eff := x.eff, phase0 := x.phase0 }
  | none => s

/-- Starts a RUN: its lists are read and checked, and its graph waits for a sequencer. -/
def startRun (s : State) (p : Packet) : State :=
  let w := p.words
  let bay := pBay w
  let old := s.bayAt bay
  let eff := s.effNow bay
  if eff.ptroot = 0 ∨ eff.savebase = 0 ∨ eff.flogbase = 0 then donePacket s p.id 0x12 0xFFFF
  else
    match readBuffers (openBay s bay) w with
    | (s, none) => donePacket (giveBack s old) p.id 0x13 0xFFFF
    | (s, some bufs) =>
      let (run, s) := s.bump
      match readLinks s run w with
      | (s, none) => donePacket (giveBack s old) p.id 0x13 0xFFFF
      | (s, some parts) =>
        let (graph, s) := s.bump
        let pols := ((s.bayAt bay).map fun b => b.policies.toArray.toList.flatMap policyBytes).getD []
        let r : Run :=
          { id := run, packet := p.id, bay := bay, graph := graph, seed := pw w 5, buffers := bufs, epoch0 := s.epoch, l2w := windowBits s
            policies := pols
            before := if s.runs.any fun x => x.bay == bay then none else old.map fun b => (b.eff, b.phase0) }
        let s := { s with runs := s.runs.map fun (x : Run) => if x.bay = bay then { x with before := none } else x }
        let g : Graph := { id := graph, run := run, bay := bay, desc := pw w 2 }
        { s with runs := s.runs ++ [r], graphs := s.graphs ++ [g], parts := s.parts ++ parts }

/-- RUN_PACKET (R322). -/
def execRunPacket (ring : Nat) (s : State) : Out := startPacket ring (fun w => pKind w == 1) s startRun

/-! ### COPY, FENCE and SIGNAL packets -/

/-- COPY_PACKET (R322, R323): a firmware copy in the bay's address space; a fault stops it. -/
def execCopyPacket (ring : Nat) (s : State) : Out :=
  startPacket ring (fun w => pKind w == 3) s fun s p =>
    match fwCopy s (pBay p.words) (pw p.words 2) (pw p.words 3) ((pw p.words 4).toNat / 64) with
    | (s, none) => donePacket s p.id 0 0xFFFF
    | (s, some f) => donePacket s p.id 4 (w64 (0xFFFF + f.1.toNat * 2 ^ 16))

/-- FENCE_PACKET (R321): it stands in the ring's open packets, and later ones do not start, until the earlier ones have completed. -/
def execFencePacket (ring : Nat) (s : State) : Out := startPacket ring (fun w => pKind w == 4) s fun s _ => s

/-- SIGNAL_PACKET (R322): it completes once every earlier packet of the ring has. -/
def execSignalPacket (ring : Nat) (s : State) : Out := startPacket ring (fun w => pKind w == 5) s fun s _ => s

/-! ### CONFIG packets -/

/-- A packet is a CONFIG packet of a SUB. -/
def isConfig (sub : Nat) (w : Vector W64 8) : Bool := pKind w == 6 && pSub w == sub

/-- CONFIG_RIDGE_BARRIER (R322, R223): TARGET and scope are set and everything else of the barrier is cleared; TARGET 0 unconfigures. -/
def execConfigRidgeBarrier (ring : Nat) (s : State) : Out :=
  startPacket ring (isConfig 0) s fun s p =>
    let w3 := pw p.words 3
    let n := bits w3 0 12
    let fresh : Barrier := { target := bits w3 12 16, scope := BitVec.ofNat 3 (bits w3 28 3) }
    -- the phases of the bays that it counts begin again at 0 (R290)
    let s := { s with bays := s.bays.map fun (b : Bay) => if b.eff.phbar.toNat = n then { b with phase0 := 0 } else b }
    donePacket (s.modBarrier n fun _ => fresh) p.id 0 0xFFFF

/-- Two physical addresses lie in one target of R259. -/
def sameTarget (a b : Nat) : Bool :=
  match target a, target b with
  | .hbm, .hbm => true
  | .host, .host => true
  | .pool, .pool => true
  | .remote p _, .remote q _ => p == q
  | _, _ => false

/-- A publish slot record, or none when R271 refuses it in the slot. -/
def pubRecord (s : State) (slot bay : Nat) (w : Nat → W64) : Option PubSlot :=
  let res := bits (w 0) 56 8 + bits (w 0) 0 16 + bits (w 1) 48 16 + bits (w 1) 0 16 + bits (w 2) 48 16 + bits (w 2) 0 16 + bits (w 3) 32 18
  let v := bits (w 0) 16 40
  let n := bits (w 3) 0 32
  let one (b : Nat) : Bool := sameTarget (b * 65536) ((b + n) * 65536 - 1)
  let clash := s.pubs.toArray.toList.zipIdx.any fun p =>
    p.2 != slot && p.1.en && decide (v < p.1.vbase.toNat + p.1.nblk.toNat ∧ p.1.vbase.toNat < v + n)
  if res ≠ 0 ∨ n = 0 ∨ !one (bits (w 1) 16 32) ∨ !one (bits (w 2) 16 32) ∨ clash then none
  else
    some
      { vbase := BitVec.ofNat 40 v, b0 := BitVec.ofNat 32 (bits (w 1) 16 32), b1 := BitVec.ofNat 32 (bits (w 2) 16 32)
        nblk := BitVec.ofNat 32 n, sel := bitAt (w 3) 50, en := bitAt (w 3) 51, bay := BitVec.ofNat 12 bay }

/-- CONFIG_PUBLISH_SLOT (R271): the whole record is written, or refused with the slot unchanged. -/
def execConfigPublishSlot (ring : Nat) (s : State) : Out :=
  startPacket ring (isConfig 1) s fun s p =>
    let n := bits (pw p.words 3) 0 8
    match pubRecord s n (pBay p.words) fun i => pw p.words (4 + i) with
    | none => donePacket s p.id 0x10 0xFFFF
    | some x => donePacket { s with pubs := wr s.pubs n x } p.id 0 0xFFFF

/-- A range of virtual addresses meets another. -/
def meets (a n b m : Nat) : Bool := decide (a < b + m ∧ b < a + n)

/-- Work issued before a packet started that translated in a range of a bay has not been performed: counted accesses, waiting X ops, the
latches of background RELs; copies do not keep the virtual addresses they translated, so every earlier copy of the bay counts. -/
def rangeBusy (s : State) (bay va len mark since : Nat) : Bool :=
  let inRange (ps : List Piece) : Bool := ps.any fun p => meets p.va.toNat p.len va len
  s.cores.toArray.toList.zipIdx.any fun x =>
    let c := x.1
    c.task.isSome && s.bayOn x.2 == bay &&
      ((c.e.xacc.any fun a => decide (a.id < mark) && !a.done && inRange a.pieces) ||
        (c.e.xrun.toArray.toList.any fun r => match r with | some r => decide (r.since ≤ since) && inRange r.pieces | none => false) ||
        (c.e.bg.any fun b => decide (b.id < mark) && match b.kind with | .rel ps _ => inRange ps | _ => false) ||
        c.e.ch.toArray.toList.any fun h => h.copies.any fun k => decide (k.k < mark) && k.gran.any fun g => !g.2.2)

/-- CONFIG_TRANSLATION_INVALIDATION (R268): the translations are dropped; the packet completes when accesses made with them have been
performed. -/
def execConfigTranslationInvalidation (ring : Nat) (s : State) : Out :=
  startPacket ring (isConfig 2) s fun s p =>
    let lo := (pw p.words 3).toNat
    forgetRange s (pBay p.words) lo (lo + (pw p.words 4).toNat)

/-- A Cask policy, or none when R357 refuses it. -/
def policyFrom (w4 w5 : W64) : Option Policy :=
  let cfmt := bits w4 49 4
  if bits w4 53 11 ≠ 0 ∨ ¬(cfmt = 6 ∨ cfmt = 7 ∨ cfmt = 8) ∨ bits w5 32 32 = 0 then none
  else
    some
      { thresh := BitVec.ofNat 32 (bits w4 0 32), maxskip := BitVec.ofNat 8 (bits w4 32 8), maxdist := BitVec.ofNat 8 (bits w4 40 8)
        metric := bitAt w4 48, cfmt := BitVec.ofNat 4 cfmt, rbase := BitVec.ofNat 32 (bits w5 0 32), cell := BitVec.ofNat 32 (bits w5 32 32)
        configured := true }

/-- CONFIG_CASK_POLICY (R357): the policy is replaced whole; the RUNs of the bay in progress keep its bytes for the manifest (R397). -/
def execConfigCaskPolicy (ring : Nat) (s : State) : Out :=
  startPacket ring (isConfig 3) s fun s p =>
    match policyFrom (pw p.words 4) (pw p.words 5) with
    | none => donePacket s p.id 0x10 0xFFFF
    | some pol =>
      let bay := pBay p.words
      let s := s.modBay bay fun b => { b with policies := wr b.policies (bits (pw p.words 3) 0 6) pol }
      let s := { s with runs := s.runs.map fun (r : Run) => if r.bay = bay then { r with policies := r.policies ++ policyBytes pol } else r }
      donePacket s p.id 0 0xFFFF

/-! ### The next packet, whatever it is -/

/-- A packet whose KIND, OP or SUB is none that has a meaning. -/
def isOther (w : Vector W64 8) : Bool :=
  match pKind w with
  | 1 => false
  | 2 => pOp w == 3
  | 3 => false
  | 4 => false
  | 5 => false
  | 6 => decide (3 < pSub w)
  | _ => true

/-- The next packet of a ring starts. -/
def execRing (ring : Nat) (s : State) : Out :=
  match nextWords s ring with
  | none => .next s
  | some w =>
    if isOther w then startPacket ring isOther s fun s p => donePacket s p.id 0x10 0xFFFF
    else
      match pKind w, pOp w, pSub w with
      | 1, _, _ => execRunPacket ring s
      | 2, 0, _ => execBayCreate ring s
      | 2, 1, _ => execBayModify ring s
      | 2, _, _ => execBayKill ring s
      | 3, _, _ => execCopyPacket ring s
      | 4, _, _ => execFencePacket ring s
      | 5, _, _ => execSignalPacket ring s
      | 6, _, 0 => execConfigRidgeBarrier ring s
      | 6, _, 1 => execConfigPublishSlot ring s
      | 6, _, 2 => execConfigTranslationInvalidation ring s
      | _, _, _ => execConfigCaskPolicy ring s

/-! ### Completion (R321, R323, R345, R397, R398) -/

/-- The status of a RUN that has ended (R323). -/
def runStatus (r : Run) : Nat := if r.escalated then 3 else if r.killed then 2 else if r.nFault = 0 then 0 else 1

/-- A RUN's graph has ended, no task or graph of it is left, and each linked part that started has ended (R327). -/
def runOver (s : State) (r : Run) : Bool :=
  runEnded s r.id && !(s.tasks.any (·.run == r.id)) && !(s.graphs.any fun g => g.run == r.id && g.id != r.graph) &&
    !(s.parts.any fun p => p.run == some r.id && p.started && !p.done)

/-- The failing task of a RUN with the lowest step and index. -/
def firstFail (l : List Fail) : Option Fail :=
  l.foldl (fun m f => match m with
    | some x => if f.step < x.step ∨ f.step = x.step ∧ f.index < x.index then some f else m
    | none => some f) none

/-- w2 of a RUN's record (R323). -/
def failWord (l : List Fail) : W64 :=
  match firstFail l with
  | none => 0xFFFF
  | some f => w64 (f.step % 65536 * 2 ^ 32 + (if f.killed then 2 ^ 25 else f.cause.toNat * 2 ^ 16) + f.index % 65536)

/-- The RUN of a packet. -/
def runOf (s : State) (p : Packet) : Option Run := s.runs.find? (·.packet == p.id)

/-- A packet's status and w2, once it has completed. -/
def packetEnd (s : State) (p : Packet) : Option (Nat × W64) :=
  match p.done with
  | some d => some d
  | none =>
    let earlier := s.packets.any fun q => q.ring == p.ring && decide (q.id < p.id)
    match pKind p.words with
    | 1 => match runOf s p with
      | some r => if runOver s r then some (runStatus r, failWord r.fails) else none
      | none => none
    | 2 =>
      let gone := subtree s (pBay p.words)
      if s.tasks.any (fun t => gone.contains t.bay) || s.graphs.any (fun g => gone.contains g.bay && g.stat != .ended) ||
        s.runs.any (fun r => gone.contains r.bay) then none
      else some (0, 0xFFFF)
    | 6 => if rangeBusy s (pBay p.words) (pw p.words 3).toNat (pw p.words 4).toNat p.id p.since then none else some (0, 0xFFFF)
    | _ => if earlier then none else some (0, 0xFFFF)

/-- Kernels in ascending order of ENTRY. -/
def insertKernel (k : Nat × List Byte) : List (Nat × List Byte) → List (Nat × List Byte)
  | [] => [k]
  | x :: r => if k.1 ≤ x.1 then k :: x :: r else x :: insertKernel k r

/-- What an SPDM index measures: a firmware layer, or, at index 15, the images of the 320 cores in force, in core order (R396; assumption 15). -/
def measured (s : State) (index : Nat) : List Byte :=
  if index = 15 then (List.range 320).flatMap fun n => (s.core n).image else Config.firmwareLayer s.epoch.toNat index

/-- The measurement value of an SPDM index: the SHAKE256 digest of what it measures (R396). -/
def measurementBytes (s : State) (index : Nat) : List Byte := shake256 (measured s index)

/-- A manifest entry (R397). -/
def manifestEntry (s : State) (p : Packet) (r : Run) (status : Nat) : List Byte :=
  let tag := bits (pw p.words 0) 32 32
  let w0 := tag * 2 ^ 32 + r.bay % 4096 * 2 ^ 20 + p.ring % 64 * 2 ^ 14 + r.profs.toNat % 16 * 2 ^ 10 +
    (if s.epoch = r.epoch0 then 0 else 2 ^ 9) + if r.codebad then 2 ^ 8 else 0
  let code := (r.kernels.foldr insertKernel []).flatMap (·.2)
  let fw := (List.range 15).flatMap fun i => measurementBytes s (i + 1)
  wordBytes [w64 w0, r.seed, w64 (r.l2w.toNat * 2 ^ 32 + s.epoch.toNat), w64 status] ++ shake256 code ++ shake256 r.policies ++
    shake256 fw ++ List.replicate 32 0

/-- A count in a 16-bit field (R323). -/
def sat16 (n : Nat) : Nat := min n 0xFFFF

/-- A full count (R323). -/
def sat32 (n : Nat) : Nat := min n 0xFFFFFFFF

/-- The words of a completion record (R323). -/
def completionWords (s : State) (p : Packet) (status : Nat) (w2 : W64) (r : Option Run) : List W64 :=
  let c := (r.map fun r => (r.nRet, r.nSkip, r.nFault, r.nKill)).getD (0, 0, 0, 0)
  [w64 (bits (pw p.words 0) 32 32 * 2 ^ 32 + pKind p.words * 2 ^ 8 + status),
   w64 (sat16 c.1 + sat16 c.2.1 * 2 ^ 16 + sat16 c.2.2.1 * 2 ^ 32 + sat16 c.2.2.2 * 2 ^ 48), w2, w64 s.now,
   w64 (sat32 c.1 + sat32 c.2.1 * 2 ^ 32), w64 (sat32 c.2.2.1 + sat32 c.2.2.2 * 2 ^ 32), 0, 0]

/-- Writes a completion record in the bay's address space; one that meets a fault is lost and logged, and in a bay that does not exist
it is lost. It is performed at system scope, and an address of another space than 0x0 is one that cannot be written. -/
def writeCompletion (s : State) (p : Packet) (ws : List W64) : State :=
  let bay := pBay p.words
  let va := pw p.words 1
  if va = 0 ∨ (s.bayAt bay).isNone then s
  else if va.toNat / 2 ^ 60 ≠ 0 then logEvent s bay 0xFFFF 0 12 0x0B2 0 va 0 0
  else
    match agentWrite s { device bay 6 with sys := true } va 64 (wordBytes ws) with
    | (s, none) => s
    | (s, some e) => logEvent s bay 0xFFFF 0 12 e.cause 0 e.addr 0 0

/-- What a completed RUN leaves: nothing but its manifest entry. -/
def removeRun (s : State) (r : Run) : State :=
  { s with
    runs := s.runs.filter fun (x : Run) => x.id != r.id
    graphs := s.graphs.filter fun (g : Graph) => g.run != r.id
    parts := s.parts.filter fun (p : Part) => p.run != some r.id }

/-- PACKET_COMPLETION_RECORD (R323, R325): a packet that has completed has its manifest entry kept and its buffers written back, if it is a
RUN that was not refused, then writes its record, and is gone; so are killed bays in which nothing is left. -/
def execPacketCompletionRecord (packet : Nat) (s : State) : Out :=
  match s.packets.find? (·.id == packet) with
  | none => .next s
  | some p =>
    match packetEnd s p with
    | none => .next s
    | some (status, w2) =>
      let r := runOf s p
      let s := match r with
        | some r =>
          let m := s.manifest ++ [manifestEntry s p r status]
          pushBuffers { s with manifest := m.drop (m.length - 64) } r
        | none => s
      let s := writeCompletion s p (completionWords s p status w2 r)
      let s := match r with | some r => removeRun s r | none => s
      .next (reapBays { s with packets := s.packets.filter fun (q : Packet) => q.id != packet })

end Sys2Proof.Machine
end

