-- ==== Sys2Proof/Machine/Links.lean ====
section
/-! DEFINITION. Other agents and the paths to them: requests of other packages (R370, R371, R372, R375, R376, R378), link errors
(R374), errors of the CXL ports (R379), the host's registers (R319, R353, R370 to R381) and its accesses to memory (R286 to R288). -/

namespace Sys2Proof.Machine

/-! ### Machine events (R307) -/

/-- A class-5 event that names no task: it goes to bay 0's log, and a corrected error is counted (R387, R398). No detail word is defined
for these causes, so both are zero (R301). -/
def rasEvent (s : State) (cause : BitVec 9) : State :=
  let k := (cause.toNat - 0x140) / 8
  let s := if cause.toNat % 8 = 0 ∧ k < 6 then
      { s with telemetry := { s.telemetry with corrected := wr s.telemetry.corrected k (rd s.telemetry.corrected k 0 + 1) } }
    else s
  logRecord s 0 (eventWords s 0 0xFFFF 0 13 cause 0 0 0 0)

/-! ### Accesses that end with fault kind 6 (R307, R374, R379, R390) -/

/-- A counted access ends without its data: its count is released, its tag clears, its register keeps its value, elements of a gather
take a value that is not given, and the fault is reported asynchronously (R297). Data lost of a Cask cell invalidates its entry (R364). -/
def loseCounted (s : State) (core : Nat) (a : XAcc) (kind : Nat) : State :=
  let isStore := !accReads a
  let (n, s) := s.bump
  let s := (dropAcc s core a.id).modE core fun e =>
    { e with cL := if isStore then e.cL else e.cL - 1, cS := if isStore then e.cS - 1 else e.cS
             gq := e.gq.map fun g => if g.acc = a.id ∧ g.val.isNone then { g with val := some (Config.lostElement n) } else g }
  accFault (landSince s core a.slot a.since 1 [] a.tag) core a kind

/-- A generator's access ends without its data: its register keeps its value, and the fault is reported at its instruction, after which
nothing of its context has issued (R106, R293, R296, R303). An access whose bytes have come cannot end so. -/
def loseGenLoad (s : State) (core : Nat) (x : Ctx) (id kind : Nat) : State :=
  let g := (s.core core).gctx x
  match g.loads.find? fun l => l.id == id && l.firm with
  | none => s
  | some l =>
    let s := s.modG core x fun g => { g with loads := g.loads.filter fun l => l.id != id }
    let who : Who := { core := some core, bay := s.bayOn core, kind := l.kind, task := (s.core core).task }
    let s := if l.kind = 1 then s else dropRead s who kind l.va 1
    raise s core { src := 8, cause := class2 l.kind kind, levelE := false, async := false, hm := l.hm, ctx := x,
                   gpc := l.gpc, opbits := l.bits, addr := l.va }

/-- A copy ends without having been delivered: the channel stops, and its pointer goes no further than the bytes delivered before the
first one lost (R213). -/
def loseCopy (s : State) (core ch k access kind : Nat) : State :=
  let c := chanOf s core ch
  match c.copies.find? (·.k == k) with
  | none => s
  | some x =>
    let first := x.off + 4 * (x.gran.findIdx? fun g => !g.2.2).getD 0
    let cut := if x.run = c.runId then some (min first (c.lostAt.getD first)) else c.lostAt
    let s := modChan s core ch fun c => { c with copies := c.copies.filter fun x => x.k != k, lostAt := cut }
    let (sa, _, out) := copyPlace c x.iter
    let s := if access = 5 then dropRead s (copyWho s core ch 5) kind sa (sourceLen c.run x.iter out) else s
    copyFault s core ch 9 (class2 access kind) 0 x.iter

/-- The channel of a core with an undelivered copy of a number. -/
def copyChannel (s : State) (core k : Nat) : Option Nat :=
  (List.range 8).find? fun ch => (chanOf s core ch).copies.any fun x => x.k == k && undelivered x

/-- The access kind with which a copy ends whose read or write of a selected place has ended: 6 while it has such a write to be
acknowledged, 5 when it has read such a place; none when it has neither. -/
def copyPart (which : Loc → Bool) (x : Copy) : Option Nat :=
  let writes := x.away.any fun n => match x.gran[n]? with
    | some g => !g.2.2 && which g.1
    | none => false
  if writes then some 6 else if x.src.any which then some 5 else none

/-- The REL of a number whose increment has left for another package ends with a fault kind: it is a slot atomic of that kind (R220, R307). -/
def loseRel (s : State) (core id kind : Nat) : State :=
  match (s.core core).e.bg.find? fun b => b.id == id && b.away with
  | none => s
  | some b =>
    let va := match b.kind with
      | .rel ps _ => (ps.head?.map (·.va)).getD 0
      | _ => 0
    replyFault (relDone s core id) core b.ctx (class2 4 kind) va

/-- An access of a core ends with a fault kind, if it is one of those selected: `counted` says so of a counted access, `copy` gives the
access kind of a copy. -/
def loseAccess (s : State) (core id : Nat) (counted : XAcc → Bool) (copy : Copy → Option Nat) (kind : Nat) : State :=
  match (s.core core).e.xacc.find? (·.id == id) with
  | some a => if counted a then loseCounted s core a kind else s
  | none =>
    match copyChannel s core id with
    | some ch =>
      match ((chanOf s core ch).copies.find? (·.k == id)).bind copy with
      | some a => loseCopy s core ch id a kind
      | none => s
    | none =>
      if (s.core core).e.user.loads.any (·.id == id) then loseGenLoad s core .user id kind
      else if (s.core core).fw.loads.any (·.id == id) then loseGenLoad s core .firmware id kind
      else loseRel s core id kind

/-- The package a place lies in, when it is another's. -/
def remotePkg (s : State) (l : Loc) : Option (Nat × Nat) :=
  match l with
  | .phys pa => match target pa with
    | .remote pkg _ => if pkg = s.regs.plkSelf.toNat then none else some (pkg, pa)
    | _ => none
  | _ => none

/-- An access to a place uses a link. -/
def usesLink (s : State) (link : Nat) (l : Loc) : Bool :=
  match remotePkg s l with
  | some (pkg, pa) => linkTo s pkg pa == some link
  | none => false

/-- An access to a place uses a CXL port: port 0 for host memory, port 1 for the pool (R379). -/
def usesPort (port : Nat) (l : Loc) : Bool :=
  match l with
  | .phys pa => match target pa with
    | .host => port == 0
    | .pool => port == 1
    | _ => false
  | _ => false

/-! ### Purlin links (R374) -/

/-- Link `n`. -/
def linkOf (s : State) (n : Nat) : Link := rd s.links n {}

/-- FLIT_CRC_RETRY (R374): the flit is sent again in its place, and the retry is logged. -/
def execFlitCrcRetry (_link : Nat) (s : State) : Out := .next (rasEvent s 0x160)

/-- LANE_FAILURE (R374): a spare lane takes the lane's place, or the link runs at reduced width. -/
def execLaneFailure (link : Nat) (s : State) : Out :=
  let l := linkOf s link
  if l.spares ≠ 0 then .next (rasEvent { s with links := wr s.links link { l with spares := l.spares - 1 } } 0x163)
  else .next (rasEvent { s with links := wr s.links link { l with lanes := l.lanes - 1 } } 0x165)

/-- FLIT_LOST (R374): the access that the flit carried, which has left, ends with fault kind 6. -/
def execFlitLost (link core id : Nat) (s : State) : Out :=
  let s := rasEvent s 0x161
  .next (loseAccess s core id (fun a => a.done && a.pieces.any fun p => usesLink s link p.loc) (copyPart (usesLink s link)) 6)

/-- A place lies in another package. -/
def isRemote (s : State) (l : Loc) : Bool := (remotePkg s l).isSome

/-- Another package denies a request of a core (R370, R375): the counted access or copy that it was ends with fault kind 4. -/
def deniedThere (s : State) (core id : Nat) : State :=
  loseAccess s core id (fun a => a.done && a.pieces.any fun p => isRemote s p.loc) (copyPart (isRemote s)) 4

/-- Another package has not applied a byte post of a channel (R225, R376): the channel stops with 0x100 or 0x102. -/
def refusedThere (s : State) (core ch iter : Nat) (cause : BitVec 9) : State :=
  if (cause = 0x100 ∨ cause = 0x102) ∧ (s.core core).task.isSome then copyFault s core ch 11 cause 0 iter else s

/-- LINK_DOWN (R374): the link leaves every route set, and class-2 flits not acknowledged leave on another link of their route, or are
dropped when none is left. -/
def execLinkDown (link : Nat) (s : State) : Out :=
  let l := linkOf s link
  let route := s.regs.plkRoute.map fun w => if link < 12 then setBit w link false else w
  let s := { s with
    regs := { s.regs with plkRoute := route }
    links := wr s.links link { l with up := false, unacked := [] } }
  .next (l.unacked.foldl (fun s f => sendSync s f.1 f.2) (rasEvent s 0x166))

/-! ### Requests of other packages (R370, R372, R375, R376, R378) -/

/-- The number of bytes that a request touches. -/
def opLen (o : RemoteOp) : Nat :=
  match o with
  | .read n => n
  | .write d => d.length
  | .atomic _ wide _ _ => amoLen wide
  | _ => 0

/-- The first enabled Loft window that an HBM offset falls in (R375): its first word, and the place of the offset in a core's Loft. -/
def loftWindow (s : State) (off : Nat) : Option (W64 × Nat × Nat) :=
  s.regs.plkLwin.toArray.toList.findSome? fun w =>
    let base := bits w.2 0 28 * 2048
    let len := bits w.2 28 12 * 2048
    let core := bits w.1 45 9
    let loft := bits w.1 0 23
    if bitAt w.1 63 && len != 0 && decide (core ≤ 319) && decide (loft + len ≤ 0x600000) && decide (base ≤ off ∧ off < base + len) then
      some (w.1, core, loft + (off - base))
    else none

/-- A request ends with a fault kind at its agent. -/
def denyRemote (s : State) (r : RemoteRequest) : State := { s with sent := s.sent ++ [.denied r.package 4] }

/-- An access of another package is served: by a Loft window that holds its offset, under the window's own fields, or at the point of
coherence of HBM after the access tables (R289, R370, R375). A write is acknowledged once it is performed at system scope. -/
def serveRemote (s : State) (r : RemoteRequest) : State :=
  let reads := match r.op with | .write _ => false | _ => true
  let writes := match r.op with | .read _ => false | _ => true
  let isAtomic := reads && writes
  let n := opLen r.op
  match loftWindow s r.offset with
  | some (w, core, off) =>
    let allowed := (bitAt w 54 || bits w 55 6 == r.package) && !isAtomic && (!reads || bitAt w 62) && (!writes || bitAt w 61)
    if !allowed then denyRemote s r
    else
      match r.op with
      | .write d =>
        let s := (heal s (.loft core) off d.length).modCore core fun c => { c with loft := memWrite c.loft off d }
        { s with sent := s.sent ++ [.ack r.package] }
      | _ => { s with sent := s.sent ++ [.readData r.package (memRead (s.core core).loft off n)] }
  | none =>
    if !eavAllows s r.package r.group r.offset n reads writes false then denyRemote s r
    else
      match r.op with
      | .write d => { throughWrite s r.offset d with sent := s.sent ++ [.ack r.package] }
      | .atomic op _ operand cmp =>
        let old := pocRead s r.offset n
        let new := amoNew op.toNat (8 * n) (ofBytes old) operand.toNat cmp.toNat
        { pocWrite s r.offset (toBytes n new) with sent := s.sent ++ [.readData r.package old] }
      | _ => { s with sent := s.sent ++ [.readData r.package (pocRead s r.offset n)] }

/-- A byte post, a child's arrival or a completion reaches a barrier of this package. A post that is not applied is reported to its
package, whose channel stops (R225, R376); a child's arrival that R223 would fault has no core here to fault and is not applied. -/
def applySync (s : State) (r : RemoteRequest) : State :=
  match r.op with
  | .post n len =>
    let refused (cause : BitVec 9) : State := { s with sent := s.sent ++ [.postFault r.package cause] }
    if (s.barrier n).target = 0 then refused 0x102
    else
      match addPend (s.barrier n) (-Int.ofNat len) with
      | some b => s.modBarrier n fun _ => b
      | none => refused 0x100
  | .childArrival n child =>
    if (s.barrier n).target = 0 then s
    else
      match arriveAt (s.barrier n) (some (r.package, child)) with
      | some (b, _) => s.modBarrier n fun _ => b
      | none => s
  | .treeCompletion n => if (s.barrier n).closed then completePhase s n else s
  | .syncAck link k =>
    let l := linkOf s link
    { s with links := wr s.links link { l with unacked := l.unacked.drop k } }
  | _ => s

/-- REMOTE_REQUEST_ARRIVAL (R372, R375): traffic for another package is passed on by this package's route entry for it; a request for
this one is served. -/
def execRemoteRequestArrival (r : RemoteRequest) (s : State) : Out :=
  if r.target ≠ s.regs.plkSelf.toNat then
    match linkTo s r.target r.offset with
    | some l => .next { s with sent := s.sent ++ [.forward l r] }
    | none => .next s
  else if 2 ^ 39 < r.offset + opLen r.op then .next s
  else
    match r.op with
    | .read _ => .next (serveRemote s r)
    | .write _ => .next (serveRemote s r)
    | .atomic _ _ _ _ => .next (serveRemote s r)
    | .reply _ => .next s
    | _ => .next (applySync s r)

/-- LONG_REACH_READ_ARRIVAL (R371, R289): a read that a cabled package sends to a stack's endpoint, checked with LR; it returns only
stores performed at system scope. -/
def execLongReachReadArrival (stack package group offset len : Nat) (s : State) : Out :=
  if offset / 2048 % 8 ≠ stack ∨ 2 ^ 39 < offset + len then .next s
  else if !eavAllows s package group offset len true false true then .next { s with sent := s.sent ++ [.denied package 4] }
  else .next { s with sent := s.sent ++ [.readData package (systemRead s offset len)] }

/-! ### The CXL ports (R286, R287, R379) -/

/-- A device read over a port ends with fault kind 6. -/
def losePortRead (s : State) (port core id : Nat) : State :=
  loseAccess s core id (fun a => accReads a && a.pieces.any fun p => usesPort port p.loc)
    (fun x => if x.src.any (usesPort port) then some 5 else none) 6

/-- CXL_POISONED_COMPLETION (R379). -/
def execCxlPoisonedCompletion (port core id : Nat) (s : State) : Out := .next (losePortRead (rasEvent s 0x169) port core id)

/-- CXL_COMPLETION_TIMEOUT (R379). -/
def execCxlCompletionTimeout (port core id : Nat) (s : State) : Out := .next (losePortRead (rasEvent s 0x16E) port core id)

/-- HOST_CXL_MEM_ACCESS (R287): a host access to HBM, performed at the line's point of coherence and not checked by the access tables;
without data it reads. -/
def execHostCxlMemAccess (address len : Nat) (data : List Byte) (s : State) : Out :=
  if 2 ^ 39 < address + max len data.length then .next s
  else
    match data with
    | [] => .next { s with sent := s.sent ++ [.hostRead (pocRead s address len)] }
    | d => .next (pocWrite s address d)

/-- An address lies in host memory or in the pool. -/
def inCxl (pa : Nat) : Bool := match target pa with | .host => true | .pool => true | _ => false

/-- CXL_CACHE_SNOOP (R286, R288): the host or a pool device asks for a line, and gets it as package scope holds it; or it writes bytes
of its memory, and the L2 copies give way. No L1 is reached. -/
def execCxlCacheSnoop (address : Nat) (data : List Byte) (s : State) : Out :=
  match data with
  | [] =>
    let line := address / 64 * 64
    if inCxl address then .next { s with sent := s.sent ++ [.snoopData line (pocRead s line 64)] } else .next s
  | d =>
    if inCxl address && inCxl (address + d.length - 1) then
      let s := heal ((granules address d.length).foldl dropSector s) .phys address d.length
      .next { s with mem := memWrite s.mem address d }
    else .next s

/-- Another host writes a byte of pool memory whose device sends no back-invalidation: a copy that the L2 holds stays as it was (R288). -/
def poolPut (s : State) (a : Nat) (b : Byte) : State :=
  match l2Sector s (a / 64) with
  | none => { s with mem := memSet s.mem a b }
  | some x =>
    let x' : Sector := { x with back := setBits x.back (8 * (a % 64)) 8 b.toNat }
    { s with l2 := s.l2.map fun l => if l.pa == a / 64 / 2 then l.setSector (a / 64 % 2 == 1) (some x') else l }

/-- Bytes that another host writes to the pool without back-invalidation (R288). -/
def poolWrite (s : State) (a : Nat) : List Byte → State
  | [] => s
  | b :: r => poolWrite (if target a == .pool then poolPut (heal s .phys a 1) a b else s) (a + 1) r

/-! ### The L2 under firmware's hand (R257, R258, R387) -/

/-- Firmware writes an L2 window: the lines that the window covers, before and after, are brought home first (R258), and the reserved bits
keep zero (R257). -/
def writeWindow (s : State) (n : Nat) (value : W64) : State :=
  let v := value &&& 0xC000000FFFFFFFFF
  let covered (l : L2Line) : Bool := windowCovers (rd s.regs.l2w n 0) (l.pa * 128) || windowCovers v (l.pa * 128)
  let s := { s with
    l2 := s.l2.map fun l => if covered l then { l with slice := homeSlice (l.pa * 128), run := 0 } else l
    regs := { s.regs with l2w := wr s.regs.l2w n v } }
  (List.range 40).foldl trimSlice s

/-! ### BAR0 (R379) -/

/-- One of a pair of words. -/
def half (hi : Bool) (p : W64 × W64) : W64 := if hi then p.2 else p.1

/-- A pair with one word written. -/
def setHalf (hi : Bool) (p : W64 × W64) (v : W64) : W64 × W64 := if hi then (p.1, v) else (v, p.2)

/-- A write of HST_FQVERD (R381): any other bit set, or another verdict, is ignored. -/
def writeVerdict (s : State) (v : W64) : State :=
  if v &&& ~~~0x0300000001FFFFFF ≠ 0 then s
  else
    match bits v 56 2 with
    | 1 => verdict s (bits v 0 25) true
    | 2 => verdict s (bits v 0 25) false
    | _ => s

/-- REGISTER_WRITE (R379): a write of 8 bytes at an offset of BAR0. Reserved fields stay zero; MSQ registers and offsets not listed
ignore writes (R353). -/
def execRegisterWrite (offset : Nat) (value : W64) (s : State) : Out :=
  let o := offset
  let r := s.regs
  let n16 (base : Nat) : Nat := (o - base) / 16
  let hi := o / 8 % 2 == 1
  if o % 8 ≠ 0 then .next s
  else if o < 0x400 then .next (if hi then writeRing s (n16 0) none (some value) else writeRing s (n16 0) (some value) none)
  else if o = 0x400 then .next (writeFq s value s.fq.w1)
  else if o = 0x408 then .next (writeFq s s.fq.w0 value)
  else if o = 0x410 then .next (writeVerdict s value)
  else if o = 0x1000 then .next { s with regs := { r with eavCtl := bitAt value 0 } }
  else if 0x2000 ≤ o ∧ o < 0x3000 then
    let v := if hi then value &&& 0x00000000007FFFFF else value &&& 0xFFFF0000007FFFFF
    .next { s with regs := { r with eavAct := wr r.eavAct (n16 0x2000) (setHalf hi (rd r.eavAct (n16 0x2000) (0, 0)) v) } }
  else if o = 0x3000 then .next { s with regs := { r with plkSelf := value.setWidth 6 } }
  else if 0x3100 ≤ o ∧ o < 0x3300 then
    .next { s with regs := { r with plkRoute := wr r.plkRoute ((o - 0x3100) / 8) (value &&& 0x80000000000FFFFF) } }
  else if 0x3400 ≤ o ∧ o < 0x3500 then
    let v := if hi then value &&& 0x000000FFFFFFFFFF else value &&& 0xFFFFE000007FFFFF
    .next { s with regs := { r with plkLwin := wr r.plkLwin (n16 0x3400) (setHalf hi (rd r.plkLwin (n16 0x3400) (0, 0)) v) } }
  else if 0x3800 ≤ o ∧ o < 0x3A00 then
    .next { s with regs := { r with rdgTree := wr r.rdgTree ((o - 0x3800) / 8) (value &&& 0x800000003FFFFFFF) } }
  else .next s

/-- What a read of 8 bytes at an offset of BAR0 returns (R319, R353, R370 to R379); an offset not listed, and HST_FQVERD, read as zero. -/
def readBar0 (s : State) (offset : Nat) : W64 :=
  let o := offset
  let r := s.regs
  let n16 (base : Nat) : Nat := (o - base) / 16
  let hi := o / 8 % 2 == 1
  if o % 8 ≠ 0 then 0
  else if o < 0x400 then half hi ((ringOf s (n16 0)).w0, (ringOf s (n16 0)).w1)
  else if o = 0x400 then s.fq.w0
  else if o = 0x408 then s.fq.w1
  else if 0x800 ≤ o ∧ o < 0x900 then msqStat s ((o - 0x800) / 8)
  else if 0x900 ≤ o ∧ o < 0xA00 then msqGadr s ((o - 0x900) / 8)
  else if o = 0x1000 then (if r.eavCtl then 1 else 0)
  else if 0x2000 ≤ o ∧ o < 0x3000 then half hi (rd r.eavAct (n16 0x2000) (0, 0))
  else if o = 0x3000 then r.plkSelf.setWidth 64
  else if 0x3100 ≤ o ∧ o < 0x3300 then rd r.plkRoute ((o - 0x3100) / 8) 0
  else if 0x3400 ≤ o ∧ o < 0x3500 then half hi (rd r.plkLwin (n16 0x3400) (0, 0))
  else if 0x3800 ≤ o ∧ o < 0x3A00 then rd r.rdgTree ((o - 0x3800) / 8) 0
  else 0

end Sys2Proof.Machine
end

