-- ==== Sys2Proof/Machine/Service.lean ====
section
/-! DEFINITION. Service over hours: scrubbing, range reports, repair, firmware update, recalibration, clocks, shutdown, reset,
measurements and telemetry (R387 to R398). -/

namespace Sys2Proof.Machine

/-! ### Memories (R387, R388, R392) -/

/-- PATROL_SCRUB (R387, R388): a correction is written back only where the granule has not been written since; the value that agents
read is the corrected one in either case, so no byte changes, and the correction is logged and counted. -/
def execPatrolScrub (_stack _address : Nat) (corrected : Bool) (s : State) : Out :=
  .next (if corrected then rasEvent s 0x140 else s)

/-- HBM_CHANNEL_SPARING (R392): a pseudo-channel moves to a spare one, or the stack goes on with less bandwidth; no value changes. -/
def execHbmChannelSparing (stack : Nat) (spareLeft : Bool) (s : State) : Out :=
  if spareLeft then .next (rasEvent s 0x143)
  else .next (rasEvent (rasEvent { s with hbmDegraded := wr s.hbmDegraded stack true } 0x144) 0x145)

/-- ROW_REPAIR (R387, R307). -/
def execRowRepair (unit : RepairUnit) (index : Nat) (outcome : RepairOutcome) (s : State) : Out :=
  match unit, outcome with
  | .thatch, .repaired => .next (rasEvent s 0x14B)
  | .thatch, .noSpare => .next (rasEvent s 0x14C)
  | .thatch, .wayDisabled => .next s
  | .l2, .repaired => .next (rasEvent s 0x153)
  | .l2, .noSpare => .next (rasEvent s 0x154)
  | .l2, .wayDisabled =>
    -- lines that no longer fit are evicted
    .next (rasEvent (trimSlice { s with l2Ways := wr s.l2Ways index (rd s.l2Ways index 0 - 1) } index) 0x155)

/-! ### Range reports (R389, R390) -/

/-- READER of a range report. -/
def readerCode (r : LossReader) : Nat :=
  match r with
  | .access => 0
  | .copyOrStream => 1
  | .scrub => 2
  | .writeBack => 3
  | .host => 4

/-- The units' causes of an uncorrectable error with the bytes of their granule (R307, R387). -/
def lossGranule (cause : BitVec 9) : Option Nat :=
  match cause.toNat with
  | 0x141 => some 32
  | 0x142 => some 32
  | 0x149 => some 128
  | 0x14A => some 128
  | 0x151 => some 128
  | 0x152 => some 128
  | 0x159 => some 128
  | _ => none

/-- A report that the rules allow: an uncorrectable error of a unit, over whole granules (R307, R387, R389). -/
def reportOk (r : LossReport) : Bool :=
  match lossGranule r.cause with
  | some g => r.len != 0 && r.len % g == 0
  | none => false

/-- Tasks whose weight buffers subscribe to a Sparge group: those on a core, and saved ones (R306, R390). -/
def subscriberTasks (s : State) (grp : Nat) : List Nat :=
  (subscribers s grp).filterMap (fun p => (s.core p.1).task) ++
    (s.tasks.filter fun t => t.saved.any fun x => !(subscribed x.e grp).isEmpty).map (·.id)

/-- The tasks whose read returned the lost bytes, or whose dirty bytes were lost, as the state shows them: the task on the reading core, the
subscribers of the group whose stream read, the task whose lines the writing core's L1 holds (R390). -/
def touchedBy (s : State) (r : LossReport) : List Nat :=
  match r.reader, r.core, r.access with
  | .access, some n, _ => (s.core n).task.toList
  | .copyOrStream, some n, _ => (s.core n).task.toList
  | .copyOrStream, none, some ch => ((partOn s ch).map fun p => subscriberTasks s (spGroup p.words)).getD []
  | .writeBack, some n, _ => (s.core n).l1Task.toList
  | _, _, _ => []

/-- The affected tasks: those that the state shows, and those that the event says have read the bytes too; a scrub or host report affects
none (R390). -/
def affects (s : State) (r : LossReport) : List Nat :=
  match r.reader with
  | .scrub => []
  | .host => []
  | _ => (touchedBy s r ++ r.tasks).eraseDups

/-- The graph in whose present step a task's end has been recorded, with the task's index and end. -/
def pastTask (s : State) (id : Nat) : Option (Graph × Nat × End) :=
  s.graphs.findSome? fun g =>
    if g.stat != .running then none else (g.past.find? (·.1 == id)).map fun p => (g, p.2.1, p.2.2)

/-- A task that is no more, of a RUN in progress: its bay, index and step. -/
def goneTask (s : State) (id : Nat) : Option (Nat × Nat × Nat) :=
  s.runs.findSome? fun r => (r.gone.find? (·.1 == id)).map fun p => (r.bay, p.2.1, p.2.2)

/-- The affected tasks that a report can name: those that live, and those that have ended in a RUN in progress (R389). -/
def namedBy (s : State) (r : LossReport) : List Nat :=
  (affects s r).filter fun id => (s.taskAt id).isSome || (pastTask s id).isSome || (goneTask s id).isSome

/-- The words of a range report of which `count` tasks are told. -/
def reportWords (s : State) (bay task step : Nat) (r : LossReport) (count : Nat) : List W64 :=
  let w1 := w64 ((r.core.getD 0x1FF) % 512 * 2 ^ 44 + readerCode r.reader * 2 ^ 41 + r.unit % 512 * 2 ^ 32 + r.len % 2 ^ 32)
  eventWords s bay task step 13 r.cause w1 r.base r.address (w64 count)

/-- Writes a range report, and counts it (R398). -/
def writeReport (s : State) (bay task step : Nat) (r : LossReport) (count : Nat) : State :=
  logRecord { s with telemetry := { s.telemetry with reports := s.telemetry.reports + 1 } } bay (reportWords s bay task step r count)

/-- The task is a graph task of the current step of its graph. -/
def inStep (s : State) (t : Task) : Bool :=
  t.kind == .graph && (s.graphAt t.graph).any fun g => g.stat == .running && g.step == t.step

/-- The Cask entry of a task's key, in the directory of its graph's die, is invalidated (R364). -/
def dropCaskEntry (s : State) (t : Task) : State :=
  let k := caskKey t
  let die := graphDie s t.graph
  { s with cask := wr s.cask die ((caskDir s die).map fun e => if e.isKey t.bay k.1 k.2.1 then { e with v := false } else e) }

/-- A range report has named a task of a graph's present step (R390). -/
def noteReported (s : State) (graph index : Nat) : State := s.modGraph graph fun g => { g with reported := index :: g.reported }

/-- The step of a graph is run again from its checkpoint (R352). -/
def reruns (g : Graph) : Bool := g.ckptStep == some g.step && !g.reran

/-- The dictionary entry whose read a report is of: one on its way to a core of the task, in a Thatch report of no slot access. -/
def entryLost (s : State) (t : Task) (r : LossReport) : Option (Nat × EmitEntry) :=
  match r.core, r.access with
  | some n, none =>
    if r.cause = 0x149 ∧ r.reader = .access ∧ t.cores.contains n then (s.core n).dmiss.map fun d => (n, d.entry) else none
  | _, _ => none

/-- The class-2 fault of a report. -/
def lossFault (r : LossReport) : FaultInfo := { src := 10, cause := class2 r.kind.toNat 6, levelE := true, async := true, addr := r.address }

/-- A task that is no longer on its way through its program takes the fault of a report: a saved one when it runs again (R305), one whose
program has ended as a faulted end (R302; assumption 114). -/
def deliverLate (s : State) (t : Task) (fi : FaultInfo) : State :=
  let fi := { fi with stamp := w64 s.now }
  match t.stat with
  | .saved .. =>
    s.modTask t.id fun t => { t with saved := match t.saved with | x :: r => { x with held := holdFault fi x.held } :: r | [] => [] }
  | .retiring (.ends (.retired _)) => endFaulted s (endCore t) t fi
  | _ => s

/-- The op in progress on a stream of a core. -/
def streamInUse (s : State) (core n : Nat) : Bool :=
  [Slot.x0, Slot.x1].any fun sl => (xHolder s core sl).any fun r => (fibreNames r.instr).1.contains n

/-- The fault of a report reaches a task (R302, R307, R390): as 0x149 for a dictionary read; as the end of the stream op or access that read
the lost bytes, or on the task's lowest core, with the class-2 code otherwise. -/
def deliverLoss (s : State) (t : Task) (r : LossReport) : State :=
  if t.stat != .running && t.stat != .saving then deliverLate s t (lossFault r)
  else
    match entryLost s t r with
    | some (n, e) => loseEntry s n e
    | none =>
      match r.core, r.access with
      | some n, some id =>
        if !t.cores.contains n then raise s (endCore t) (lossFault r)
        else if r.kind = 7 then (if streamInUse s n id then loseFibre s n id r.address else raise s n (lossFault r))
        else loseAccess s n id (fun _ => true) (fun _ => some r.kind.toNat) 6
      | _, _ => raise s (endCore t) (lossFault r)

/-- The dirty bytes of a core's L1 that a write-back has lost are in its lines no more (R390). -/
def loseDirty (s : State) (r : LossReport) : State :=
  match r.reader, r.core with
  | .writeBack, some n => if r.address = 0 then s else (spanLines s n r.address.toNat r.len).foldl (fun s ln => dropLine s n ln) s
  | _, _ => s

/-- An entry that the expander was reading for a task that a report has named is not expanded (R85). -/
def dropMiss (s : State) (t : Task) (r : LossReport) : State :=
  match entryLost s t r with
  | some (n, e) => (s.modCore n fun c => { c with dmiss := none }).modE n fun x => { x with emitQ := e :: x.emitQ }
  | none => s

/-- The entries whose cell a report's bytes lie in are invalidated (R364): the reader's address, or an address of a Loft. -/
def dropReported (s : State) (t : Task) (r : LossReport) : State :=
  let va := if r.address ≠ 0 then r.address else if r.base.toNat / 2 ^ 60 ≠ 0 then r.base else 0
  let reads := match r.reader with | .access => true | .copyOrStream => true | _ => false
  let who : Who := { core := r.core, bay := t.bay, kind := r.kind.toNat, task := some t.id }
  if reads && va != 0 then dropRead s who 6 va (max 1 r.len) else s

/-- A report names a task that has ended (R389). In the present step (R352, R390) its entry is invalidated, and the step runs again from its
checkpoint, or the task from its record; a second report of it, or one of a task of an earlier step, has nothing to reach. -/
def affectedPast (s : State) (r : LossReport) (count id : Nat) : State :=
  match pastTask s id with
  | none => match goneTask s id with
    | some (bay, index, step) => writeReport s bay index step r count
    | none => s
  | some (g, index, how) =>
    let s := writeReport s g.bay index g.step r count
    if g.reported.contains index then s
    else
      let s := noteReported s g.id index
      let (s, b) := seqRead s g.bay (g.tasksAddr + w64 (64 * index)) 64 64
      let s := match b with
        | some b => dropCaskEntry s { id := id, bay := g.bay, graph := g.id, run := g.run, kind := .graph, index := index, step := g.step, rec_ := recordOf b }
        | none => s
      if reruns g then s.modGraph g.id fun g => { g with rerun := true } else runAgain s g id index how

/-- One affected task (R390): its report; then, on the first report of a graph task of the current step, its entry is invalidated and
it is killed without record, to run again, or to be forgotten where its whole step runs again from a checkpoint; else the fault is
delivered. -/
def affected (s : State) (r : LossReport) (count id : Nat) : State :=
  match s.taskAt id with
  | none => affectedPast s r count id
  | some t =>
    let s := dropReported (writeReport s t.bay (bits (recWord t.rec_ 0) 0 16) t.step r count) t r
    match s.graphAt t.graph with
    | some g =>
      if inStep s t && !g.reported.contains t.index then
        let s := noteReported (dropCaskEntry (dropMiss s t r) t) g.id t.index
        if reruns g then kill (s.modGraph g.id fun g => { g with rerun := true }) id .discard else kill s id .again
      else deliverLoss s t r
    | none => deliverLoss s t r

/-- A Sparge stream whose read was lost stops as a faulted part (R369). -/
def loseStream (s : State) (r : LossReport) : State :=
  match r.reader, r.core, r.access with
  | .copyOrStream, none, some ch =>
    match partOn s ch with
    | some p => partFaulted (freeSparge s ch) p.id 0x0AE r.address
    | none => s
  | _, _, _ => s

/-- UNCORRECTABLE_ERROR (R389, R390, R352, R364): a range report for each affected task, or one in bay 0's log when there is none. An event
that is no uncorrectable error of a unit is none. -/
def execUncorrectableError (r : LossReport) (s : State) : Out :=
  if !reportOk r then .next s
  else
    let named := namedBy s r
    let s := loseDirty (loseStream s r) r
    match named with
    | [] => .next (writeReport s 0 0xFFFF 0 r 0)
    | l => .next (l.foldl (fun s id => affected s r l.length id) s)

/-! ### Cores (R391) -/

/-- The event of a repair in the log of every bay whose effective set holds the index. -/
def logRepair (s : State) (core : Nat) (spareLeft : Bool) : State :=
  (s.bays.filter fun b => bitAt (s.effNow b.bay).cores core).foldl (fun s b =>
    logRecord s b.bay (eventWords s b.bay 0xFFFF 0 13 0x17D 0 0 (if spareLeft then 0 else w64 (2 ^ 63)) 0)) s

/-- The task of a failing core stops, to be saved as at pre-emption. -/
def stopForRepair (s : State) (core : Nat) : State :=
  match s.taskOn core with
  | some t => if mayPreempt s t then preempt s t none else s
  | none => s

/-- An index goes offline: what is bound to it moves when it has not touched its own Loft, which is settled once its accesses have been
performed, and is killed otherwise. -/
def retireIndex (s : State) (core : Nat) : State :=
  let s := s.modCore core fun c => { c with offline := true }
  let bound := s.tasks.filter fun t => t.cores.contains core && match t.stat with | .running => true | .saving => true | .saved .. => true | _ => false
  bound.foldl (fun s t =>
    if t.ownLoft then kill s t.id .record
    else match t.stat with
      | .saved .. => s.modTask t.id fun t => { t with cores := [] }
      | .running => if mayPreempt s t || (s.core core).restoring then preempt s t none else s
      | _ => s) s

/-- CORE_REPAIR (R391): the core's task is stopped and saved; one of the spares of its die takes the logical index, with the core's Loft, or,
when the die has none left, the index goes offline. An event that says otherwise than the die's spares do is none. -/
def execCoreRepair (core : Nat) (spareLeft : Bool) (s : State) : Out :=
  let die := core / 160
  let spares := rd s.spares die []
  if 320 ≤ core ∨ (s.core core).offline ∨ spareLeft = spares.isEmpty then .next s
  else
    let s := logRepair s core spareLeft
    if spareLeft then
      let (n, s) := s.bump
      let spare := (spares[Config.spare n % spares.length]?).getD 0
      .next ((stopForRepair { s with spares := wr s.spares die (spares.filter (· != spare)) } core).modCore core fun c =>
        { c with physical := spare, tlb := [], dcache := [] })
    else .next (retireIndex s core)

/-! ### Firmware, islands, clocks, power (R393, R394, R395) -/

/-- An op of the firmware context is between its issue and its end on a core's units. -/
def firmwareRuns (e : Engine) : Bool :=
  let fw (i : BInfo) : Bool := decide (i.ctx = .firmware)
  e.vrun.toArray.toList.any (fun r => r.any fun r => fw r.info) || e.xrun.toArray.toList.any (fun r => r.any fun r => fw r.info) ||
    e.macc.any (fun r => fw r.info) || e.drain.any fun r => fw r.info

/-- A core without what its firmware context has emitted and not issued. -/
def dropStream (c : Core) : Core :=
  { c with
    e := { c.e with
      emitQ := c.e.emitQ.filter fun x => decide (x.ctx = .user)
      slotQ := c.e.slotQ.map (·.filter fun o => decide (o.info.ctx = .user)) }
    dmiss := c.dmiss.filter fun d => decide (d.entry.ctx = .user) }

/-- A checked image starts once the old image's stream stands at a bundle boundary (R393): the context begins anew, where its program begins
(assumption 113), and the epoch rises. -/
def startImage (n : Nat) (s : State) : State :=
  match (s.core n).fwNext with
  | none => s
  | some image =>
    if firmwareRuns (s.core n).e then s
    else
      let s := s.modCore n fun c => { c with image := image, fwNext := none, fw := { pc := Config.firmwareEntry image } }
      rasEvent { s with epoch := s.epoch + 1 } 0x17B

/-- FIRMWARE_UPDATE (R393): the image is kept out when its digest is not the signed one. Else the firmware context stops at a bundle
boundary of its own stream, whose ops not yet issued go with it (DESIGN CHOICE, see assumption 113), while the user context runs on, and
the new image starts. -/
def execFirmwareUpdate (core : Nat) (image digest : List Byte) (s : State) : Out :=
  if 320 ≤ core then .next s
  else if shake256 image ≠ digest then .next (rasEvent s 0x179)
  else .next (startImage core (s.modCore core fun c => { dropStream c with fwNext := some image }))

/-- A core stalled for `d` cycles: its issue waits, and its results in flight with it (R299). A stall within a stall adds only what it
goes beyond it. -/
def stallCore (c : Core) (now d : Nat) : Core :=
  let until_ := max c.stallUntil (now + d)
  { holdCore c (until_ - max now c.stallUntil) with stallUntil := until_ }

/-- A core of which a recalibration is asked: one without a task stalls at once, another when it stands at a bundle boundary (R306,
R394). -/
def askStall (c : Core) (now d : Nat) : Core :=
  if c.task.isNone then stallCore c now d
  else { c with stallWant := some (match c.stallWant with | some (b, x) => (b, max x d) | none => (now, d)) }

/-- A recalibration that has been asked of a core starts once none of its ops is between beats and its MACC stands at a group (R196, R306,
R394): the core stalls from the next cycle on. -/
def startStall (n : Nat) (s : State) : State :=
  match (s.core n).stallWant with
  | none => s
  | some (_, d) =>
    if betweenBeats (s.core n).e then s else s.modCore n fun c => stallCore { c with stallWant := none } (s.now + 1) d

/-- RECALIBRATION (R394): the eight cores of an island stall, for at most 24,000 cycles. -/
def execRecalibration (die cluster cycles : Nat) (s : State) : Out :=
  if 2 ≤ die ∨ 20 ≤ cluster ∨ 24000 < cycles then .next s
  else
    let first := 160 * die + 8 * cluster
    let s := (List.range 8).foldl (fun s i => s.modCore (first + i) fun c => askStall c s.now cycles) s
    .next (rasEvent s 0x173)

/-- The number of a clock step. -/
def clockCode (c : ClockStep) : Nat :=
  match c with
  | .full => 0
  | .mhz1050 => 1
  | .mhz900 => 2
  | .mhz600 => 3

/-- The causes with which a die's clock steps down: a power cap, a temperature of 100 °C, a reduced clock. -/
def stepDown (cause : BitVec 9) : Bool := cause == 0x170 || cause == 0x171 || cause == 0x175

/-- CLOCK_STEP (R395): a die's arithmetic clock goes one step down, logged with its cause, or one step up, with none, from its next period
on; no result depends on it. That a cap or a temperature has been reached, or is so far off again, is what the event says (assumption
115). -/
def execClockStep (die : Nat) (step : ClockStep) (cause : BitVec 9) (s : State) : Out :=
  let old := clockCode (rd s.clock die .full)
  let s' := { s with clock := wr s.clock die step }
  if 2 ≤ die then .next s
  else if clockCode step = old + 1 ∧ stepDown cause then .next (rasEvent s' cause)
  else if clockCode step + 1 = old ∧ cause = 0 then .next s'
  else .next s

/-- The package that is to power down does so once no task holds a core any more (R334, R395). -/
def powerOff (s : State) : State :=
  match s.shutdown with
  | none => s
  | some die =>
    if s.cores.toArray.toList.any (·.task.isSome) then s
    else { s with shutdown := none, powered := Vector.replicate 2 false, sent := s.sent ++ [.powerDown die] }

/-- THERMAL_SHUTDOWN (R395): every task is stopped, the bays below bay 0 as by BAY kills, nothing is released any more, and the package
powers down when the tasks have left their cores. -/
def execThermalShutdown (die : Nat) (s : State) : Out :=
  let kids := (s.bays.filter fun b => b.bay != 0 && b.parent == 0).map (·.bay)
  let s := kids.foldl (fun s n => killBay s n 2) s
  let s := { s with
    runs := s.runs.map fun (r : Run) => { r with killed := true }
    graphs := s.graphs.map fun (g : Graph) => { g with killed := true } }
  let s := (s.tasks.map (·.id)).foldl (fun s id => kill s id .record) s
  .next (powerOff { s with shutdown := some die })

/-- PACKAGE_RESET (R316): every register takes its reset value and bay 0 exists alone; what memory outside the cores holds stays
(assumption 1), with the L2 written back. -/
def execPackageReset (s : State) : Out :=
  .next { State.reset with mem := ((s.l2.map (·.pa)).foldl l2Evict s).mem, fresh := s.fresh, sent := s.sent }

/-! ### Attestation and telemetry (R396 to R398) -/

/-- The number of the top firmware layer (assumption 15). -/
def topLayer : Nat := 14

/-- The secret of a layer under DICE (R396): the device's own below the first firmware layer, then derived from that of the layer below and
the layer's measurement. -/
def layerSecret (s : State) : Nat → List Byte
  | 0 => Config.deviceSecret
  | i + 1 => Config.deriveSecret (layerSecret s i) (measurementBytes s (i + 1))

/-- The signature of a secret's Ed448 key over some bytes. -/
def signed (secret m : List Byte) : List Byte := (List.range 114).map fun j => Config.signature secret m j

/-- The keys of the device and of each firmware layer, with the signature of the layer below over each (R396). -/
def aliasChain (s : State) : List (List Byte × List Byte) :=
  let key (i : Nat) : List Byte := Config.publicKey (layerSecret s i)
  (List.range (topLayer + 1)).map fun i => (key i, signed (layerSecret s (i - 1)) (key i))

/-- GET_MEASUREMENTS (R396, R397): the value of an index of the boot chain, or the manifest with its signature. -/
def execGetMeasurements (index : Nat) (s : State) : Out :=
  if 1 ≤ index ∧ index ≤ 15 then .next { s with sent := s.sent ++ [.doe (measurementBytes s index)] }
  else if index = 0x40 then
    let m := s.manifest.flatten
    .next { s with sent := s.sent ++ [.doe (m ++ signed (layerSecret s topLayer) m)] }
  else .next s

/-- The algorithms that the device offers over SPDM, and the certificates of its alias keys (R396). -/
def sendOffer (s : State) : State := { s with sent := s.sent ++ [.spdmAlgorithms [.edDsaEd448] [.sha384, .sha512]] }

/-- See `sendOffer`. -/
def sendCertificates (s : State) : State := { s with sent := s.sent ++ [.certificates (aliasChain s)] }

/-- The counters of the telemetry object in the order in which R398 names them, 8 bytes each (assumption 16). -/
def telemetryBytes (s : State) : List Byte :=
  let sum (f : Bay → Nat) : Nat := (s.bays.map f).sum
  let counters := s.telemetry.corrected.toArray.toList ++
    [s.telemetry.reports, s.telemetry.refusals + sum (·.refusals), s.telemetry.aborts + sum (·.aborts), s.telemetry.dropped + sum (·.dropped)]
  let rails := (List.range 4).map fun i => Config.sensor s.now i
  let islands := (List.range 40).map fun i => Config.sensor s.now (4 + i)
  wordBytes (counters.map w64 ++ rails ++ s.clock.toArray.toList.map (fun c => w64 (clockCode c)) ++ islands)

/-- TELEMETRY_READ (R398): the object is returned, and the device's state does not change. -/
def execTelemetryRead (s : State) : Out := .next { s with sent := s.sent ++ [.doe (telemetryBytes s)] }

/-! ### The debug space (R21, R301, R355) -/

/-- A format register's value as the latest SSETFM of the user context has left it (R21). -/
def fmLatest (e : Engine) (k : Nat) : BitVec 32 :=
  match (e.fmPend.filter fun w => w.ctx == .user && w.n == k).getLast? with
  | some w => w.val
  | none => rd e.fm k 6

/-- What the debug space shows: a format register (R21), a Cask entry's 32 bytes (R355), none where the directory has no entry of the
key, and the patch values that a slot field does not hold (R301). -/
def debugBytes (s : State) (r : DebugRead) : List Byte :=
  match r with
  | .formatRegister core n => toBytes 4 (fmLatest (s.core core).e n).toNat
  | .caskEntry die bay layer tile =>
    match (caskDir s die).find? fun e => e.isKey bay layer tile with
    | some e => wordBytes (entryWords e).toArray.toList
    | none => []
  | .provenance core slot =>
    match slotQ (s.core core).e slot with
    | o :: _ => toBytes 3 o.info.bcimm.toNat ++ toBytes 8 o.info.patch.toNat
    | [] => []

end Sys2Proof.Machine
end

