-- ==== Sys2Proof/Machine/Cycle.lean ====
section
/-! DEFINITION. How moves follow one another: which slots issue in a cycle (R61, R63, R308, R174, R295), the generator's issue
port (R47), fetch and decode of the next generator instruction, the end of a cycle, and the default order of a cycle's moves
(assumption 3). The meaning of an instruction comes in as an argument. -/

namespace Sys2Proof.Machine

/-- The meaning of an instruction. -/
abbrev Meaning := Instr → State → Out

/-! ### Slots -/

/-- The consume mask of a slot field (R76). -/
def fieldTagw (sl : Slot) (b : W64) : BitVec 8 :=
  BitVec.ofNat 8 (match sl with
    | .s => bits b 40 8
    | .m => bits b 32 8
    | .x0 => bits b 48 8
    | .x1 => bits b 48 8
    | _ => bits b 56 8)

/-- The allocate field of a slot field (R76). -/
def fieldTaga (sl : Slot) (b : W64) : BitVec 4 :=
  BitVec.ofNat 4 (match sl with
    | .s => bits b 36 4
    | .m => bits b 28 4
    | .x0 => bits b 44 4
    | .x1 => bits b 44 4
    | _ => bits b 52 4)

/-- The op at the head of a slot's queue, once it may issue (R59, R61). -/
def headOp (s : State) (n : Nat) (sl : Slot) : Option QOp :=
  match (slotQ (s.core n).e sl).head? with
  | some o => if o.notBefore ≤ s.now then some o else none
  | none => none

/-- The state in which the op at a slot's head executes. -/
def headCur (s : State) (n : Nat) (sl : Slot) (o : QOp) : State :=
  { s with cur := { core := n, ctx := o.info.ctx, slot := sl, info := o.info, bits := o.bits } }

/-- The op at the head of a slot issues, waits or faults; a reserved opcode point faults when the op's unit is free and its tags are
clear (R61, R83, R101). -/
def runSlot (ex : Meaning) (n : Nat) (sl : Slot) (s : State) : Out :=
  match headOp s n sl with
  | none => .next s
  | some o =>
    let s := headCur s n sl o
    match decodeSlot sl o.bits.toNat with
    | some i => ex i s
    | none =>
      if streamRuns s n && unitReady s n sl && decide ((s.core n).e.tags &&& fieldTagw sl o.bits = 0) then
        .next (slotFault s (class0 sl 0) 0 0 0)
      else .next s

/-- What becomes of the op at a slot's head. -/
inductive Trial where
  | waits
  | faults
  | issues (s : State)
  deriving DecidableEq, Repr

/-- Tries the op at a slot's head. -/
def tryOp (ex : Meaning) (n : Nat) (s : State) (sl : Slot) : Trial :=
  match runSlot ex n sl s with
  | .next t =>
    if (slotQ (t.core n).e sl).length < (slotQ (s.core n).e sl).length then .issues t
    else if (t.core n).stop = (s.core n).stop ∧ (t.core n).held = (s.core n).held then .waits
    else .faults
  | _ => .waits

/-- The slots that an op's ALIGN mask ties to it (R61). -/
def groupOf (s : State) (n : Nat) (sl : Slot) : List Slot :=
  match headOp s n sl with
  | none => [sl]
  | some o => if bitAt o.info.align (slotNum sl) then slots.filter fun x => bitAt o.info.align (slotNum x) else [sl]

/-- Two slots have ops of one bundle at their heads. -/
def sameBundle (s : State) (n : Nat) (x y : Slot) : Bool :=
  match headOp s n x, headOp s n y with
  | some a, some b => a.info.ctx == b.info.ctx && a.info.eseq == b.info.eseq
  | _, _ => false

/-- The op of slot `y`, were it to issue, would hold the op of slot `x`: it allocates a tag that `x` consumes (R308). -/
def holdsTag (s : State) (n : Nat) (x y : Slot) : Bool :=
  match headOp s n x, headOp s n y with
  | some a, some b => x != y && bitAt (fieldTaga y b.bits) 3 && bitAt (fieldTagw x a.bits) (bits (fieldTaga y b.bits) 0 3)
  | _, _ => false

/-- The two ops would allocate one tag (R63). -/
def sameAlloc (s : State) (n : Nat) (x y : Slot) : Bool :=
  match headOp s n x, headOp s n y with
  | some a, some b =>
    let ta := fieldTaga x a.bits
    let tb := fieldTaga y b.bits
    x != y && bitAt ta 3 && bitAt tb 3 && ta == tb
  | _, _ => false

/-- The op of slot `y`, were it to issue, would make that of slot `x` wait: it allocates a tag that `x` consumes, or, standing earlier in
slot order, the tag that `x` allocates, which an op that faults (`flt`) does not ask for (R63, R83, R308). -/
def blocks (s : State) (n : Nat) (flt : List Slot) (x y : Slot) : Bool :=
  holdsTag s n x y || (sameAlloc s n x y && decide (slotNum y < slotNum x) && !flt.contains x)

/-- The ALIGN group of slot `y`, were it to issue, would make that of slot `x` wait. A group in which an op faults does not issue, so
the tag that a faulting op names holds no other back, in its own cycle either (R63, R83; DEDUCED, see assumption 101). -/
def ties (s : State) (n : Nat) (flt : List Slot) (x y : Slot) : Bool :=
  !((groupOf s n y).any flt.contains) && (groupOf s n x).any fun a => (groupOf s n y).any fun b => a != b && blocks s n flt a b

/-- The op of slot `y` allocates, were it to issue, a tag that that of slot `x` consumes; one in a group in which an op faults does not
issue. -/
def opHolds (s : State) (n : Nat) (flt : List Slot) (x y : Slot) : Bool := !((groupOf s n y).any flt.contains) && holdsTag s n x y

/-- The ops on loops through a slot of a set, each consuming a tag that the next allocates (R63). -/
def loopOps (s : State) (n : Nat) (flt set : List Slot) (x : Slot) : Nat → List Slot → Slot → List Slot
  | 0, _, _ => []
  | k + 1, path, at_ =>
    set.flatMap fun y =>
      if !opHolds s n flt at_ y then []
      else if y = x then path
      else if path.contains y then []
      else loopOps s n flt set x k (y :: path) y

/-- A slot is the first of the ops on its loops, and nothing but these holds an op of its ALIGN group (R63). -/
def loopHead (s : State) (n : Nat) (flt set : List Slot) (x : Slot) : Bool :=
  let l := loopOps s n flt set x 6 [x] x
  !l.isEmpty && l.all (fun y => decide (slotNum x ≤ slotNum y)) &&
    set.all fun y => l.contains y || (groupOf s n y).any flt.contains || !(groupOf s n x).any fun a => blocks s n flt a y

/-- The slots reached from some along ties within a set. -/
def reachTies (s : State) (n : Nat) (flt set : List Slot) : Nat → List Slot → List Slot
  | 0, from_ => from_
  | k + 1, from_ => reachTies s n flt set k (set.filter fun y => from_.contains y || from_.any fun x => ties s n flt x y)

/-- The slots that a slot waits for, through one tie or more. -/
def waitsFor (s : State) (n : Nat) (flt set : List Slot) (x : Slot) : List Slot :=
  reachTies s n flt set 6 (set.filter (ties s n flt x))

/-- A set of slots without those whose ALIGN group is not wholly in it, with one bundle at its heads (R61). -/
def closeGroups (s : State) (n : Nat) : Nat → List Slot → List Slot
  | 0, set => set
  | k + 1, set => closeGroups s n k (set.filter fun x => (groupOf s n x).all fun y => set.contains y && sameBundle s n x y)

/-- The slots that issue or fault together, of those that would alone: what nothing undecided ties goes; what a slot that goes ties
waits; and of ops that hold one another around a loop the first in slot order goes and the others wait (R63, R308). Where groups hold one
another without such a loop of single ops, the first in slot order goes likewise (DEDUCED, see assumption 42). -/
def settleTags (s : State) (n : Nat) (flt : List Slot) : Nat → List Slot → List Slot → List Slot
  | 0, _, go => go
  | k + 1, undecided, go =>
    let left := undecided.filter fun x => !go.any (ties s n flt x)
    let free := left.filter fun x => !left.any (ties s n flt x)
    if free ≠ [] then settleTags s n flt k (left.filter fun x => !free.contains x) (go ++ free)
    else
      let goes (x : Slot) (loop : List Slot) : List Slot :=
        let out := loop ++ loop.flatMap (groupOf s n) ++ groupOf s n x
        settleTags s n flt k (left.filter fun y => !out.contains y) (go ++ groupOf s n x)
      match left.find? (loopHead s n flt left) with
      | some x => goes x (loopOps s n flt left x 6 [x] x)
      | none =>
        match left.find? fun x => (waitsFor s n flt left x).all fun z => (waitsFor s n flt left z).contains x with
        | none => go
        | some x => goes x (waitsFor s n flt left x)

/-- The first slot of a list that does not issue when the listed ops issue in order, and whether it faults; the slots known to fault
are passed over. -/
def firstStuck (ex : Meaning) (n : Nat) (flt : List Slot) : State → List Slot → Option (Slot × Bool)
  | _, [] => none
  | s, x :: r =>
    if flt.contains x then firstStuck ex n flt s r
    else
      match tryOp ex n s x with
      | .issues t => firstStuck ex n flt t r
      | .faults => some (x, true)
      | .waits => some (x, false)

/-- Slot order, but that, where no mask ties the two, an X1 load or stream load comes before an X0 store, scatter, atomic or stream save of
the same cycle (R200), and the X1 op before an X0 gather, to which it leaves its banks over (R195). -/
def issueOrder (s : State) (n : Nat) (set : List Slot) : List Slot :=
  let opc (sl : Slot) : Nat := match headOp s n sl with | some o => bits o.bits 0 7 | none => 0
  let swap := set.contains .x0 && set.contains .x1 && !(groupOf s n .x0).contains .x1 &&
    (opc .x0 == 0x14 || [2, 4, 6, 0x0A, 0x16, 0x38].contains (opc .x0) && [1, 3, 5, 0x39].contains (opc .x1))
  if swap then (set.filter fun x => x != .x0) ++ [.x0] else set

/-- The slots that issue or fault, once their ops are tried one after another, and those that fault: an op that then waits takes its group
out, one that then faults is known to fault, and the others are settled anew without its tag (R295, R308). A group whose own ops hold one
another waits (R61, R63; DEDUCED, see assumption 42). -/
def settleOrder (ex : Meaning) (n : Nat) (s : State) : Nat → List Slot → List Slot → List Slot × List Slot
  | 0, _, _ => ([], [])
  | k + 1, flt, base =>
    let base := (closeGroups s n 6 base).filter fun x => !ties s n flt x x
    let go := settleTags s n flt 7 base []
    let set := issueOrder s n (slots.filter fun x => go.contains x && (flt.contains x || !(groupOf s n x).any flt.contains))
    match firstStuck ex n flt s set with
    | none => (set, set.filter flt.contains)
    | some (x, false) => settleOrder ex n s k flt (base.filter fun y => !(groupOf s n x).contains y)
    | some (x, true) => settleOrder ex n s k (x :: flt) base

/-- The queue into which the M op at the head drains. -/
def drainHead (s : State) (n : Nat) : Option Nat :=
  match headOp s n .m with
  | some o => if bits o.bits 0 5 = 6 ∨ bits o.bits 0 5 = 7 then some (bits o.bits 13 2) else none
  | none => none

/-- The slots of a core whose ops issue or fault, in order, and those of them that fault, with drains in flight as the state has them. -/
def arbitrateIn (ex : Meaning) (n : Nat) (s : State) : List Slot × List Slot :=
  let trial (which : Trial → Bool) : List Slot := slots.filter fun x => which (tryOp ex n s x)
  settleOrder ex n s 13 (trial fun t => match t with | .faults => true | _ => false)
    (trial fun t => match t with | .waits => false | _ => true)

/-- The slots of a core whose ops issue or fault in this cycle, in order, and those of them that fault. A drain is in flight from its
issue: a pop that finds its queue empty in the cycle in which the M op drains into it waits (R174, R191). -/
def arbitrate (ex : Meaning) (n : Nat) (s : State) : List Slot × List Slot :=
  let r := arbitrateIn ex n s
  match (if r.1.contains .m && !r.2.isEmpty && !r.2.contains .m then drainHead s n else none) with
  | none => r
  | some q =>
    let flying := arbitrateIn ex n (s.modE n fun e => { e with drainEnds := wr e.drainEnds q (s.now + 1) })
    if flying.1.contains .m then flying else r

/-- A waiting op of the S or an X slot (R143, R198). -/
def isWaiting (i : Instr) : Bool :=
  match i with
  | .swait _ => true
  | .cpdrain _ => true
  | .gdpop _ => true
  | .fence _ => true
  | .acq _ => true
  | .publish _ => true
  | .bwait _ => true
  | _ => false

/-- The op at a slot's head is a waiting one. -/
def waitsAtHead (s : State) (n : Nat) (sl : Slot) : Bool :=
  match headOp s n sl with
  | some o => ((decodeSlot sl o.bits.toNat).map isWaiting).getD false
  | none => false

/-- The array ops at the heads of a gang's members cannot all issue in this cycle: a member's own bundle or tags hold its op (R61, R63,
R193). -/
def gangMisses (ex : Meaning) (n : Nat) (s : State) : Bool :=
  let e := (s.core n).e
  e.ganged && e.gangHeld != some s.now &&
    (match mHead s n false with | some o => isArrayOp o.bits | none => false) &&
    !(gangMembers n).all fun m => decide (e.gangN < (s.core m).e.gangN) || (arbitrate ex m s).1.contains .m

/-! ### The generator -/

/-- Raises a decode error at the instruction (R95). -/
def decodeFault (s : State) (e : DecodeError) : State := genFault s e.cause 0 0 0

/-- A generator context tries its next instruction: it fetches at its program counter, decodes and executes (R94, R95, R103), unless an
earlier instruction may still fault (R106; assumption 105). The state after the fetch, and what the instruction answers; none when the context is not there to try one. -/
def tryGenIssue (ex : Meaning) (n : Nat) (x : Ctx) (s : State) : Option (State × Out) :=
  let s := { s with cur := { core := n, ctx := x } }
  if !coreRuns s n x || (curG s).wait.isSome || decide (s.now < (curG s).readyAt) || (curG s).loads.any (·.firm) then none
  else
    match fetch s n (curG s).pc with
    | (s, .inr e) => some (s, .next (genAErr s e))
    | (s, .inl w) =>
      let s := { s with cur := { s.cur with bits := w64 w } }
      match decodeGen w with
      | .bad e => some (s, .next (decodeFault s e))
      | .ok i => some (s, ex i s)

/-- An instruction of a context has issued, or faulted, between two states: an interlocked one, or an emit that finds no free entry,
changes nothing. -/
def hasIssued (s t : State) (n : Nat) (x : Ctx) : Bool :=
  decide ((t.core n).gctx x ≠ (s.core n).gctx x) || decide ((t.core n).stop ≠ (s.core n).stop) ||
    decide ((t.core n).held ≠ (s.core n).held) || decide (t.taskOn n ≠ s.taskOn n) || decide (t.fresh ≠ s.fresh) ||
    decide (t.bays ≠ s.bays)

/-- A generator context has the issue port; an issue of the firmware context counts towards its share (R47). -/
def runGen (ex : Meaning) (n : Nat) (x : Ctx) (s : State) : Out :=
  match tryGenIssue ex n x s with
  | none => .next { s with cur := { core := n, ctx := x } }
  | some (t, .next u) =>
    .next (if x = .firmware && hasIssued t u n x then u.modCore n fun c => { c with fwUsed := c.fwUsed + 1 } else u)
  | some (_, o) => o

/-- A context is ready: its next instruction would issue in this cycle. -/
def genWould (ex : Meaning) (s : State) (n : Nat) (x : Ctx) : Bool :=
  match tryGenIssue ex n x s with
  | some (t, .next u) => hasIssued t u n x
  | _ => false

/-- The context that has a core's issue port (R47). The firmware context is idle while its program counter is 0: its code is not the
manual's (assumption 9). -/
def portOwner (ex : Meaning) (s : State) (n : Nat) : Ctx :=
  let c := s.core n
  if c.fw.pc != 0 && genWould ex s n .firmware && (decide (c.fwUsed < 16 * c.fwShare.toNat) || !genWould ex s n .user) then .firmware
  else .user

/-! ### The end of a cycle -/

/-- A core at the end of a cycle of its clock, which has had `edges` edges before: its scratchpad stores are written (R200), and a
window of 256 of its cycles may begin (R47). -/
def endCycle (now edges : Nat) (c : Core) : Core :=
  let c := { c with scratch := c.endStores.foldl (fun m p => memSet m p.1 p.2) c.scratch, endStores := []
                    e := { c.e with mBusy := c.e.mBusy.filter fun b => decide (now < b.1)
                                    xBusy := c.e.xBusy.filter fun b => decide (now < b.1) } }
  if (edges + 1) % 256 = 0 then { c with fwUsed := 0, fwExpUsed := 0 } else c

/-- Eighths of the 1.2 GHz clock at which a die runs (R395). -/
def clockRate (c : ClockStep) : Nat :=
  match c with
  | .full => 8
  | .mhz1050 => 7
  | .mhz900 => 6
  | .mhz600 => 4

/-- The next period of the 1.2 GHz reference, which the package counter and the timeouts count. A die with a slower clock has an edge
in so many eighths of the periods, and its cores stand still in the others (R5, R395; assumption 91). A task that has yielded a wait is
ready from the cycle in which its condition can be met (R329, R331). -/
def tick (s : State) : State :=
  let edge (d : Nat) : Bool := rd s.clockEdge d true
  let sum (d : Nat) : Nat := rd s.clockAcc d 0 + clockRate (rd s.clock d .full)
  let s := if s.lost.isEmpty then s else (List.range 320).foldl healStores s
  { s with
    now := s.now + 1
    tasks := s.tasks.map fun t => match t.stat with
      | .saved _ true => if canMeet s t then t else { t with readySince := s.now + 1 }
      | _ => t
    cores := Vector.ofFn fun i =>
      let c := s.core i.val
      if edge (i.val / 160) then endCycle s.now (rd s.clockEdges (i.val / 160) 0) c else holdCore c 1
    clockEdges := Vector.ofFn fun d => rd s.clockEdges d.val 0 + if edge d.val then 1 else 0
    clockAcc := Vector.ofFn fun d => sum d.val % 8
    clockEdge := Vector.ofFn fun d => decide (8 ≤ sum d.val) }

/-! ### Moves -/

/-- Two meanings in sequence. -/
def andThen (o : Out) (f : State → Out) : Out :=
  match o with
  | .next s => f s
  | x => x

/-- Meanings in sequence. -/
def inTurn (s : State) (fs : List (State → Out)) : Out := fs.foldl andThen (.next s)

/-- What a core does as a cycle begins: a stop reaches its boundary, and later beats issue (R150, R185, R195, R295). -/
def beginCycle (n : Nat) : List (State → Out) :=
  [execStopBoundary n, execVBeat n .v0, execVBeat n .v1, execMaccBeat n, fun s => .next (loadBanks n s)]

/-- The expectations of a core reach their barriers (R225). -/
def arriveExpected (n : Nat) (s : State) : Out := inTurn s ((s.core n).e.bg.map fun b => execBarrierExpectationArrival n b.id)

/-- What a core does of itself as a cycle ends: waits that complete or expire, rows that drain, the expander, results that land. -/
def finishCycle (n : Nat) : List (State → Out) :=
  [arriveExpected n, execDrainRowPush n, fun s => .next (settleTiles n s), execFibreOpComplete n .x0, execFibreOpComplete n .x1,
   execXWaitComplete n .x0, execXWaitComplete n .x1, execXWaitTimeout n .x0, execXWaitTimeout n .x1,
   execGenWaitComplete n .user, execGenWaitComplete n .firmware, execGenWaitTimeout n .user, execGenWaitTimeout n .firmware,
   execSwaitComplete n, execEmitnEntryPlace n .user, execEmitnEntryPlace n .firmware, execExpandBundle n, execDictionaryMissFill n,
   execSnapshotEntryLands n, execExposedResultLands n, execFeedbackWrite n, fun s => .next (startStall n (startImage n s))]

/-- The class-5 events that no other event of the model implies (R307). -/
def otherRas : List (BitVec 9) := [0x146, 0x148, 0x150, 0x158, 0x164, 0x168, 0x16B, 0x16C, 0x16D, 0x172, 0x17E]

/-- A granule's reads end with a fault kind from now on, an uncorrectable error (6) or a denial (4), or return data again. -/
def setLost (s : State) (g : Granule) (kind : Option (BitVec 3)) : State :=
  let rest := s.lost.filter (·.at_ != g)
  match kind with
  | none => { s with lost := rest }
  | some k => if k = 4 ∨ k = 6 then { s with lost := { at_ := g, bytes := BitVec.allOnes 64, kind := k } :: rest } else s

/-- What an agent outside, the L2, firmware or the RAS unit does of itself. -/
def outsideMove (m : Move) (s : State) : State :=
  match m with
  | .l2Evict line => l2Evict s line
  | .poolWrite a data => poolWrite s a data
  | .systemRead a len => if inCxl a then { s with sent := s.sent ++ [.hostRead (systemRead s a len)] } else s
  | .l2Window n v => writeWindow s n v
  | .readFails g k => setLost s g (some k)
  | .readHeals g => setLost s g none
  | .drainBuffer core n => drainBuffer s core n
  | .buffering core on => s.modCore core fun c => { c with buffers := on }
  | .ras cause => if otherRas.contains cause then rasEvent s cause else s
  | .denial core id => deniedThere s core id
  | .postRefused core ch iter cause => refusedThere s core ch iter cause
  | .caskRate core n => s.modCore core fun c => if c.caskJob.isSome then c else { c with caskRate := n }
  | .spargeProgram bay words => firmwareProgram s bay words
  | .dspAge cycles => { s with regs := { s.regs with dspAge := cycles } }
  | .debug r => { s with sent := s.sent ++ [.hostRead (debugBytes s r)] }
  | .spdmAlgorithms => sendOffer s
  | .certificates => sendCertificates s
  | _ => s

/-- What the slots of a core do in a cycle: the slots that issue, in order. A cycle in which a gang's array ops do not all issue, and one in
which a fault is to stop the core while a waiting op issues, are noted first (R193, R297). -/
def issueCycle (ex : Meaning) (n : Nat) (s : State) : State :=
  let s := if gangMisses ex n s then
      (gangMembers n).foldl (fun s m => s.modE m fun e => { e with gangHeld := some s.now }) s
    else s
  let (set, flt) := arbitrate ex n s
  let faults (t : State) : Bool := decide ((t.core n).stop ≠ (s.core n).stop) || decide ((t.core n).held ≠ (s.core n).held)
  let due := set.any (waitsAtHead s n) &&
    (!flt.isEmpty ||
      match inTurn s (set.map fun sl => runSlot ex n sl) with
      | .next t => (match inTurn t (finishCycle n) with | .next u => faults u | _ => false)
      | _ => false)
  let s := if due then s.modCore n fun c => { c with faultDue := some s.now } else s
  { s with sched := set.map (Move.slot n) ++ s.sched }

/-- One move. Nothing moves on a die that has powered down (R395), and no core moves in a period without an edge of its die's clock. -/
def runMove (ex : Meaning) (m : Move) (s : State) : Out :=
  let on (n : Nat) (o : Out) : Out :=
    if !rd s.powered (n / 160) false then .fault .poweredDown else if rd s.clockEdge (n / 160) true then o else .next s
  match m with
  | .gen n x => on n (runGen ex n x s)
  | .port n => on n (runGen ex n (portOwner ex s n) s)
  | .issue n => if !rd s.clockEdge (n / 160) true then .next s else .next (issueCycle ex n s)
  | .slot n sl => on n (runSlot ex n sl s)
  | .op i => ex i s
  | .begin n => on n (inTurn s (beginCycle n))
  | .finish n => on n (inTurn s (finishCycle n))
  | .ring n => inTurn s [execRingTailUpdate n, execRing n]
  | .ringMoveStart g q => .next (startMove g q s)
  | .l1WriteBack n line => on n (.next (cleanLine s n line))
  | .tick => .next (tick (powerOff s))
  | m => .next (outsideMove m s)

/-! ### The default order of a cycle (assumption 3) -/

/-- The cores that have work. -/
def busyCores (s : State) : List Nat :=
  (List.range 320).filter fun n =>
    let c := s.core n
    rd s.powered (n / 160) false && (c.task.isSome || c.fw.pc != 0 || !c.e.emitQ.isEmpty)

/-- A counted access's own event. -/
def accMove (n : Nat) (a : XAcc) : Instr :=
  match a.kind with
  | .store => .storePerformed n a.id
  | .lines .. => .storePerformed n a.id
  | .gather _ => .gatherElementArrival n a.id
  | _ => .countedReply n a.id

/-- The event of a piece of background work; expectations arrive as the cycle ends. -/
def bgMove (n : Nat) (b : Bg) : List Instr :=
  match b.kind with
  | .rel .. => [.relIncrement n b.id]
  | .arrive .. => [.barrierArrival n b.id]
  | .expect .. => []

/-- An agent has parked and waits to append its record. -/
def wantsPark (p : Option Park) : Bool := match p with | some (.wanting ..) => true | _ => false

/-- The events of a copy channel. -/
def chanMoves (n ch : Nat) (c : Chan) : List Instr :=
  (if c.running then
    [if c.startAt.isSome then .cpgoPhasedStart n ch else .copyIssue n ch] ++ (if gathers c.run then [.gatherIndexRead n ch] else [])
   else []) ++
    c.copies.flatMap (fun x =>
      ((List.range x.gran.length).filter fun i => match x.gran[i]? with | some g => !g.2.2 | none => false).map (.copyDelivery n ch x.k ·) ++
        if x.post.isSome then [.copyBytePost n ch x.k] else []) ++
    if wantsPark c.park then [.replayableFaultPark n .copyChannel ch] else []

/-- The replies and background work of a core, which come before its slots issue, so that a fault of theirs is known to the ops that wait
(R297). -/
def replyMoves (s : State) (n : Nat) : List Move :=
  let e := (s.core n).e
  let x0 := e.bg.flatMap (bgMove n)
  let x1 := (e.xacc.filter fun a => !lateGather a).map (accMove n)
  let x2 := e.user.loads.map (fun l => Instr.genLoadReply n .user l.id) ++ (s.core n).fw.loads.map fun l => .genLoadReply n .firmware l.id
  (if (s.core n).wbuf.isEmpty then [] else [.drainBuffer n (s.core n).wbuf.length]) ++ (x0 ++ x1 ++ x2).map Move.op

/-- The copies and late gathers of a core, which come after its slots have taken their banks (R195), and its parks. -/
def behindMoves (s : State) (n : Nat) : List Move :=
  let e := (s.core n).e
  let x0 := e.ch.toArray.toList.zipIdx.flatMap fun c => chanMoves n c.2 c.1
  let x1 := (e.f.toArray.toList.zipIdx.filter fun f => wantsPark f.1.park).map fun f => Instr.replayableFaultPark n .fibreStream f.2
  (x0 ++ (e.xacc.filter lateGather).map (accMove n) ++ x1).map Move.op

/-- The first moves of a core in a cycle. -/
def coreMoves (s : State) (n : Nat) : List Move := [.begin n] ++ replyMoves s n ++ [.port n, .issue n] ++ behindMoves s n

/-- Barrier phases that complete or close (R223, R378). -/
def barrierMoves (s : State) : List Instr :=
  s.barriers.flatMap fun p => [.barrierPhaseComplete p.1, .barrierChildClose p.1, .treeCompletionArrival p.1]

/-- The task queues of graphs on sequencers. -/
def queueMoves (s : State) : List Instr :=
  (s.graphs.filter graphRuns).flatMap fun g => (List.range 4).flatMap fun q => [.queueService g.id q, .ringToQueueMove g.id q]

/-- Quanta, saves, restores and retirements. -/
def holderMoves (s : State) (n : Nat) : List Instr :=
  match s.taskOn n with
  | none => []
  | some t =>
    match t.stat with
    | .running => if (s.core n).restoring then [.contextRestoreComplete n] else [.quantumExpiry n, .yieldThresholdExpiry n]
    | .saving => [.contextSaveComplete n]
    | .retiring _ => [.taskRetire n]
    | _ => []

/-- Ends, commits and reservations. -/
def taskMoves (s : State) : List Instr :=
  (s.bays.filter fun b => b.eff.det).map (fun b => .detCommit b.bay) ++
    (s.tasks.filter fun t => match t.stat with | .ended _ => true | _ => false).map (fun t => .taskEnd t.id) ++
    (s.tasks.filter fun t => t.gang && isReady s t).flatMap fun t => [.gangReserve 0 t.id, .gangReserve 1 t.id]

/-- What the sequencers may do for a graph. -/
def graphMoves (g : Graph) : List Instr :=
  match g.stat with
  | .waiting => [.sequencerAssign g.id]
  | .assigned => [.graphAccept g.id]
  | .betweenSteps => [.stepStart g.id]
  | .running =>
    ((List.range 16).filter fun k => rd g.dl k 0 != 0).map (.stageDeadlineExpiry g.id ·) ++
      (if g.rerun then [.stepRerun g.id] else []) ++ [.stepEnd g.id]
  | .ended => []

/-- Linked parts, their channels, and packets. -/
def packetMoves (s : State) : List Instr :=
  (s.parts.filter fun p => !p.done).map (fun p => if p.sparge then .spargeStart p.id else .linkedCopyComplete p.id) ++
    ((List.range 64).filter fun ch => (partOn s ch).isSome).flatMap (fun ch =>
      (if wantsPark (rd s.sparge ch {}).park then [.replayableFaultPark 0 .spargeChannel ch] else []) ++
        [.spargePortionWrite ch, .spargeStreamComplete ch, .spargeStreamStop ch]) ++
    s.packets.map fun p => .packetCompletionRecord p.id

/-- The moves of one cycle, in the model's default order (assumption 3). -/
def plan (s : State) : List Move :=
  let cores := busyCores s
  (barrierMoves s).map Move.op ++ cores.flatMap (coreMoves s) ++ (queueMoves s).map Move.op ++ cores.map Move.finish ++
    (cores.flatMap (holderMoves s) ++ taskMoves s ++ s.graphs.flatMap graphMoves).map Move.op ++
    (if s.tasks.any (isReady s) then [.op (.dispatch 0), .op (.dispatch 1)] else []) ++
    ((List.range 64).filter fun n => ringOn (ringOf s n)).map Move.ring ++ (packetMoves s).map Move.op ++ [.tick]

/-- One step: the next move, or the moves of a new cycle laid out when none is left. -/
def stepWith (ex : Meaning) (s : State) : Out :=
  match s.sched with
  | [] => .next { s with sched := plan s }
  | m :: r => runMove ex m { s with sched := r }

/-! ### Placing an instruction -/

/-- The page table that maps space 0x0 to physical memory address for address, in one 1-GiB page: its root is at 0x100000. -/
def placeTable (m : Mem) : Mem := memWrite (memWrite m 0x100000 (toBytes 8 0x101001)) 0x101000 (toBytes 8 0x1F)

/-- A task running at address 0 of core 0 whose next instruction is `w` (assumption 10). -/
def placeWord (s : State) (nbits w : Nat) : State :=
  let s := { s with
    mem := memWrite (placeTable s.mem) 0 (toBytes 8 (w % 2 ^ nbits))
    sched := [.gen 0 .user]
    clusterTlb := wr s.clusterTlb 0 [], tables := wr s.tables 0 [], lost := []
    powered := wr s.powered 0 true, shutdown := none, clockEdge := wr s.clockEdge 0 true
    tasks := { id := 0, bay := 0, graph := 0, run := 0, kind := .graph, index := 0, step := 0, stat := .running, cores := [0] } :: s.tasks
    bays := s.bays.map fun (b : Bay) => if b.bay = 0 then { b with own := { b.own with ptroot := 1 }, eff := { b.eff with ptroot := 1 } } else b }
  s.modCore 0 fun c => { c with
    task := some 0, stop := none, offline := false, stallUntil := 0, stallWant := none, restoring := false, tlb := [], icache := []
    e := { c.e with resumed := 0, user := { c.e.user with pc := 0, wait := none, loads := [], readyAt := 0 } } }

end Sys2Proof.Machine
end

