-- ==== Sys2Proof/Machine/Dispatch.lean ====
section
/-! DEFINITION. The meaning of each instruction, one arm per constructor. -/

namespace Sys2Proof.Machine

/-- The effect of one step of the machine. -/
def exec (i : Instr) (s : State) : Host.Outcome State Fault Refusal :=
  match i with
  | .gadd d a b => Sys2Proof.Machine.execGadd d a b s
  | .gsub d a b => Sys2Proof.Machine.execGsub d a b s
  | .gmul d a b => Sys2Proof.Machine.execGmul d a b s
  | .gmulh d a b => Sys2Proof.Machine.execGmulh d a b s
  | .gmulhn d a b => Sys2Proof.Machine.execGmulhn d a b s
  | .gdiv d a b => Sys2Proof.Machine.execGdiv d a b s
  | .gdivn d a b => Sys2Proof.Machine.execGdivn d a b s
  | .grem d a b => Sys2Proof.Machine.execGrem d a b s
  | .gremn d a b => Sys2Proof.Machine.execGremn d a b s
  | .gand d a b => Sys2Proof.Machine.execGand d a b s
  | .gor d a b => Sys2Proof.Machine.execGor d a b s
  | .gxor d a b => Sys2Proof.Machine.execGxor d a b s
  | .gshl d a b => Sys2Proof.Machine.execGshl d a b s
  | .gshr d a b => Sys2Proof.Machine.execGshr d a b s
  | .gsra d a b => Sys2Proof.Machine.execGsra d a b s
  | .gmin d a b => Sys2Proof.Machine.execGmin d a b s
  | .gmax d a b => Sys2Proof.Machine.execGmax d a b s
  | .gaddi d a imm => Sys2Proof.Machine.execGaddi d a imm s
  | .gandi d a imm => Sys2Proof.Machine.execGandi d a imm s
  | .gori d a imm => Sys2Proof.Machine.execGori d a imm s
  | .gxori d a imm => Sys2Proof.Machine.execGxori d a imm s
  | .gshli d a sh => Sys2Proof.Machine.execGshli d a sh s
  | .gshri d a sh => Sys2Proof.Machine.execGshri d a sh s
  | .gsrai d a sh => Sys2Proof.Machine.execGsrai d a sh s
  | .gjalr d a => Sys2Proof.Machine.execGjalr d a s
  | .glpget d n f => Sys2Proof.Machine.execGlpget d n f s
  | .glpset n f a => Sys2Proof.Machine.execGlpset n f a s
  | .gamo d a b op z col => Sys2Proof.Machine.execGamo d a b op z col s
  | .gms d n => Sys2Proof.Machine.execGms d n s
  | .gsync d b flags => Sys2Proof.Machine.execGsync d b flags s
  | .gcmp k cc a b => Sys2Proof.Machine.execGcmp k cc a b s
  | .gbr k => Sys2Proof.Machine.execGbr k s
  | .gbrf k => Sys2Proof.Machine.execGbrf k s
  | .gfb k n a b => Sys2Proof.Machine.execGfb k n a b s
  | .launchT k a b => Sys2Proof.Machine.execLaunchT k a b s
  | .launchG k a b => Sys2Proof.Machine.execLaunchG k a b s
  | .join k a b => Sys2Proof.Machine.execJoin k a b s
  | .qpush k n a b => Sys2Proof.Machine.execQpush k n a b s
  | .qpop k n a b => Sys2Proof.Machine.execQpop k n a b s
  | .gbwait k a b => Sys2Proof.Machine.execGbwait k a b s
  | .ckdecide k a => Sys2Proof.Machine.execCkdecide k a s
  | .emit idx => Sys2Proof.Machine.execEmit idx s
  | .emitp idx mask gp => Sys2Proof.Machine.execEmitp idx mask gp s
  | .emitl mask a => Sys2Proof.Machine.execEmitl mask a s
  | .emits a b => Sys2Proof.Machine.execEmits a b s
  | .cldd idx => Sys2Proof.Machine.execCldd idx s
  | .cset n a => Sys2Proof.Machine.execCset n a s
  | .cget d n => Sys2Proof.Machine.execCget d n s
  | .tret a => Sys2Proof.Machine.execTret a s
  | .gbarr a cols => Sys2Proof.Machine.execGbarr a cols s
  | .ckstore d a b => Sys2Proof.Machine.execCkstore d a b s
  | .gtrap imm => Sys2Proof.Machine.execGtrap imm s
  | .geret st => Sys2Proof.Machine.execGeret st s
  | .gcrr d n => Sys2Proof.Machine.execGcrr d n s
  | .gcrw n a => Sys2Proof.Machine.execGcrw n a s
  | .gli d w2 => Sys2Proof.Machine.execGli d w2 s
  | .glih d w2 => Sys2Proof.Machine.execGlih d w2 s
  | .gcmpi k cc a w2 => Sys2Proof.Machine.execGcmpi k cc a w2 s
  | .gprepPc k w2 => Sys2Proof.Machine.execGprepPc k w2 s
  | .gprepReg k a w2 => Sys2Proof.Machine.execGprepReg k a w2 s
  | .gjal d w2 => Sys2Proof.Machine.execGjal d w2 s
  | .gloop n a w2 => Sys2Proof.Machine.execGloop n a w2 s
  | .gloopRe n a => Sys2Proof.Machine.execGloopRe n a s
  | .gld d a t pol w2 => Sys2Proof.Machine.execGld d a t pol w2 s
  | .gst a b t pol col w2 => Sys2Proof.Machine.execGst a b t pol col w2 s
  | .gpref a l w2 => Sys2Proof.Machine.execGpref a l w2 s
  | .emitn idx mask gp n => Sys2Proof.Machine.execEmitn idx mask gp n s
  | .genLoadReply core ctx id => Sys2Proof.Machine.execGenLoadReply core ctx id s
  | .snop f => Sys2Proof.Machine.execSnop f s
  | .sadd f => Sys2Proof.Machine.execSadd f s
  | .saddi f => Sys2Proof.Machine.execSaddi f s
  | .ssub f => Sys2Proof.Machine.execSsub f s
  | .smul f => Sys2Proof.Machine.execSmul f s
  | .sand f => Sys2Proof.Machine.execSand f s
  | .sor f => Sys2Proof.Machine.execSor f s
  | .sxor f => Sys2Proof.Machine.execSxor f s
  | .sshl f => Sys2Proof.Machine.execSshl f s
  | .sshr f => Sys2Proof.Machine.execSshr f s
  | .ssra f => Sys2Proof.Machine.execSsra f s
  | .smin f => Sys2Proof.Machine.execSmin f s
  | .smax f => Sys2Proof.Machine.execSmax f s
  | .sli f => Sys2Proof.Machine.execSli f s
  | .scmp f => Sys2Proof.Machine.execScmp f s
  | .scmpi f => Sys2Proof.Machine.execScmpi f s
  | .ssel f => Sys2Proof.Machine.execSsel f s
  | .sms f => Sys2Proof.Machine.execSms f s
  | .sfb f => Sys2Proof.Machine.execSfb f s
  | .ssetfm f => Sys2Proof.Machine.execSsetfm f s
  | .ssetma f => Sys2Proof.Machine.execSsetma f s
  | .ssetch f => Sys2Proof.Machine.execSsetch f s
  | .ssetmk f => Sys2Proof.Machine.execSsetmk f s
  | .swait f => Sys2Proof.Machine.execSwait f s
  | .stime f => Sys2Proof.Machine.execStime f s
  | .spred f => Sys2Proof.Machine.execSpred f s
  | .vnop f => Sys2Proof.Machine.execVnop f s
  | .vadd f => Sys2Proof.Machine.execVadd f s
  | .vsub f => Sys2Proof.Machine.execVsub f s
  | .vmul f => Sys2Proof.Machine.execVmul f s
  | .vmulh f => Sys2Proof.Machine.execVmulh f s
  | .vmad f => Sys2Proof.Machine.execVmad f s
  | .vwadd f => Sys2Proof.Machine.execVwadd f s
  | .vwmul f => Sys2Proof.Machine.execVwmul f s
  | .vsadd f => Sys2Proof.Machine.execVsadd f s
  | .vssub f => Sys2Proof.Machine.execVssub f s
  | .vmin f => Sys2Proof.Machine.execVmin f s
  | .vmax f => Sys2Proof.Machine.execVmax f s
  | .vabs f => Sys2Proof.Machine.execVabs f s
  | .vand f => Sys2Proof.Machine.execVand f s
  | .vor f => Sys2Proof.Machine.execVor f s
  | .vxor f => Sys2Proof.Machine.execVxor f s
  | .vshl f => Sys2Proof.Machine.execVshl f s
  | .vshr f => Sys2Proof.Machine.execVshr f s
  | .vsra f => Sys2Proof.Machine.execVsra f s
  | .vclz f => Sys2Proof.Machine.execVclz f s
  | .vpopc f => Sys2Proof.Machine.execVpopc f s
  | .vcmp f => Sys2Proof.Machine.execVcmp f s
  | .vsel f => Sys2Proof.Machine.execVsel f s
  | .vmov f => Sys2Proof.Machine.execVmov f s
  | .vbcast f => Sys2Proof.Machine.execVbcast f s
  | .viota f => Sys2Proof.Machine.execViota f s
  | .vperm f => Sys2Proof.Machine.execVperm f s
  | .vrot f => Sys2Proof.Machine.execVrot f s
  | .vcmprs f => Sys2Proof.Machine.execVcmprs f s
  | .vexpnd f => Sys2Proof.Machine.execVexpnd f s
  | .vscan f => Sys2Proof.Machine.execVscan f s
  | .vred f => Sys2Proof.Machine.execVred f s
  | .vfadd f => Sys2Proof.Machine.execVfadd f s
  | .vfsub f => Sys2Proof.Machine.execVfsub f s
  | .vfmul f => Sys2Proof.Machine.execVfmul f s
  | .vfma f => Sys2Proof.Machine.execVfma f s
  | .vfmin f => Sys2Proof.Machine.execVfmin f s
  | .vfmax f => Sys2Proof.Machine.execVfmax f s
  | .vfcmp f => Sys2Proof.Machine.execVfcmp f s
  | .vfdiv f => Sys2Proof.Machine.execVfdiv f s
  | .vfsqrt f => Sys2Proof.Machine.execVfsqrt f s
  | .vfrcp f => Sys2Proof.Machine.execVfrcp f s
  | .vfrsq f => Sys2Proof.Machine.execVfrsq f s
  | .vfexp2 f => Sys2Proof.Machine.execVfexp2 f s
  | .vflog2 f => Sys2Proof.Machine.execVflog2 f s
  | .vfsin f => Sys2Proof.Machine.execVfsin f s
  | .vfcos f => Sys2Proof.Machine.execVfcos f s
  | .vftanh f => Sys2Proof.Machine.execVftanh f s
  | .vfscan f => Sys2Proof.Machine.execVfscan f s
  | .vfred f => Sys2Proof.Machine.execVfred f s
  | .vtopk f => Sys2Proof.Machine.execVtopk f s
  | .vcvt f => Sys2Proof.Machine.execVcvt f s
  | .vpkgm f => Sys2Proof.Machine.execVpkgm f s
  | .vupgm f => Sys2Proof.Machine.execVupgm f s
  | .vpkmx f => Sys2Proof.Machine.execVpkmx f s
  | .vupmx f => Sys2Proof.Machine.execVupmx f s
  | .vrand f => Sys2Proof.Machine.execVrand f s
  | .ckprobe f => Sys2Proof.Machine.execCkprobe f s
  | .vpopq f => Sys2Proof.Machine.execVpopq f s
  | .mnop f => Sys2Proof.Machine.execMnop f s
  | .mlda f => Sys2Proof.Machine.execMlda f s
  | .mldat f => Sys2Proof.Machine.execMldat f s
  | .macc f => Sys2Proof.Machine.execMacc f s
  | .mzero f => Sys2Proof.Machine.execMzero f s
  | .mswap f => Sys2Proof.Machine.execMswap f s
  | .mdrain f => Sys2Proof.Machine.execMdrain f s
  | .mdrainc f => Sys2Proof.Machine.execMdrainc f s
  | .maccld f => Sys2Proof.Machine.execMaccld f s
  | .mmask f => Sys2Proof.Machine.execMmask f s
  | .mgang f => Sys2Proof.Machine.execMgang f s
  | .mwrel f => Sys2Proof.Machine.execMwrel f s
  | .xnop f => Sys2Proof.Machine.execXnop f s
  | .vld f => Sys2Proof.Machine.execVld f s
  | .vst f => Sys2Proof.Machine.execVst f s
  | .vlds f => Sys2Proof.Machine.execVlds f s
  | .vsts f => Sys2Proof.Machine.execVsts f s
  | .sld f => Sys2Proof.Machine.execSld f s
  | .sst f => Sys2Proof.Machine.execSst f s
  | .pref f => Sys2Proof.Machine.execPref f s
  | .invl f => Sys2Proof.Machine.execInvl f s
  | .wbl f => Sys2Proof.Machine.execWbl f s
  | .amo f => Sys2Proof.Machine.execAmo f s
  | .countedReply core id => Sys2Proof.Machine.execCountedReply core id s
  | .storePerformed core id => Sys2Proof.Machine.execStorePerformed core id s
  | .cpgo f => Sys2Proof.Machine.execCpgo f s
  | .cpstop f => Sys2Proof.Machine.execCpstop f s
  | .cpdrain f => Sys2Proof.Machine.execCpdrain f s
  | .cpwp f => Sys2Proof.Machine.execCpwp f s
  | .cpwpOob f => Sys2Proof.Machine.execCpwpOob f s
  | .copyIssue core ch => Sys2Proof.Machine.execCopyIssue core ch s
  | .cpgoPhasedStart core ch => Sys2Proof.Machine.execCpgoPhasedStart core ch s
  | .gatherIndexRead core ch => Sys2Proof.Machine.execGatherIndexRead core ch s
  | .copyDelivery core ch k n => Sys2Proof.Machine.execCopyDelivery core ch k n s
  | .copyBytePost core ch k => Sys2Proof.Machine.execCopyBytePost core ch k s
  | .gapush f => Sys2Proof.Machine.execGapush f s
  | .gatherElementArrival core id => Sys2Proof.Machine.execGatherElementArrival core id s
  | .gdpop f => Sys2Proof.Machine.execGdpop f s
  | .scpush f => Sys2Proof.Machine.execScpush f s
  | .wssub f => Sys2Proof.Machine.execWssub f s
  | .wsuns f => Sys2Proof.Machine.execWsuns f s
  | .fence f => Sys2Proof.Machine.execFence f s
  | .acq f => Sys2Proof.Machine.execAcq f s
  | .rel f => Sys2Proof.Machine.execRel f s
  | .relIncrement core id => Sys2Proof.Machine.execRelIncrement core id s
  | .bind f => Sys2Proof.Machine.execBind f s
  | .unbind f => Sys2Proof.Machine.execUnbind f s
  | .publish f => Sys2Proof.Machine.execPublish f s
  | .barr f => Sys2Proof.Machine.execBarr f s
  | .bexp f => Sys2Proof.Machine.execBexp f s
  | .bwait f => Sys2Proof.Machine.execBwait f s
  | .barrierArrival core id => Sys2Proof.Machine.execBarrierArrival core id s
  | .barrierPhaseComplete n => Sys2Proof.Machine.execBarrierPhaseComplete n s
  | .barrierChildClose n => Sys2Proof.Machine.execBarrierChildClose n s
  | .treeCompletionArrival n => Sys2Proof.Machine.execTreeCompletionArrival n s
  | .fopen f => Sys2Proof.Machine.execFopen f s
  | .fclose f => Sys2Proof.Machine.execFclose f s
  | .fnext f => Sys2Proof.Machine.execFnext f s
  | .fint f => Sys2Proof.Machine.execFint f s
  | .funi f => Sys2Proof.Machine.execFuni f s
  | .fskip f => Sys2Proof.Machine.execFskip f s
  | .fchild f => Sys2Proof.Machine.execFchild f s
  | .fpos f => Sys2Proof.Machine.execFpos f s
  | .fsave f => Sys2Proof.Machine.execFsave f s
  | .fload f => Sys2Proof.Machine.execFload f s
  | .fval f => Sys2Proof.Machine.execFval f s
  | .fend f => Sys2Proof.Machine.execFend f s
  | .replayableFaultPark core agent n => Sys2Proof.Machine.execReplayableFaultPark core agent n s
  | .quantumExpiry core => Sys2Proof.Machine.execQuantumExpiry core s
  | .yieldThresholdExpiry core => Sys2Proof.Machine.execYieldThresholdExpiry core s
  | .contextSaveComplete core => Sys2Proof.Machine.execContextSaveComplete core s
  | .contextRestoreComplete core => Sys2Proof.Machine.execContextRestoreComplete core s
  | .dispatch die => Sys2Proof.Machine.execDispatch die s
  | .gangReserve die task => Sys2Proof.Machine.execGangReserve die task s
  | .taskRetire core => Sys2Proof.Machine.execTaskRetire core s
  | .taskEnd task => Sys2Proof.Machine.execTaskEnd task s
  | .stepStart graph => Sys2Proof.Machine.execStepStart graph s
  | .stepEnd graph => Sys2Proof.Machine.execStepEnd graph s
  | .stageDeadlineExpiry graph stage => Sys2Proof.Machine.execStageDeadlineExpiry graph stage s
  | .stepRerun graph => Sys2Proof.Machine.execStepRerun graph s
  | .sequencerAssign graph => Sys2Proof.Machine.execSequencerAssign graph s
  | .graphAccept graph => Sys2Proof.Machine.execGraphAccept graph s
  | .queueService graph q => Sys2Proof.Machine.execQueueService graph q s
  | .ringToQueueMove graph q => Sys2Proof.Machine.execRingToQueueMove graph q s
  | .detCommit bay => Sys2Proof.Machine.execDetCommit bay s
  | .packetCompletionRecord packet => Sys2Proof.Machine.execPacketCompletionRecord packet s
  | .spargeStart part => Sys2Proof.Machine.execSpargeStart part s
  | .spargePortionWrite ch => Sys2Proof.Machine.execSpargePortionWrite ch s
  | .spargeStreamComplete ch => Sys2Proof.Machine.execSpargeStreamComplete ch s
  | .spargeStreamStop ch => Sys2Proof.Machine.execSpargeStreamStop ch s
  | .linkedCopyComplete part => Sys2Proof.Machine.execLinkedCopyComplete part s
  | .barrierExpectationArrival core id => Sys2Proof.Machine.execBarrierExpectationArrival core id s
  | .gyield => Sys2Proof.Machine.execGyield s
  | .gifence => Sys2Proof.Machine.execGifence s
  | .ckskip => Sys2Proof.Machine.execCkskip s
  | .gnop => Sys2Proof.Machine.execGnop s
  | .emitnEntryPlace core ctx => Sys2Proof.Machine.execEmitnEntryPlace core ctx s
  | .genWaitComplete core ctx => Sys2Proof.Machine.execGenWaitComplete core ctx s
  | .genWaitTimeout core ctx => Sys2Proof.Machine.execGenWaitTimeout core ctx s
  | .expandBundle core => Sys2Proof.Machine.execExpandBundle core s
  | .dictionaryMissFill core => Sys2Proof.Machine.execDictionaryMissFill core s
  | .exposedResultLands core => Sys2Proof.Machine.execExposedResultLands core s
  | .feedbackWrite core => Sys2Proof.Machine.execFeedbackWrite core s
  | .swaitComplete core => Sys2Proof.Machine.execSwaitComplete core s
  | .vBeat core slot => Sys2Proof.Machine.execVBeat core slot s
  | .maccBeat core => Sys2Proof.Machine.execMaccBeat core s
  | .drainRowPush core => Sys2Proof.Machine.execDrainRowPush core s
  | .xWaitComplete core slot => Sys2Proof.Machine.execXWaitComplete core slot s
  | .xWaitTimeout core slot => Sys2Proof.Machine.execXWaitTimeout core slot s
  | .fibreOpComplete core slot => Sys2Proof.Machine.execFibreOpComplete core slot s
  | .pageWalk core va => Sys2Proof.Machine.execPageWalk core va s
  | .fqVerdictReplay token => Sys2Proof.Machine.execFqVerdictReplay token s
  | .fqVerdictRefuse token => Sys2Proof.Machine.execFqVerdictRefuse token s
  | .fqEnable w0 w1 => Sys2Proof.Machine.execFqEnable w0 w1 s
  | .stopBoundary core => Sys2Proof.Machine.execStopBoundary core s
  | .snapshotEntryLands core => Sys2Proof.Machine.execSnapshotEntryLands core s
  | .ringTailUpdate ring => Sys2Proof.Machine.execRingTailUpdate ring s
  | .ringEnable ring w0 w1 => Sys2Proof.Machine.execRingEnable ring w0 w1 s
  | .ringErrClear ring => Sys2Proof.Machine.execRingErrClear ring s
  | .runPacket ring => Sys2Proof.Machine.execRunPacket ring s
  | .bayCreate ring => Sys2Proof.Machine.execBayCreate ring s
  | .bayModify ring => Sys2Proof.Machine.execBayModify ring s
  | .bayKill ring => Sys2Proof.Machine.execBayKill ring s
  | .copyPacket ring => Sys2Proof.Machine.execCopyPacket ring s
  | .fencePacket ring => Sys2Proof.Machine.execFencePacket ring s
  | .signalPacket ring => Sys2Proof.Machine.execSignalPacket ring s
  | .configRidgeBarrier ring => Sys2Proof.Machine.execConfigRidgeBarrier ring s
  | .configPublishSlot ring => Sys2Proof.Machine.execConfigPublishSlot ring s
  | .configTranslationInvalidation ring => Sys2Proof.Machine.execConfigTranslationInvalidation ring s
  | .configCaskPolicy ring => Sys2Proof.Machine.execConfigCaskPolicy ring s
  | .remoteRequestArrival r => Sys2Proof.Machine.execRemoteRequestArrival r s
  | .flitCrcRetry link => Sys2Proof.Machine.execFlitCrcRetry link s
  | .laneFailure link => Sys2Proof.Machine.execLaneFailure link s
  | .flitLost link core id => Sys2Proof.Machine.execFlitLost link core id s
  | .linkDown link => Sys2Proof.Machine.execLinkDown link s
  | .cxlPoisonedCompletion port core id => Sys2Proof.Machine.execCxlPoisonedCompletion port core id s
  | .cxlCompletionTimeout port core id => Sys2Proof.Machine.execCxlCompletionTimeout port core id s
  | .registerWrite offset value => Sys2Proof.Machine.execRegisterWrite offset value s
  | .patrolScrub stack address corrected => Sys2Proof.Machine.execPatrolScrub stack address corrected s
  | .uncorrectableError r => Sys2Proof.Machine.execUncorrectableError r s
  | .coreRepair core spareLeft => Sys2Proof.Machine.execCoreRepair core spareLeft s
  | .hbmChannelSparing stack spareLeft => Sys2Proof.Machine.execHbmChannelSparing stack spareLeft s
  | .firmwareUpdate core image digest => Sys2Proof.Machine.execFirmwareUpdate core image digest s
  | .recalibration die cluster cycles => Sys2Proof.Machine.execRecalibration die cluster cycles s
  | .clockStep die step cause => Sys2Proof.Machine.execClockStep die step cause s
  | .thermalShutdown die => Sys2Proof.Machine.execThermalShutdown die s
  | .packageReset => Sys2Proof.Machine.execPackageReset s
  | .getMeasurements index => Sys2Proof.Machine.execGetMeasurements index s
  | .telemetryRead => Sys2Proof.Machine.execTelemetryRead s
  | .hostCxlMemAccess address len data => Sys2Proof.Machine.execHostCxlMemAccess address len data s
  | .cxlCacheSnoop address data => Sys2Proof.Machine.execCxlCacheSnoop address data s
  | .longReachReadArrival stack package group offset len => Sys2Proof.Machine.execLongReachReadArrival stack package group offset len s
  | .rowRepair unit index outcome => Sys2Proof.Machine.execRowRepair unit index outcome s

end Sys2Proof.Machine
end

