-- ==== Sys2Proof/Safety.lean ====
section
/-! DEFINITION. What a safe state is, in the terms the statements use: every memory of the package is in canonical form. -/

namespace Sys2Proof.Machine

/-- The memories of one core are in canonical form. -/
def Core.memWf (c : Core) : Prop := Memory.wf c.scratch = true ∧ Memory.wf c.loft = true

/-- Every memory of the package is in canonical form, those kept for saved tasks included. -/
def State.memWf (s : State) : Prop :=
  Memory.wf s.mem = true ∧ (∀ n, (s.core n).memWf) ∧ ∀ t ∈ s.tasks, ∀ x ∈ t.saved, Memory.wf x.scratch = true

end Sys2Proof.Machine
end

