-- ==== Sys2Proof/WellFormed.lean ====
section
/-! DEFINITION. Which terms of `Instr` the encoding admits: the used fields of a generator word hold values that the instruction
defines (R95, R50). Every value of a slot field is an encoding (R82 gives each a meaning), and a step that is no instruction word
has no encoding. -/

namespace Sys2Proof

/-- A steer register number k0 to k11 (R50). -/
def steerOk (k : BitVec 4) : Bool := decide (k.toNat ≤ 11)

/-- A dictionary index that an emit instruction may name (R95, R119). -/
def indexOk (i : BitVec 16) : Bool := i != 0xFFFF

/-- A compose register number c0 to c5 (R121). -/
def composeOk (n : BitVec 3) : Bool := decide (n.toNat ≤ 5)

/-- A cache policy of a generator access (R115). -/
def genPolOk (p : BitVec 2) : Bool := p != 3

/-- A generator word that the decoder accepts. -/
def Instr.wf : Instr → Bool
  | .gamo _ _ _ op _ _ => decide (op.toNat ≤ 10)
  | .gcmp k _ _ _ => steerOk k
  | .gcmpi k _ _ _ => steerOk k
  | .gbr k => steerOk k
  | .gbrf k => steerOk k
  | .gfb k _ _ _ => steerOk k
  | .launchT k _ _ => steerOk k
  | .launchG k _ _ => steerOk k
  | .join k a _ => steerOk k && a != 31
  | .qpush k _ _ _ => steerOk k
  | .qpop k _ _ _ => steerOk k
  | .gbwait k _ _ => steerOk k
  | .ckdecide k _ => steerOk k
  | .gprepPc k _ => steerOk k
  | .gprepReg k _ _ => steerOk k
  | .emit i => indexOk i
  | .emitp i _ _ => indexOk i
  | .emitn i _ _ _ => indexOk i
  | .cldd i => indexOk i
  | .emitl m a => m != 0 || a == 0
  | .cset n _ => composeOk n
  | .cget _ n => composeOk n
  | .gld _ _ t p _ => t != 7 && genPolOk p
  | .gst _ _ _ p _ _ => genPolOk p
  | _ => true

end Sys2Proof
end

