-- ==== Sys2Proof/Certificates/Slice0/Obligations.lean ====
section
/-! DEFINITION. The statements for the provers, and the conditions they share. -/

namespace Sys2Proof.Claims

open Sys2Proof.Machine

/-! ### Conditions of the generator -/

/-- The executing context may issue an instruction that reads `rs`: its core runs it, it waits for nothing, no reply is still to come
for one of them (R103), and no earlier instruction of it may still fault (R106; assumption 105). -/
def GenMay (s : State) (rs : List Reg) : Prop := genReady s rs = true

/-- The same, outside handler mode. -/
def GenUser (s : State) (rs : List Reg) : Prop := genReady s rs = true ∧ (curG s).handler = false

/-- The address at which the context goes on after `len` bytes, past the loops that end here, is a code address (R53, R95). -/
def GoesOn (s : State) (len : Nat) : Prop := (advance (curG s) len).pc.toNat % 4 = 0

/-- The state in which an instruction of `len` bytes has written `v` to gD and nothing else, and the context goes on. -/
def wrote (s : State) (d : Reg) (len : Nat) (v : W64) : State := modCurG s fun g => advance (gSet g d v) len

/-- The state in which an instruction of `len` bytes has changed the executing context so, and the context goes on. -/
def changed (s : State) (len : Nat) (f : GenCtx → GenCtx) : State := modCurG s fun g => advance (f g) len

end Sys2Proof.Claims

open Sys2Proof Sys2Proof.Machine Sys2Proof.Claims

/-! ### The generator -/

/-- R108: the register forms write f(gA, gB) to gD and complete, whatever the values; nothing else changes. -/
def Sys2Proof.Claims.GeneratorRegisterForms : Prop :=
  ∀ (s : State) (d a b : Reg), GenMay s [a, b] → GoesOn s 4 →
    let x := gReg (curG s) a
    let y := gReg (curG s) b
    let sh := y.toNat % 64
    let ans (v : W64) : Host.Outcome State Fault Refusal := .next (wrote s d 4 v)
    exec (.gadd d a b) s = ans (x + y) ∧
    exec (.gsub d a b) s = ans (x - y) ∧
    exec (.gmul d a b) s = ans (x * y) ∧
    exec (.gmulh d a b) s = ans ((x.signExtend 128 * y.signExtend 128).extractLsb' 64 64) ∧
    exec (.gmulhn d a b) s = ans ((x.setWidth 128 * y.setWidth 128).extractLsb' 64 64) ∧
    exec (.gdiv d a b) s = ans (if y = 0 then BitVec.allOnes 64 else x.sdiv y) ∧
    exec (.grem d a b) s = ans (if y = 0 then x else x.srem y) ∧
    exec (.gdivn d a b) s = ans (if y = 0 then BitVec.allOnes 64 else x.udiv y) ∧
    exec (.gremn d a b) s = ans (if y = 0 then x else x.umod y) ∧
    exec (.gand d a b) s = ans (x &&& y) ∧
    exec (.gor d a b) s = ans (x ||| y) ∧
    exec (.gxor d a b) s = ans (x ^^^ y) ∧
    exec (.gshl d a b) s = ans (BitVec.ofNat 64 (x.toNat * 2 ^ sh)) ∧
    exec (.gshr d a b) s = ans (BitVec.ofNat 64 (x.toNat / 2 ^ sh)) ∧
    exec (.gsra d a b) s = ans (BitVec.ofInt 64 (x.toInt / 2 ^ sh)) ∧
    exec (.gmin d a b) s = ans (if x.toInt ≤ y.toInt then x else y) ∧
    exec (.gmax d a b) s = ans (if x.toInt ≤ y.toInt then y else x)

/-- R108, R109: the immediate forms. The shift amounts are those the decoder admits, 0 to 63. -/
def Sys2Proof.Claims.GeneratorImmediateForms : Prop :=
  ∀ (s : State) (d a : Reg) (imm : BitVec 15) (sh : BitVec 6) (w2 : BitVec 32), GenMay s [a, d] → GoesOn s 4 → GoesOn s 8 →
    let x := gReg (curG s) a
    let y : W64 := imm.signExtend 64
    let ans (len : Nat) (v : W64) : Host.Outcome State Fault Refusal := .next (wrote s d len v)
    exec (.gaddi d a imm) s = ans 4 (x + y) ∧
    exec (.gandi d a imm) s = ans 4 (x &&& y) ∧
    exec (.gori d a imm) s = ans 4 (x ||| y) ∧
    exec (.gxori d a imm) s = ans 4 (x ^^^ y) ∧
    exec (.gshli d a sh) s = ans 4 (BitVec.ofNat 64 (x.toNat * 2 ^ sh.toNat)) ∧
    exec (.gshri d a sh) s = ans 4 (BitVec.ofNat 64 (x.toNat / 2 ^ sh.toNat)) ∧
    exec (.gsrai d a sh) s = ans 4 (BitVec.ofInt 64 (x.toInt / 2 ^ sh.toNat)) ∧
    exec (.gli d w2) s = ans 8 (w2.signExtend 64) ∧
    exec (.glih d w2) s = ans 8 (w2 ++ (gReg (curG s) d).extractLsb' 0 32)

/-- R95, R108: a shift amount outside 0 to 63 is no instruction: it raises 0x041 at decode. -/
def Sys2Proof.Claims.GeneratorShiftAmounts : Prop :=
  ∀ (w : Nat), (w % 2 ^ 7 = 0x15 ∨ w % 2 ^ 7 = 0x16 ∨ w % 2 ^ 7 = 0x17) → 63 < w / 2 ^ 17 % 2 ^ 15 →
    decodeGen w = .bad .reservedFunction ∧ DecodeError.reservedFunction.cause = 0x041

/-- R46, R303: g0 reads 0 and a write to it is discarded; in handler mode g28 to g31 name hg28 to hg31 and the user's own keep
their values; every other register keeps its value when one is written. -/
def Obligations.GeneratorRegisterFile : Prop :=
  ∀ (g : GenCtx) (d r : Reg) (v : W64),
    gReg g 0 = 0 ∧ gSet g 0 v = g ∧
    gReg (gSet g d v) r = (if r = d ∧ d ≠ 0 then v else gReg g r) ∧
    (g.handler = true → 28 ≤ d.toNat → (gSet g d v).g = g.g)

/-- R50, R110, R111: compares write C and CV of kK, and prepared branches TARGET and TV; a prepared branch starts the fetch at its
target, and one whose fetch would fault completes without it. -/
def Sys2Proof.Claims.GeneratorComparesAndPrepares : Prop :=
  ∀ (s : State) (k : BitVec 4) (cc : BitVec 3) (a b : Reg) (w2 : BitVec 32), k.toNat < 12 → GenMay s [a, b] → GoesOn s 4 → GoesOn s 8 →
    let x := gReg (curG s) a
    let test (y : W64) : Bool := match cc.toNat with
      | 0 => x == y | 1 => x != y
      | 2 => decide (x.toInt < y.toInt) | 3 => decide (y.toInt ≤ x.toInt)
      | 4 => decide (x.toNat < y.toNat) | 5 => decide (y.toNat ≤ x.toNat)
      | 6 => x &&& y != 0 | _ => x &&& y == 0
    let cond (g : GenCtx) (c : Bool) : GenCtx := { g with k := wr g.k k.toNat { rd g.k k.toNat {} with cv := true, c := c, busy := false } }
    let target (g : GenCtx) (t : BitVec 48) : GenCtx :=
      { g with k := wr g.k k.toNat { rd g.k k.toNat {} with tv := true, target := t, prepAt := some s.now } }
    exec (.gcmp k cc a b) s = .next (changed s 4 fun g => cond g (test (gReg g b))) ∧
    exec (.gcmpi k cc a w2) s = .next (changed s 8 fun g => cond g (test (w2.signExtend 64))) ∧
    let prepares (i : Instr) (t : BitVec 48) : Prop :=
      let p := modCurG s fun g => target g t
      (∀ u w, fetchBytes p s.cur.core t.toNat 4 false = (u, .inl w) → GoesOn u 8 → exec i s = .next (changed u 8 id)) ∧
      (∀ u e, fetchBytes p s.cur.core t.toNat 4 false = (u, .inr e) → exec i s = .next (changed p 8 id))
    prepares (.gprepPc k w2) ((curG s).pc + w2.signExtend 48) ∧ prepares (.gprepReg k a w2) ((x + w2.signExtend 64).setWidth 48)

/-- R50, R51, R53, R112: a branch on a written condition with a prepared, aligned target goes there when the condition is the one it
asks for, with 3 less the cycles since its GPREP as bubbles, and on to the next instruction otherwise. -/
def Sys2Proof.Claims.GeneratorBranches : Prop :=
  ∀ (s : State) (k : BitVec 4), GenMay s [] → GoesOn s 4 →
    let st := rd (curG s).k k.toNat {}
    st.cv = true → st.tv = true → st.target.toNat % 4 = 0 →
    let late := match st.prepAt with | some t => 3 - (s.now - t) | none => 0
    let gone := modCurG s fun g => { g with pc := st.target, readyAt := s.now + 1 + late }
    exec (.gbr k) s = .next (if st.c then gone else changed s 4 id) ∧
    exec (.gbrf k) s = .next (if st.c then changed s 4 id else gone)

/-- R95, R112: GJAL and GJALR write the return address to gD, read gA first, and jump with 2 and 3 bubbles; one that would jump to
an address that is not a multiple of 4 raises 0x060 and changes nothing of its context. -/
def Sys2Proof.Claims.GeneratorJumps : Prop :=
  ∀ (s : State) (d a : Reg) (w2 : BitVec 32), GenMay s [a] →
    let pc := (curG s).pc
    let jump (dest back : BitVec 48) (n : Nat) : Host.Outcome State Fault Refusal :=
      .next (if dest.toNat % 4 = 0 then
          modCurG s fun g => { gSet g d (back.setWidth 64) with pc := dest, readyAt := s.now + 1 + n }
        else genFault s 0x060 0 0 0)
    exec (.gjal d w2) s = jump (pc + w2.signExtend 48) (pc + 8) 2 ∧
    exec (.gjalr d a) s = jump ((gReg (curG s) a).setWidth 48) (pc + 4) 3

namespace Sys2Proof.Claims

/-- The address at which the context goes on after the change `f` and `len` bytes is a code address. -/
def GoesOnAs (s : State) (len : Nat) (f : GenCtx → GenCtx) : Prop := (advance (f (curG s)) len).pc.toNat % 4 = 0

/-- The state whose own counter has moved on by one. -/
def used (s : State) : State := { s with fresh := s.fresh + 1 }

/-- The condition of kK written: CV = 1 and C. -/
def cond (k : BitVec 4) (c : Bool) (g : GenCtx) : GenCtx :=
  { g with k := wr g.k k.toNat { rd g.k k.toNat {} with cv := true, c := c, busy := false } }

/-- A writer of the condition of kK is in flight: CV = 0. -/
def inFlight (k : BitVec 4) (g : GenCtx) : GenCtx :=
  { g with k := wr g.k k.toNat { rd g.k k.toNat {} with cv := false, busy := true } }

/-- The timeout that gB names: MLT_TMO for g0 (R48, R104). -/
def timeoutOf (g : GenCtx) (b : Reg) : W64 := if b = 0 then g.tmo else gReg g b

/-- The state in which `i`, just issued, waits. -/
def waiting (s : State) (i : Instr) (t : W64) (note : Nat) (f : GenCtx → GenCtx) : State :=
  modCurG (used s) fun g => { f g with wait := some { instr := i, since := s.now, timeout := t, mark := s.fresh, note := note } }

/-- The state in which `i`, just issued, waits with CV = 0; its steer register as it was is kept, for a fault (R50, R106). -/
def steering (s : State) (i : Instr) (t : W64) (note : Nat) (k : BitVec 4) : State :=
  modCurG (used s) fun g =>
    { inFlight k g with wait := some { instr := i, since := s.now, timeout := t, mark := s.fresh, note := note,
                                       steer := some (k.toNat, rd g.k k.toNat {}) } }

/-- What a wait of steer register `k` does at issue, given whether its condition holds and the state in which it then completes
(R50, R104): it completes with its effect, expires at once for a timeout of 0 with C = 0 alone, or waits with CV = 0. -/
def WaitIssues (s : State) (i : Instr) (k : BitVec 4) (t : W64) (note : Nat) (holds : Prop) (met : State) : Prop :=
  (holds → exec i s = .next met) ∧
  (¬holds → t = 0 → exec i s = .next (changed (used s) 4 (cond k false))) ∧
  (¬holds → t ≠ 0 → exec i s = .next (steering s i t note k))

/-- The mask bits set below lane `i`. -/
def lanesBelow (mask : BitVec 4) (i : Nat) : Nat := (List.range i).countP mask.getLsbD

/-- Patch values in lane order, from consecutive registers (R58). -/
def patches (g : GenCtx) (mask : BitVec 4) (gp : Reg) : Vector W64 4 :=
  Vector.ofFn fun i => if mask.getLsbD i then gReg g (gp + BitVec.ofNat 5 (lanesBelow mask i)) else 0

/-- The emit-queue entry that the executing context places next, for a bundle `n` after that number (R55). -/
def entry (s : State) (lit : Option (BitVec 384)) (index : BitVec 16) (mask : BitVec 4) (vals : Vector W64 4) : EmitEntry :=
  { ctx := s.cur.ctx, lit := lit, index := index, pmask := mask, pval := vals, gpc := (curG s).pc, eseq := (curG s).eseq }

/-- The state with an entry at the tail of the executing core's emit queue. -/
def queued (s : State) (e : EmitEntry) : State := s.modE s.cur.core fun x => { x with emitQ := x.emitQ ++ [e] }

/-- The context whose next bundle has the next number. -/
def numbered (g : GenCtx) : GenCtx := { g with eseq := g.eseq + 1 }

/-- The register that gD names: g28 to g31 are hg28 to hg31 in handler mode (R303). -/
def named (g : GenCtx) (d : Reg) : GenDest := if g.handler = true ∧ 28 ≤ d.toNat then .hg (d.toNat - 28) else .g d

/-- The reply of an access to come for gD, with what a fault of it names: its kind, its address, and the instruction with its words; an
older reply for the same register is overtaken. While a `firm` reply is to come nothing later of the context issues (R106). -/
def expects (id : Nat) (d : Reg) (v : W64) (kind : Nat) (va bits : W64) (firm : Bool) (g : GenCtx) : GenCtx :=
  { g with loads := (g.loads.map fun l => if l.dest = named g d then { l with dest := .g 0 } else l) ++
                      [{ id := id, dest := named g d, val := v.setWidth 384, gpc := g.pc, bits := bits, kind := kind, va := va,
                         hm := g.handler, firm := firm }] }

/-- The agent of a generator access of a kind. -/
def genAgent (s : State) (kind : Nat) : Who :=
  let n := s.cur.core
  { core := some n, bay := s.bayOn n, kind := kind, task := (s.core n).task, fw := decide (s.cur.ctx = .firmware) }

/-- Every piece of an access is allowed at its target (R370). -/
def Allowed (s : State) (ps : List Piece) (rdw wrw : Bool) : Prop := ∀ p ∈ ps, pieceDenied s p rdw wrw = false

end Sys2Proof.Claims

/-- R53: the loop-end check at the address of an instruction that completes without branching, innermost loop first; in handler mode
it is not made (R303). A taken branch and a jump leave every loop as it is. -/
def Obligations.LoopEndCheck : Prop :=
  (∀ (g : GenCtx) (len n : Nat) (rest : List Nat), g.nest = n :: rest → n ∉ rest →
    let l := rd g.lp n {}
    let onward : GenCtx := { g with pc := g.pc + BitVec.ofNat 48 len }
    (g.handler = true → advance g len = onward) ∧
    (g.handler = false → g.pc ≠ l.lstop → advance g len = onward) ∧
    (g.handler = false → g.pc = l.lstop → l.count.toNat ≤ 1 →
      advance g len = advance { g with lp := wr g.lp n { l with count := 0, active := false }, nest := rest } len) ∧
    (g.handler = false → g.pc = l.lstop → 1 < l.count.toNat →
      advance g len = { g with lp := wr g.lp n { l with count := l.count - 1 }, pc := l.lstart })) ∧
  (∀ (g : GenCtx) (len : Nat), g.nest = [] → advance g len = { g with pc := g.pc + BitVec.ofNat 48 len }) ∧
  (∀ (s : State) (k : BitVec 4) (d a : Reg) (w2 : BitVec 32), GenMay s [a] →
    let g := curG s
    let st := rd g.k k.toNat {}
    let goes (i : Instr) (dest : BitVec 48) : Prop := dest.toNat % 4 = 0 →
      ∃ t, exec i s = .next t ∧ (curG t).pc = dest ∧ (curG t).lp = g.lp ∧ (curG t).nest = g.nest
    (st.cv = true → st.tv = true → (st.c = true → goes (.gbr k) st.target) ∧ (st.c = false → goes (.gbrf k) st.target)) ∧
    goes (.gjal d w2) (g.pc + w2.signExtend 48) ∧ goes (.gjalr d a) ((gReg g a).setWidth 48))

/-- R52, R95, R113: GLOOP and GLOOP.RE start a hardware loop, the first that applies of their three faults raised otherwise; a count of
0 goes on after the instruction at the end address, and raises 0x060 when that address is no multiple of 4. What the loop register holds
after a count of 0, and that 0x060 comes before any fault of reading the length there, are the model's choices (assumption 25). -/
def Sys2Proof.Claims.GeneratorLoops : Prop :=
  ∀ (s : State) (n : BitVec 2) (a : Reg) (w2 : BitVec 32), GenUser s [a] →
    let g := curG s
    let l := rd g.lp n.toNat {}
    let count := (gReg g a).setWidth 32
    let starts (i : Instr) (l : Loop) (start stop : BitVec 48) : Prop :=
      let on (act : Bool) (g : GenCtx) : GenCtx :=
        { g with lp := wr g.lp n.toNat { l with count := count, active := act, lstart := start, lstop := stop } }
      let enter (g : GenCtx) : GenCtx := { on true g with nest := n.toNat :: g.nest }
      (4 ≤ g.nest.length → exec i s = .next (genFault s 0x050 0 0 0)) ∧
      (g.nest.length < 4 → l.active = true → exec i s = .next (genFault s 0x052 0 0 0)) ∧
      (g.nest.length < 4 → l.active = false → stop.toNat < start.toNat → exec i s = .next (genFault s 0x051 0 0 0)) ∧
      (g.nest.length < 4 → l.active = false → start.toNat ≤ stop.toNat → count ≠ 0 → GoesOnAs s 8 enter →
        exec i s = .next (changed s 8 enter)) ∧
      (g.nest.length < 4 → l.active = false → start.toNat ≤ stop.toNat → count = 0 →
        (stop.toNat % 4 ≠ 0 → exec i s = .next (genFault s 0x060 0 0 0)) ∧
        (stop.toNat % 4 = 0 → ∀ t w, fetchBytes (modCurG s (on false)) s.cur.core stop.toNat 4 false = (t, .inl w) →
          (stop + BitVec.ofNat 48 (genLength w)).toNat % 4 = 0 →
            exec i s = .next (modCurG t fun g => { g with pc := stop + BitVec.ofNat 48 (genLength w) })) ∧
        (stop.toNat % 4 = 0 → ∀ t e, fetchBytes (modCurG s (on false)) s.cur.core stop.toNat 4 false = (t, .inr e) →
          exec i s = .next (genFault s e.cause e.addr e.det0 e.det1)))
    starts (.gloop n a w2) { l with start := g.pc + 8, stop := g.pc + w2.signExtend 48 } (g.pc + 8) (g.pc + w2.signExtend 48) ∧
    starts (.gloopRe n a) l l.start l.stop

/-- R54, R114: GLPGET reads a field of a loop register, its count live; GLPSET writes one, or deactivates the loop with the outer
loops in their order, and cannot activate one. -/
def Sys2Proof.Claims.LoopRegisters : Prop :=
  ∀ (s : State) (d a : Reg) (n : BitVec 2), GenUser s [a] → GoesOn s 4 →
    let l := rd (curG s).lp n.toNat {}
    let v := gReg (curG s) a
    let put (l : Loop) (g : GenCtx) : GenCtx := { g with lp := wr g.lp n.toNat l }
    let sets (f : BitVec 2) (change : GenCtx → GenCtx) : Prop :=
      GoesOnAs s 4 change → exec (.glpset n f a) s = .next (changed s 4 change)
    exec (.glpget d n 0) s = .next (wrote s d 4 (l.count.setWidth 64)) ∧
    exec (.glpget d n 1) s = .next (wrote s d 4 (l.start.setWidth 64)) ∧
    exec (.glpget d n 2) s = .next (wrote s d 4 (l.stop.setWidth 64)) ∧
    exec (.glpget d n 3) s = .next (wrote s d 4 (if l.active then 1 else 0)) ∧
    sets 0 (put { l with count := v.setWidth 32 }) ∧ sets 1 (put { l with start := v.setWidth 48 }) ∧
    sets 2 (put { l with stop := v.setWidth 48 }) ∧
    (v.getLsbD 0 = false → sets 3 fun g => { put { l with active := false } g with nest := g.nest.filter (· != n.toNat) }) ∧
    (v.getLsbD 0 = true → exec (.glpset n 3 a) s = .next (genFault s 0x053 0 0 0))

/-- R121, R123, R137: step registers and compose registers move to and from g registers, CLDD asks for a dictionary entry's bytes in
the Loft, and GNOP changes nothing but the program counter. -/
def Sys2Proof.Claims.StepAndComposeRegisters : Prop :=
  ∀ (s : State) (d a : Reg) (n : BitVec 4) (c : BitVec 3) (idx : BitVec 16) (t : Task),
    GenUser s [a] → GoesOn s 4 → s.taskOn s.cur.core = some t → (∀ l ∈ (curG s).loads, l.dest ≠ .compose) →
    let g := curG s
    let bytes := memRead (s.core s.cur.core).loft (g.dbase.toNat + 48 * idx.toNat) 48
    exec (.gms d n) s = .next (wrote s d 4 (rd t.ms n.toNat 0)) ∧
    exec (.cset c a) s = .next (changed s 4 fun g => { g with c := wr g.c c.toNat (gReg g a) }) ∧
    exec (.cget d c) s = .next (wrote s d 4 (rd g.c c.toNat 0)) ∧
    exec .gnop s = .next (changed s 4 id) ∧
    (idx.toNat < g.dlen → exec (.cldd idx) s = .next (changed (used s) 4 fun g =>
      { g with loads := g.loads ++
          [{ id := s.fresh, dest := .compose, val := BitVec.ofNat 384 (ofBytes bytes), gpc := g.pc, bits := s.cur.bits }] })) ∧
    (g.dlen ≤ idx.toNat → exec (.cldd idx) s = .next (genFault s 0x05B 0 0 0))

/-- R48, R136: the user context reads the control registers of the table and writes MLT_HBASE and MLT_TMO alone; reading MLT_FBSTAT
clears the overrun bits; a privileged register raises 0x068, a number outside the table 0x069, and a misaligned handler address
0x060, each with the registers unchanged. -/
def Sys2Proof.Claims.ControlRegisters : Prop :=
  ∀ (s : State) (d a : Reg) (n : BitVec 15), GenMay s [a] → GoesOn s 4 → s.cur.ctx = .user →
    let g := curG s
    let v := gReg g a
    let fails (i : Instr) (c : BitVec 9) : Prop := exec i s = .next (genFault s c 0 0 0)
    let reads (n : BitVec 15) (v : W64) : Prop := exec (.gcrr d n) s = .next (wrote s d 4 v)
    reads 0 (g.eseq.setWidth 64) ∧ reads 1 (g.hbase.setWidth 64) ∧ reads 2 g.tmo ∧ reads 3 g.dbase ∧ reads 4 (BitVec.ofNat 64 g.dlen) ∧
    (∃ st : W64, (∀ i, i < 8 → st.getLsbD i = (rd g.fb i {}).valid ∧ st.getLsbD (8 + i) = (rd g.fb i {}).overrun) ∧ st.toNat < 2 ^ 16 ∧
      exec (.gcrr d 5) s = .next (changed s 4 fun g => gSet { g with fb := g.fb.map fun f => { f with overrun := false } } d st)) ∧
    reads 6 (BitVec.ofNat 64 s.cur.core) ∧ reads 7 (BitVec.ofNat 64 g.eprog) ∧ fails (.gcrr d 0x10) 0x068 ∧
    (7 < n.toNat → n ≠ 0x10 → fails (.gcrr d n) 0x069 ∧ fails (.gcrw n a) 0x069) ∧
    ((n = 0 ∨ n = 3 ∨ n = 4 ∨ n = 5 ∨ n = 6 ∨ n = 7 ∨ n = 0x10) → fails (.gcrw n a) 0x068) ∧
    (v.toNat % 4 = 0 → exec (.gcrw 1 a) s = .next (changed s 4 fun g => { g with hbase := v.setWidth 48 })) ∧
    (v.toNat % 4 ≠ 0 → fails (.gcrw 1 a) 0x060) ∧
    exec (.gcrw 2 a) s = .next (changed s 4 fun g => { g with tmo := v })

/-- R134, R135, R304: GTRAP raises 0x078 with its immediate; GERET outside a handler raises 0x06A, and after a level-E fault with 1
raises 0x041; otherwise it leaves handler mode, restarts the generator at hg30 (with 0), and the core goes on from the next cycle
unless another fault or stop waits; in a recalibration stall it goes on when that ends (R306). In a handler it waits for a reply still to
come for hg30 (R103). -/
def Obligations.TrapAndReturn : Prop :=
  ∀ (s : State) (imm : BitVec 15) (st : BitVec 1), GenMay s [] → s.cur.ctx = .user →
    let n := s.cur.core
    let g := curG s
    let first := (s.core n).stop.bind fun x => x.faults.head?
    exec (.gtrap imm) s = .next (genFault s 0x078 0 (imm.setWidth 64) 0) ∧
    (g.handler = false → exec (.geret st) s = .next (genFault s 0x06A 0 0 0)) ∧
    (g.handler = true → ¬GenMay s [30] → exec (.geret st) s = .next s) ∧
    (g.handler = true → GenMay s [30] → (∃ f, first = some f ∧ f.levelE = true) → exec (.geret 1) s = .next (genFault s 0x041 0 0 0)) ∧
    (g.handler = true → GenMay s [30] → (rd g.hg 2 0).toNat % 4 = 0 → ∃ t, exec (.geret 0) s = .next t ∧
      (t.core n).e.user.handler = false ∧ (t.core n).e.user.pc = (rd g.hg 2 0).setWidth 48 ∧ t.mem = s.mem ∧
      (t.core n).e.slotQ.map List.length = (s.core n).e.slotQ.map List.length ∧
      ((s.core n).held = [] → (s.core n).stopNext = none → (t.core n).stop = none ∧
        ((s.core n).stop ≠ none → (t.core n).e.resumed = max (s.now + 1) (s.core n).stallUntil)))

/-- R115, R116: loads, stores and prefetches of the generator. A checked, allowed access is made at issue: a load's bytes, zero-
or sign-extended, come back as a reply for gD, and lost bytes (R389) fault it; a store writes gB's low bytes, or waits for a line of its
bay's shadow arena (R338), and one that leaves for another package has its acknowledgement to come (R374); a
prefetch brings its line into the L1 or its L2 slice, and one that would fault is dropped. Model's own choices: assumptions 6, 8, 55 and
105. -/
def Obligations.GeneratorMemoryAccess : Prop :=
  ∀ (s : State) (d a b : Reg) (t : BitVec 3) (z pol : BitVec 2) (col : BitVec 3) (l : BitVec 1) (w2 : BitVec 32), GenMay s [a, b] → GoesOn s 8 →
    let n := s.cur.core
    let va := gReg (curG s) a + w2.signExtend 64
    let len := 2 ^ (t.toNat % 4)
    let policy : Pol := if pol = 0 then .wb else if pol = 1 then .stream else .uc
    let wide (v : Nat) : W64 :=
      if t.toNat < 4 then BitVec.ofNat 64 (v % 2 ^ (8 * len)) else (BitVec.ofNat (8 * len) v).signExtend 64
    let who := genAgent s
    (∀ s1 ps, access s (who 0) va len len policy = (s1, .ok ps) →
      (loadKind s1 n ps = none → ∀ r, r = readPieces s1 (some n) true (s1.core n).task [] ps → GoesOn r.1 8 →
        exec (.gld d a t pol w2) s =
          .next (changed (used r.1) 8 (expects r.1.fresh d (wide (ofBytes r.2)) 0 va r.1.cur.bits (mayFail s1 n ps)))) ∧
      (¬Allowed s1 ps true false → exec (.gld d a t pol w2) s = .next (genFault s1 0x084 va 0 0)) ∧
      (∀ f, Allowed s1 ps true false → loadKind s1 n ps = some f → exec (.gld d a t pol w2) s =
        .next (genFault (dropRead s1 (genAgent s1 0) f va len) (BitVec.ofNat 9 (0x080 + f)) va 0 0))) ∧
    (∀ s1 e, access s (who 0) va len len policy = (s1, .bad e) → exec (.gld d a t pol w2) s = .next (genFault s1 e.cause e.addr e.det0 e.det1)) ∧
    (∀ s1 ps, access s (who 1) va (2 ^ z.toNat) (2 ^ z.toNat) policy = (s1, .ok ps) →
      (Allowed s1 ps false true → shadowRoom s1 (s1.core n).task ps = false → exec (.gst a b z pol col w2) s = .next (starve s1 n)) ∧
      (Allowed s1 ps false true → shadowRoom s1 (s1.core n).task ps = true → ∀ s2, s2 = writePieces s1 (some n) true (s1.core n).task col ps (toBytes (2 ^ z.toNat) (gReg (curG s) b).toNat) →
        let leaving := shadowTask s1 (s1.core n).task = none ∧ ∃ p ∈ ps, l1Holds s1 n p = false ∧ remoteOf s1 p ≠ none
        GoesOn s2 8 → (¬leaving → exec (.gst a b z pol col w2) s = .next (changed s2 8 id)) ∧
          (leaving → exec (.gst a b z pol col w2) s = .next (changed (used s2) 8 (expects s2.fresh 0 0 1 va s2.cur.bits true)))) ∧
      (¬Allowed s1 ps false true → exec (.gst a b z pol col w2) s = .next (genFault s1 0x08C va 0 0))) ∧
    (∀ s1 e, access s (who 1) va (2 ^ z.toNat) (2 ^ z.toNat) policy = (s1, .bad e) →
      exec (.gst a b z pol col w2) s = .next (genFault s1 e.cause e.addr e.det0 e.det1)) ∧
    (∀ s1 e, access s (who 0) va 1 1 .wb = (s1, .bad e) → GoesOn s1 8 → exec (.gpref a l w2) s = .next (changed s1 8 id)) ∧
    (∀ s1 ps, access s (who 0) va 1 1 .wb = (s1, .ok ps) → ∀ s2,
      s2 = ps.foldl (fun s p => if l = 0 then prefetchPiece s s.cur.core p else prefetchL2 s p) s1 → GoesOn s2 8 → exec (.gpref a l w2) s = .next (changed s2 8 id))

namespace Sys2Proof.Claims

/-- What an atomic other than FADD computes, as R117 writes it, on memory words of `w` bits. -/
def atomicNew {w : Nat} (op : Nat) (old b cmp : BitVec w) : BitVec w :=
  match op with
  | 0 => old + b
  | 1 => old &&& b
  | 2 => old ||| b
  | 3 => old ^^^ b
  | 4 => if b.toInt < old.toInt then b else old
  | 5 => if old.toInt < b.toInt then b else old
  | 6 => if b.toNat < old.toNat then b else old
  | 7 => if old.toNat < b.toNat then b else old
  | 8 => b
  | _ => if old = cmp then b else old

/-- The state in which a queue instruction waits to be served, or an entry of a multi-entry emit is being placed. -/
def held (s : State) (i : Instr) : State := waiting s i (BitVec.allOnes 64) 0 id

/-- The children of a list that ended so. -/
def ended (cs : List Child) (p : End → Bool) : Nat := cs.countP fun c => match c.how with | some h => p h | none => false

/-- The child failed: faulted or killed. -/
def failed (c : Child) : Bool :=
  match c.how with
  | some (.faulted _) => true
  | some .killed => true
  | _ => false

/-- The conditions that GSYNC's flags select (R124); a generator store is performed at its issue. -/
def SyncMet (s : State) (flags : BitVec 6) : Prop :=
  let c := s.core s.cur.core
  (flags.getLsbD 0 = true → allIssued c s.cur.ctx = true) ∧ (flags.getLsbD 1 = true → c.e.cL = 0) ∧
  (flags.getLsbD 2 = true → c.e.cS = 0) ∧ (flags.getLsbD 3 = true → c.e.cC = 0) ∧ (flags.getLsbD 4 = true → c.e.cT = 0)

end Sys2Proof.Claims

/-- R117: the new value of an atomic, for 32-bit and 64-bit operands; FADD rounds each 32-bit lane once, to nearest with ties to even. -/
def Sys2Proof.Claims.AtomicValues : Prop :=
  (∀ (op : Nat) (old b cmp : BitVec 32), op < 10 → amoNew op 32 old.toNat b.toNat cmp.toNat = (atomicNew op old b cmp).toNat) ∧
  (∀ (op : Nat) (old b cmp : BitVec 64), op < 10 → amoNew op 64 old.toNat b.toNat cmp.toNat = (atomicNew op old b cmp).toNat) ∧
  (∀ old b cmp : BitVec 32, amoNew 10 32 old.toNat b.toNat cmp.toNat = addRound fp32 .rne old.toNat b.toNat) ∧
  (∀ (oh ol bh bl : BitVec 32) (cmp : Nat), amoNew 10 64 (oh ++ ol).toNat (bh ++ bl).toNat cmp =
    addRound fp32 .rne ol.toNat bl.toNat + addRound fp32 .rne oh.toNat bh.toNat * 2 ^ 32)

/-- R103, R117: GAMO performs its checked atomic at issue, or waits for a line of its bay's shadow arena (R338), and its old value comes
back as a reply for gD; lost bytes fault it (R389). A reply writes its register, one of hg28 to hg31 for an instruction of a handler
(R303), and a CLDD's reply writes c0 to c5. Model's own choices: assumptions 6, 55 and 105. -/
def Sys2Proof.Claims.AtomicsAndReplies : Prop :=
  ∀ (s : State) (d a b : Reg) (op : BitVec 4) (z : BitVec 1) (col : BitVec 3), GenMay s (if op = 9 then [a, b, d] else [a, b]) →
    let n := s.cur.core
    let va := gReg (curG s) a
    let old := gReg (curG s) d
    (∀ s1 e, amoAccess s n op.toNat (z = 1) va none = (s1, .bad e) →
      exec (.gamo d a b op z col) s = .next (genFault s1 e.cause e.addr e.det0 e.det1)) ∧
    (∀ s1 ps, amoAccess s n op.toNat (z = 1) va none = (s1, .ok ps) →
      (¬Allowed s1 ps true true → exec (.gamo d a b op z col) s = .next (genFault s1 0x0A4 va 0 0)) ∧
      (Allowed s1 ps true true → (∃ f, amoLost s1 n ps = some f) → exec (.gamo d a b op z col) s =
        .next (genFault (dropRead s1 (genAgent s1 4) 6 va (if z = 1 then 8 else 4)) 0x0A6 va 0 0)) ∧
      (Allowed s1 ps true true → amoLost s1 n ps = none → amoRoom s1 n op.toNat ps = false →
        exec (.gamo d a b op z col) s = .next (starve s1 n)) ∧
      (Allowed s1 ps true true → amoLost s1 n ps = none → amoRoom s1 n op.toNat ps = true → ∀ r, r = amoPerform s1 n op.toNat (z = 1) va ps (gReg (curG s) b) old → GoesOn r.1 4 →
        exec (.gamo d a b op z col) s = .next (changed (used r.1) 4 (expects r.1.fresh d r.2 4 va s1.cur.bits (mayFail s1 n ps))))) ∧
    (∀ core ctx id l, ((s.core core).gctx ctx).loads.find? (·.id == id) = some l →
      exec (.genLoadReply core ctx id) s = .next (s.modG core ctx fun g =>
        let g := { g with loads := g.loads.filter (·.id != id) }
        match l.dest with
        | .g r => if r = 0 then g else { g with g := wr g.g r.toNat (l.val.setWidth 64) }
        | .hg r => { g with hg := wr g.hg r (l.val.setWidth 64) }
        | .compose => { g with c := Vector.ofFn fun i => l.val.extractLsb' (64 * i) 64 }))

/-- R55, R58, R119: EMIT, EMITP and EMITL each place one entry with the context's next sequence number, its own PC and the patch values
in lane order; with the queue full they wait, and patch registers that would pass g31 raise 0x059. -/
def Sys2Proof.Claims.EmitOneEntry : Prop :=
  ∀ (s : State) (idx : BitVec 16) (mask : BitVec 4) (gp : Reg), GenUser s (patchRegs mask gp) → GoesOn s 4 →
    let g := curG s
    let full := 64 ≤ (s.core s.cur.core).e.emitQ.length
    let fits := gp.toNat + lanesBelow mask 4 ≤ 32
    let none4 : Vector W64 4 := Vector.replicate 4 0
    let lit : BitVec 384 := rd g.c 5 0 ++ rd g.c 4 0 ++ rd g.c 3 0 ++ rd g.c 2 0 ++ rd g.c 1 0 ++ rd g.c 0 0
    let places (i : Instr) (e : EmitEntry) : Prop :=
      (full → exec i s = .next s) ∧ (¬full → exec i s = .next (changed (queued s e) 4 numbered))
    (places (.emit idx) (entry s none idx 0 none4)) ∧
    (fits → places (.emitp idx mask gp) (entry s none idx mask (patches g mask gp))) ∧
    (fits → (∀ l ∈ g.loads, l.dest ≠ .compose) → places (.emitl mask gp) (entry s (some lit) 0xFFFF mask (patches g mask gp))) ∧
    (¬fits → exec (.emitp idx mask gp) s = .next (genFault s 0x059 0 0 0)) ∧
    (¬fits → (∀ l ∈ g.loads, l.dest ≠ .compose) → exec (.emitl mask gp) s = .next (genFault s 0x059 0 0 0))

/-- R119: an EMITN that has placed k entries places the next with index IDX + k, and completes after its n-th; with n = 0 it completes
at once; the index range and the patch registers are checked. -/
def Sys2Proof.Claims.EmitManyEntries : Prop :=
  ∀ (s : State) (idx : BitVec 16) (mask : BitVec 4) (gp : Reg) (n : BitVec 15), GenUser s (patchRegs mask gp) → GoesOn s 8 →
    let g := curG s
    let i : Instr := .emitn idx mask gp n
    let room := (s.core s.cur.core).e.emitQ.length < 64
    let next := entry s none (idx + BitVec.ofNat 16 g.eprog) mask (patches g mask gp)
    let fits := gp.toNat + lanesBelow mask 4 ≤ 32
    let inRange := n = 0 ∨ idx.toNat + n.toNat ≤ 0xFFFF
    (¬inRange → exec i s = .next (genFault s 0x05A 0 0 0)) ∧
    (inRange → ¬fits → exec i s = .next (genFault s 0x059 0 0 0)) ∧
    (inRange → fits → n.toNat ≤ g.eprog → exec i s = .next (changed (used s) 8 fun g => { g with eprog := 0 })) ∧
    (inRange → fits → g.eprog < n.toNat → ¬room → exec i s = .next (held s i)) ∧
    (inRange → fits → g.eprog + 1 = n.toNat → room →
      exec i s = .next (changed (queued (used s) next) 8 fun g => { numbered g with eprog := 0 })) ∧
    (inRange → fits → g.eprog + 1 < n.toNat → room →
      exec i s = .next (modCurG (queued (held s i) next) fun g =>
        { numbered g with eprog := g.eprog + 1, wait := g.wait.map fun w => { w with note := s.now + 1 } }))

/-- R119: an EMITN under way places its next entry in each cycle, after that of the entry before, in which the emit queue has a free
one. -/
def Sys2Proof.Claims.EmitNextEntry : Prop :=
  ∀ (s : State) (idx : BitVec 16) (mask : BitVec 4) (gp : Reg) (n : BitVec 15) (core : Nat) (ctx : Ctx) (w : GenWait),
    coreRuns s core ctx = true → ((s.core core).gctx ctx).wait = some w → w.instr = .emitn idx mask gp n →
    w.note ≤ s.now → (s.core core).e.emitQ.length < 64 → ∀ s0, s0 = actAs s core ctx →
    let g := curG s0
    let next := entry s0 none (idx + BitVec.ofNat 16 g.eprog) mask (patches g mask gp)
    (g.eprog + 1 < n.toNat → exec (.emitnEntryPlace core ctx) s = .next (modCurG (queued s0 next) fun g =>
        { numbered g with eprog := g.eprog + 1, wait := g.wait.map fun w => { w with note := s.now + 1 } })) ∧
    (g.eprog + 1 = n.toNat → GoesOn s0 8 →
      exec (.emitnEntryPlace core ctx) s = .next (changed (queued s0 next) 8 fun g => { numbered g with eprog := 0, wait := none }))

/-- R87, R120: EMITS faults on an odd gA, places nothing when gB is 0, and otherwise places the first item of its stream, an index
halfword or after 0xFFFF a literal bundle, advancing gA by its length and gB down by 1; it completes when gB reaches 0. -/
def Sys2Proof.Claims.EmitStream : Prop :=
  ∀ (s : State) (a b : Reg), GenUser s [a, b] →
    let i : Instr := .emits a b
    let s0 := held s i
    let va := gReg (curG s) a
    let none4 : Vector W64 4 := Vector.replicate 4 0
    let placed (s : State) (e : EmitEntry) (len : Nat) : State :=
      modCurG (queued s e) fun g => let g := gSet (numbered g) a (gReg g a + BitVec.ofNat 64 len); gSet g b (gReg g b - 1)
    let ends (t : State) : State := changed t 4 fun g => { g with wait := none }
    let rests (t : State) : State := modCurG t fun g => { g with wait := g.wait.map fun w => { w with note := t.now + 1 } }
    (va.getLsbD 0 = true → exec i s = .next (genFault s 0x061 0 0 0)) ∧
    (va.getLsbD 0 = false → gReg (curG s) b = 0 → GoesOn s 4 → exec i s = .next (changed (used s) 4 id)) ∧
    (va.getLsbD 0 = false → gReg (curG s) b ≠ 0 → 64 ≤ (s.core s.cur.core).e.emitQ.length → exec i s = .next s0) ∧
    (va.getLsbD 0 = false → gReg (curG s) b ≠ 0 → (s.core s.cur.core).e.emitQ.length < 64 → ∀ s1 h, streamRead s0 va 2 = (s1, .inl h) →
      (ofBytes h ≠ 0xFFFF → ∀ t, t = placed s1 (entry s1 none (BitVec.ofNat 16 (ofBytes h)) 0 none4) 2 → GoesOn t 4 →
        exec i s = .next (if gReg (curG t) b = 0 then ends t else rests t)) ∧
      (ofBytes h = 0xFFFF → ∀ s2 l, streamRead s1 (va + 2) 48 = (s2, .inl l) →
        ∀ t, t = placed s2 (entry s2 (some (BitVec.ofNat 384 (ofBytes l))) 0xFFFF 0 none4) 50 → GoesOn t 4 →
        exec i s = .next (if gReg (curG t) b = 0 then ends t else rests t)))

/-- R48, R50, R70, R104, R123, R124, R126: GFB, JOIN and GSYNC complete in their issue cycle when their condition holds, expire at
once with a timeout of 0, and wait otherwise. -/
def Sys2Proof.Claims.WaitsAtIssue : Prop :=
  ∀ (s : State) (k : BitVec 4) (n : BitVec 3) (a b d : Reg) (flags : BitVec 6) (task : Task),
    k.toNat < 12 → GenUser s [b] → GoesOn s 4 → s.taskOn s.cur.core = some task →
    let g := curG s
    let t := timeoutOf g b
    let f := rd g.fb n.toNat {}
    let words := joinWords task.children
    let joined := (used s).modTask task.id fun x => { x with children := [], nextOrd := 0 }
    WaitIssues s (.gfb k n a b) k t 0 (f.valid = true)
      (changed (used s) 4 fun g => cond k true { gSet g a f.val with fb := wr g.fb n.toNat { f with valid := false } }) ∧
    WaitIssues s (.join k a b) k t 0 (∀ c ∈ task.children, c.how ≠ none)
      (changed joined 4 fun g => cond k words.2.2 (if a = 0 then g else gSet (gSet g a words.1) (a + 1) words.2.1)) ∧
    (SyncMet s flags → exec (.gsync d b flags) s = .next (changed (used s) 4 fun g => gSet g d 1)) ∧
    (¬SyncMet s flags → t = 0 → exec (.gsync d b flags) s = .next (changed (used s) 4 fun g => gSet g d 0)) ∧
    (¬SyncMet s flags → t ≠ 0 → exec (.gsync d b flags) s = .next (waiting s (.gsync d b flags) t 0 id))

/-- R126: JOIN's status words: the counts by how the children ended, and of the failing child with the lowest ordinal its ordinal and
cause, or that it was killed; C is 1 when none failed. -/
def Sys2Proof.Claims.JoinStatusWords : Prop :=
  ∀ (cs : List Child), cs.length ≤ 4095 → (∀ c ∈ cs, c.ordinal < 2 ^ 16) →
    let w := joinWords cs
    let retired := ended cs fun h => match h with | .retired _ => true | .absent => true | _ => false
    let skipped := ended cs fun h => match h with | .skippedPublish => true | .skippedCopy => true | _ => false
    let faulted := ended cs fun h => match h with | .faulted _ => true | _ => false
    let killed := ended cs fun h => match h with | .killed => true | _ => false
    w.1.toNat = retired + skipped * 2 ^ 16 + faulted * 2 ^ 32 + killed * 2 ^ 48 ∧
    (w.2.2 = true ↔ ∀ c ∈ cs, failed c = false) ∧
    ((∀ c ∈ cs, failed c = false) → w.2.1 = 0xFFFF) ∧
    (∀ c ∈ cs, failed c = true → (∀ x ∈ cs, failed x = true → x = c ∨ c.ordinal < x.ordinal) →
      w.2.1 = match c.how with
        | some (.faulted cause) => BitVec.ofNat 64 (c.ordinal + cause.toNat * 2 ^ 16)
        | _ => BitVec.ofNat 64 (c.ordinal + 2 ^ 25))

/-- R104: a waiting generator instruction completes when its condition holds, with its effect and C = 1 (GSYNC: gD = 1), and its
timeout, once it has run out, writes C = 0 (GSYNC: gD = 0) and nothing else; a condition that holds as the timeout runs out counts as
met. -/
def Sys2Proof.Claims.WaitsEnd : Prop :=
  ∀ (s : State) (core : Nat) (ctx : Ctx) (w : GenWait) (k : BitVec 4) (n : BitVec 3) (a b d : Reg) (flags : BitVec 6),
    activeWait s core ctx = some w → copyingWait s core ctx = none → ∀ s0, s0 = actAs s core ctx → GoesOn s0 4 →
    let g := curG s0
    let f := rd g.fb n.toNat {}
    let finish (f : GenCtx → GenCtx) : Host.Outcome State Fault Refusal := .next (changed s0 4 fun g => { f g with wait := none })
    let late := w.timeout ≠ BitVec.allOnes 64 ∧ w.since + w.timeout.toNat ≤ s.now
    (w.instr = .gfb k n a b → f.valid = true → exec (.genWaitComplete core ctx) s =
      finish fun g => cond k true { gSet g a f.val with fb := wr g.fb n.toNat { f with valid := false } }) ∧
    (w.instr = .gsync d b flags → SyncMet s0 flags → exec (.genWaitComplete core ctx) s = finish fun g => gSet g d 1) ∧
    (w.instr = .gfb k n a b → f.valid = true → exec (.genWaitTimeout core ctx) s = .next s) ∧
    (w.instr = .gfb k n a b → f.valid = false → late → exec (.genWaitTimeout core ctx) s = finish (cond k false)) ∧
    (w.instr = .gsync d b flags → ¬SyncMet s0 flags → late → exec (.genWaitTimeout core ctx) s = finish fun g => gSet g d 0) ∧
    (w.instr = .gsync d b flags → ¬late → exec (.genWaitTimeout core ctx) s = .next s)

/-- R125, R344: LAUNCH.T and LAUNCH.G read their record as they issue; with a free pool entry the child joins the child set with
the next ordinal and the pool, and C = 1; without one they wait or expire. A misaligned record raises 0x062 and a full child set
0x070. Model's own choices: assumptions 6 and 60, and that 0x062 comes before 0x070 (assumption 94). -/
def Obligations.LaunchChild : Prop :=
  ∀ (s : State) (k : BitVec 4) (a b : Reg) (t : Task), k.toNat < 12 → GenUser s [a, b] → GoesOn s 4 → s.taskOn s.cur.core = some t →
    let va := gReg (curG s) a
    let tmo := timeoutOf (curG s) b
    let launches (i : Instr) (isGraph : Bool) (n : Nat) (good : List Byte → Prop) (put : State → List Byte → Nat × Bool → State) : Prop :=
      let w := steering s i tmo 0 k
      (va.toNat % 64 ≠ 0 → exec i s = .next (genFault s 0x062 0 0 0)) ∧
      (va.toNat % 64 = 0 → 4095 ≤ t.children.length → exec i s = .next (genFault s 0x070 0 0 0)) ∧
      (va.toNat % 64 = 0 → t.children.length < 4095 → ∀ s1 r, recordRead w va n = (s1, .inl r) → good r →
        (∀ p, freeEntry s1 (graphDie s1 t.graph) t.bay = some p → GoesOn s1 4 →
          exec i s = .next (changed (put (addChild (used s1) t.id s1.fresh isGraph) r p) 4 fun g => { cond k true g with wait := none })) ∧
        (freeEntry s1 (graphDie s1 t.graph) t.bay = none → tmo = 0 → exec i s = .next (changed (used s) 4 (cond k false))) ∧
        (freeEntry s1 (graphDie s1 t.graph) t.bay = none → tmo ≠ 0 → exec i s = .next w))
    launches (.launchT k a b) false 64 (fun r => recordBad (recordOf r) none = false)
      (fun s2 r p => { s2 with tasks := s2.tasks ++ [childTask s2 t (s2.fresh - 1) (recordOf r) va p] }) ∧
    launches (.launchG k a b) true 128 (fun _ => True)
      (fun s2 r p => { s2 with graphs := s2.graphs ++
        [{ id := s2.fresh - 1, run := t.run, bay := t.bay, desc := va, parent := some (t.graph, t.id, t.nextOrd), pool := some p,
           words := (List.range 16).map fun i => BitVec.ofNat 64 (ofBytes ((r.drop (8 * i)).take 8)), die := graphDie s2 t.graph,
           ofHandler := t.ofHandler }] })

/-- R127: QPUSH reads its record, and QPOP checks its target, as they issue; both then wait with CV = 0 for the sequencer. A misaligned
record raises 0x062, and a queue without a ring 0x118 (R346). -/
def Sys2Proof.Claims.QueueInstructionsIssue : Prop :=
  ∀ (s : State) (k : BitVec 4) (n : BitVec 2) (a b : Reg) (t : Task) (g : Graph), GenUser s [a, b] → s.taskOn s.cur.core = some t →
    s.graphAt t.graph = some g →
    let va := gReg (curG s) a
    let ring := (rd g.queues n.toNat {}).rsize
    let fails (c : BitVec 9) : Prop := ∀ i, i = Instr.qpush k n a b ∨ i = .qpop k n a b → exec i s = .next (genFault s c 0 0 0)
    (va.toNat % 64 ≠ 0 → fails 0x062) ∧ (va.toNat % 64 = 0 → ring = 0 → fails 0x118) ∧
    (va.toNat % 64 = 0 → ring ≠ 0 → ∀ s1 r, recordRead s va 64 = (s1, .inl r) →
      exec (.qpush k n a b) s = .next (steering s1 (.qpush k n a b) (timeoutOf (curG s1) b) (ofBytes r) k)) ∧
    (va.toNat % 64 = 0 → ring ≠ 0 → ∀ s1 ps, access s (genWho s 1) va 64 64 .wb = (s1, .ok ps) → Allowed s1 ps false true →
      exec (.qpop k n a b) s = .next (steering s1 (.qpop k n a b) (timeoutOf (curG s1) b) 0 k))

/-- R127, R346, R347, R384: a served push appends its record to the queue, a served pop takes the head record and writes it to gA, each
completing with C = 1; a record moves from the ring head to the queue tail: a move that has started ends, and where none has, one
starts and ends. -/
def Sys2Proof.Claims.TaskQueues : Prop :=
  ∀ (s : State) (graph q : Nat) (g : Graph), q < 4 → s.graphAt graph = some g →
    let t := rd g.queues q {}
    let queueIs (s' : State) (l : List (BitVec 512)) : Prop := ∃ g', s'.graphAt graph = some g' ∧ (rd g'.queues q {}).q = l
    let complete (s' : State) (n : Nat) (k : BitVec 4) : Prop :=
      let u := (s'.core n).e.user
      u.wait = none ∧ (rd u.k k.toNat {}).cv = true ∧ (rd u.k k.toNat {}).c = true
    (∀ n w k m a b, t.served ≤ s.now → t.q.length < 32 → t.count = 0 → k.toNat < 12 → queueWaiters s graph q false = [] →
      queueWaiters s graph q true = [(n, w)] → w.instr = .qpush k m a b → GoesOn (actAs s n .user) 4 →
        ∃ s', exec (.queueService graph q) s = .next s' ∧ queueIs s' (t.q ++ [BitVec.ofNat 512 w.note]) ∧ complete s' n k) ∧
    (∀ n w k m a b r rest s1, t.served ≤ s.now → t.pops = [] → t.q = r :: rest → k.toNat < 12 → queueWaiters s graph q false = [(n, w)] →
      queueWaiters s graph q true = [] → w.instr = .qpop k m a b → GoesOn (actAs s n .user) 4 →
      popRoom (actAs s n .user) (gReg (curG (actAs s n .user)) a) = true →
      popWrite (actAs s n .user) (gReg (curG (actAs s n .user)) a) r = (s1, none) →
        ∃ s', exec (.queueService graph q) s = .next s' ∧ queueIs s' rest ∧ complete s' n k ∧ s'.mem = s1.mem) ∧
    (∀ s1 r, t.moved ≤ s.now → t.count ≠ 0 → t.q.length < 32 → t.moving = [] → ringHead s g.bay t = (s1, .inl r) →
      ∃ s' g', exec (.ringToQueueMove graph q) s = .next s' ∧ s'.graphAt graph = some g' ∧ rd g'.queues q {} =
        { t with q := t.q ++ [r], head := t.head + 1, count := t.count - 1, moved := s.now + 1 }) ∧
    (∀ r rest, t.moving = r :: rest → ∃ s' g', exec (.ringToQueueMove graph q) s = .next s' ∧ s'.graphAt graph = some g' ∧
      rd g'.queues q {} = { t with q := t.q ++ [r], head := t.head + 1, count := t.count - 1, moving := rest })

/-- R129, R130: GBARR leaves an arrival behind that its colours hold back, and goes on at once; GBWAIT completes when the phase that its
context's record asks for has completed, or, of another barrier, one has in its issue cycle or after it, with the bound lines
invalidated. A number above 4,095 raises 0x071, and an
arrival at an unconfigured barrier 0x102. -/
def Sys2Proof.Claims.GeneratorBarriers : Prop :=
  ∀ (s : State) (k : BitVec 4) (a b : Reg) (cols : BitVec 8), k.toNat < 12 → GenUser s [a, b] → GoesOn s 4 →
    let g := curG s
    let n := (gReg g a).toNat
    let done := (s.barrier n).phases
    let wait : Instr := .gbwait k a b
    let tmo := timeoutOf g b
    let holds := (∃ j, g.barrec = some (n, j) ∧ done % 2 ≠ j % 2) ∨
      ((∀ j, g.barrec ≠ some (n, j)) ∧ ∃ c, (s.barrier n).doneAt = some c ∧ s.now ≤ c)
    let w := steering s wait tmo 0 k
    let treated := treatSpans w s.cur.core false (boundSpans w s.cur.core (.barrier n))
    (4095 < n → exec (.gbarr a cols) s = .next (genFault s 0x071 0 0 0) ∧ exec wait s = .next (genFault s 0x071 0 0 0)) ∧
    (n ≤ 4095 → (s.barrier n).target = 0 → exec (.gbarr a cols) s = .next (genFault s 0x102 0 0 0)) ∧
    (n ≤ 4095 → (s.barrier n).target ≠ 0 → exec (.gbarr a cols) s = .next (changed ((used s).modE s.cur.core fun e =>
      { e with bg := e.bg ++ [{ id := s.fresh, slot := none, kind := .arrive n (some s.cur.ctx), cols := cols, since := s.now }] }) 4 id)) ∧
    (n ≤ 4095 → GoesOn treated 4 →
      WaitIssues s wait k tmo 0 holds (changed treated 4 fun g => { cond k true g with wait := none }))

/-- R128: TRET ends its member of the task once its work has issued and its counters are 0; the task retires, with the code of its
lowest core, when every member has ended. Until then TRET waits. -/
def Sys2Proof.Claims.TaskReturn : Prop :=
  ∀ (s : State) (a : Reg) (t : Task), GenUser s [a] → s.cur.ctx = .user → s.taskOn s.cur.core = some t →
    let n := s.cur.core
    let ends : List (Nat × End) := (n, .retired ((gReg (curG s) a).setWidth 8)) :: t.trets
    let ready := SyncMet s 0x1F ∧ (s.core n).stop = none
    let all := ∀ m ∈ t.cores, ∃ h, (m, h) ∈ ends
    (¬ready → exec (.tret a) s = .next (held s (.tret a))) ∧
    (ready → ¬all → exec (.tret a) s = .next (s.modTask t.id fun x => { x with trets := ends })) ∧
    (ready → all → ∀ h, ends.lookup (t.cores.foldl min n) = some h →
      exec (.tret a) s = .next (s.modTask t.id fun x => { x with trets := ends, stat := .retiring (.ends h) }))

/-- R137: GIFENCE waits for its context's entries to be expanded and empties the instruction cache and the dictionary cache; GYIELD asks every core of the task to
stop for pre-emption when another ready task would take its core and a save slot is free, and otherwise does nothing. -/
def Sys2Proof.Claims.FenceAndYield : Prop :=
  ∀ (s : State) (t : Task), GenUser s [] → GoesOn s 4 → s.taskOn s.cur.core = some t →
    let n := s.cur.core
    let yields := mayPreempt s t = true ∧ rival s t = true ∧ slotsLeft s t = true
    (unexpanded (s.core n) s.cur.ctx = true → exec .gifence s = .next s) ∧
    (unexpanded (s.core n) s.cur.ctx = false → exec .gifence s = .next (changed (s.modCore n fun c => { c with dcache := [], icache := [] }) 4 id)) ∧
    (yields → exec .gyield s = .next (changed (t.cores.foldl (fun s m => requestStop s m (.save false)) s) 4 id)) ∧
    (¬yields → exec .gyield s = .next (changed s 4 id))

/-- R131: CKDECIDE evaluates the skip rule for the task's key and sets C, writes the distance to gA and notes the decision; a record
without a key raises 0x072, a policy index of 64 or more 0x071. -/
def Sys2Proof.Claims.CaskDecision : Prop :=
  ∀ (s : State) (k : BitVec 4) (a : Reg) (t : Task), GenUser s [] → GoesOn s 4 → s.taskOn s.cur.core = some t →
    probePending (s.core s.cur.core) s.cur.ctx = false →
    let w2 := rd t.rec_ 2 0
    let layer := (w2.extractLsb' 0 16).toNat
    let tile := (w2.extractLsb' 16 16).toNat
    let policy := (w2.extractLsb' 32 8).toNat
    let p := policyOf s t.bay policy
    let d := (s.core s.cur.core).e.probe
    let ms0 := (rd t.ms 0 0).toNat
    let skip (c : Bool) : Prop := c = true ↔ ∃ e, caskEntry s t = some e ∧ e.v = true ∧ e.graph = t.graph ∧ e.bay = t.bay ∧ e.step.toNat ≤ ms0 ∧
      ms0 - e.step.toNat ≤ p.maxdist.toNat ∧ e.skips < p.maxskip.toNat ∧ fp32Le d p.thresh = true
    let line := caskLine (graphDie s t.graph) t.bay layer tile
    (layer = 0xFFFF → exec (.ckdecide k a) s = .next (genFault s 0x072 0 0 0)) ∧
    (layer ≠ 0xFFFF → 64 ≤ policy → exec (.ckdecide k a) s = .next (genFault s 0x071 0 0 0)) ∧
    (layer ≠ 0xFFFF → policy < 64 → ∃ c, skip c ∧ exec (.ckdecide k a) s = .next (changed (s.modTask t.id fun x =>
      { x with decision := some c
               readSet := if (s.eff x.bay).det = true ∧ line ∉ x.readSet then x.readSet ++ [line] else x.readSet }) 4
      fun g => cond k c (gSet g a (d.setWidth 64))))

/-- R132, R133, R338, R356, R360, R361: a CKSTORE whose work has ended copies the reference and the output into the task's cell and writes
its entry, or, with no room in the directory, completes and copies nothing; a span that may not be read or written faults it before
anything is copied (R106). A CKSKIP makes the stored output visible, counts the skip in the entry as it then stands and ends the task
as skipped. A CKSKIP without a decision to skip, or after a CKSTORE, raises 0x073; a cell too small or beyond the arena
raises 0x128, and a stored output that no longer holds 0x129. The copies are stated for a core whose copies go in one step. -/
def Sys2Proof.Claims.CaskStoreAndSkip : Prop :=
  ∀ (s : State) (d a b : Reg) (t : Task), GenUser s [d, a, b] → s.taskOn s.cur.core = some t → SyncMet s 0x1F →
    (s.core s.cur.core).stop = none → keyFault t = none → (s.core s.cur.core).caskRate = 0 →
    let n := s.cur.core
    let k := caskKey t
    let p := policyOf s t.bay k.2.2
    let reflen := ((gReg (curG s) d).extractLsb' 0 32).toNat
    let outlen := ((gReg (curG s) d).extractLsb' 32 32).toNat
    let off := 64 * (p.rbase.toNat + k.2.1 * p.cell.toNat)
    let die := graphDie s t.graph
    let det := (s.eff t.bay).det
    let small := 64 * p.cell.toNat < up64 reflen + outlen ∨ (s.eff t.bay).casklen.toNat < off + 64 * p.cell.toNat ∨
      det = true ∧ (s.eff t.bay).caskbase.toNat / 2 ^ 60 = 2
    let w := held s (.ckstore d a b)
    let c := cleanSpan (cleanSpan w n (gReg (curG s) a) reflen) n (gReg (curG s) b) outlen
    let e := storedEntry c t n off reflen outlen (gReg (curG s) b)
    let room := (roomFor c die t.bay k.1 k.2.1).isSome
    let atOnce := det = false ∨ t.unshadowed = true
    let (refTo, outTo) := (arenaAddr c t.bay die off, arenaAddr c t.bay die (off + up64 reflen))
    let noted (s : State) : State := s.modTask t.id fun x => { x with stored := true }
    let goesOn (s : State) : State := changed s 4 fun g => { g with wait := none }
    let fits (s : State) (ps : List Piece) : Prop := shadowRoom s (s.core n).task ps = true
    (small → exec (.ckstore d a b) s = .next (faultWaiting (genFault w 0x128 0 0 0))) ∧
    (¬small → atOnce → room = false → ∀ s1, s1 = noted (putEntry c die e) → GoesOn s1 4 →
      exec (.ckstore d a b) s = .next (goesOn s1)) ∧
    (¬small → ¬atOnce ∨ room = true →
      let r0 := caskRead c n (gReg (curG s) a) reflen
      let t0 := caskTarget c n refTo reflen
      let r1 := caskRead c n (gReg (curG s) b) outlen
      let t1 := caskTarget c n outTo outlen
      let fails (x : State) (e : AErr) : Prop :=
        exec (.ckstore d a b) s = .next (faultWaiting (genFault x e.cause e.addr e.det0 e.det1))
      (∀ e, r0.2 = .inr e → fails r0.1 e) ∧
      (∀ x e, r0.2 = .inl x → t0.2 = .inr e → fails t0.1 e) ∧
      (∀ x y e, r0.2 = .inl x → t0.2 = .inl y → r1.2 = .inr e → fails r1.1 e) ∧
      (∀ x y z e, r0.2 = .inl x → t0.2 = .inl y → r1.2 = .inl z → t1.2 = .inr e → fails t1.1 e)) ∧
    (¬small → ¬atOnce ∨ room = true → ∀ s1 s2 s3 s4 ref out p0 p1 r1 t0 t1,
      caskRead c n (gReg (curG s) a) reflen = (s1, .inl ref) → (caskTarget c n refTo reflen).2 = .inl t0 →
      (caskRead c n (gReg (curG s) b) outlen).2 = .inl r1 → (caskTarget c n outTo outlen).2 = .inl t1 →
      caskTarget s1 n refTo reflen = (s2, .inl p0) →
      fits s2 p0 → caskRead (caskWrite s2 n p0 ref) n (gReg (curG s) b) outlen = (s3, .inl out) →
      caskTarget s3 n outTo outlen = (s4, .inl p1) → fits s4 p1 →
      ∀ s5 s6, s5 = caskWrite s4 n p1 out →
        s6 = noted (changeEntry (used s5) t e false none
          (cellLines s5 n (graphDie s5 t.graph) t (64 * e.celloff.toNat) (up64 e.reflen + e.outlen))) → GoesOn s6 4 →
        exec (.ckstore d a b) s = .next (goesOn s6)) ∧
    (t.decision ≠ some true ∨ t.stored = true → exec .ckskip s = .next (genFault s 0x073 0 0 0)) ∧
    (t.decision = some true → t.stored = false → s.cur.ctx = .user → ∀ w, w = held s .ckskip →
      let leaves (s : State) : State := modCurG s fun g => { g with wait := none }
      let holds (e : CaskEntry) : Prop :=
        e.v = true ∧ e.graph = t.graph ∧ (if e.kind then destHolds w n e else slotHolds w e) = true
      ((∀ e, caskEntry s t = some e → ¬holds e) → exec .ckskip s = .next (leaves (genFault w 0x129 0 0 0))) ∧
      (∀ e, caskEntry s t = some e → holds e →
        ∀ s1 s2 s3 out ps x, caskRead w n (arenaAddr w t.bay die (64 * e.celloff.toNat + up64 e.reflen)) e.outlen = (s1, .inl out) →
        caskTarget s1 n e.dest e.outlen = (s2, .inl ps) → fits s2 ps → s3 = caskWrite s2 n ps out →
        let slot := if e.kind then none else some e.slot
        let ends (after : State) : Prop :=
          exec .ckskip s = .next (leaves (memberEnds after n (if e.kind then .skippedCopy else .skippedPublish)))
        (caskEntry s3 t = some x → x.v = true → ends (changeEntry s3 t { x with skips := min 255 (x.skips + 1) } true slot [])) ∧
        (det = false → (caskEntry s3 t = none ∨ caskEntry s3 t = some x ∧ x.v = false) →
          ends (match slot with | some k => exchange s3 k | none => s3))))

/-! ### The S slot -/

namespace Sys2Proof.Claims

/-- The op at the head of the executing slot meets conditions 1 and 2 of R61 and finds its own tag clear; TAGA names no tag without its
enable (R63, R76). -/
def SlotMay (s : State) (tagw : BitVec 8) (taga : BitVec 4) : Prop :=
  streamRuns s s.cur.core = true ∧ unitReady s s.cur.core s.cur.slot = true ∧ (curE s).tags &&& tagw = 0 ∧
  (taga.getLsbD 3 = true → (curE s).tags.getLsbD (taga.setWidth 3).toNat = false) ∧ (taga.getLsbD 3 = false → taga = 0)

/-- The op leaves its queue with register writes that are readable `lat` cycles on (R62), its unit taken for `beats` cycles and its tag
set (R63). -/
def landed (s : State) (taga : BitVec 4) (lat beats : Nat) (ws : List RegWrite) : State :=
  issued (land s lat ws (tagOf taga)) beats (tagOf taga)

/-- The op leaves its queue with no register result; its tag clears in the next cycle (R63). -/
def leaves (s : State) (taga : BitVec 4) : State := issued (tagOnly s (tagOf taga)) 1 (tagOf taga)

/-- The value of a condition code (R110). -/
def ccHolds (cc : Nat) (x y : W64) : Bool :=
  match cc with
  | 0 => decide (x = y)
  | 1 => decide (x ≠ y)
  | 2 => decide (x.toInt < y.toInt)
  | 3 => decide (y.toInt ≤ x.toInt)
  | 4 => decide (x.toNat < y.toNat)
  | 5 => decide (y.toNat ≤ x.toNat)
  | 6 => decide (x &&& y ≠ 0)
  | _ => decide (x &&& y = 0)

/-- The executing op raises the class-0 fault of a kind in its slot and has no other effect (R82, R83, R307). -/
def opFaults (s : State) (kind : Nat) : Host.Outcome State Fault Refusal := .next (slotFault s (class0 s.cur.slot kind) 0 0 0)

end Sys2Proof.Claims

/-- R139, R140: the arithmetic, logic and move ops of the S slot write sD with latency 1 under their predicate; with the predicate
false an op takes its cycle and its tag and writes nothing. Model's own choices: assumption 39. -/
def Obligations.ScalarArithmetic : Prop :=
  ∀ (s : State) (f : SOp) (r : SIOp), SlotMay s f.tagw f.taga → SlotMay s r.tagw r.taga →
    let e := curE s
    let x := sReg e f.a.toNat
    let y := sReg e f.b.toNat
    let z := sReg e r.a.toNat
    let sh := y.toNat % 64
    let rrr (i : Instr) (v : W64) : Prop :=
      exec i s = .next (if qReg e f.pred.toNat then landed s f.taga 1 1 [.s f.dst.toNat v] else leaves s f.taga)
    let ri (i : Instr) (v : W64) : Prop :=
      exec i s = .next (if qReg e r.pred.toNat then landed s r.taga 1 1 [.s r.dst.toNat v] else leaves s r.taga)
    (f.mod = 0 → rrr (.sadd f) (x + y) ∧ rrr (.ssub f) (x - y) ∧ rrr (.smul f) (x * y) ∧ rrr (.sand f) (x &&& y) ∧
      rrr (.sor f) (x ||| y) ∧ rrr (.sxor f) (x ^^^ y) ∧ rrr (.sshl f) (BitVec.ofNat 64 (x.toNat * 2 ^ sh)) ∧
      rrr (.sshr f) (BitVec.ofNat 64 (x.toNat / 2 ^ sh)) ∧ rrr (.ssra f) (BitVec.ofInt 64 (x.toInt / 2 ^ sh)) ∧
      rrr (.smin f) (if x.toInt ≤ y.toInt then x else y) ∧ rrr (.smax f) (if x.toInt ≤ y.toInt then y else x)) ∧
    (f.mod = 1 → rrr (.smin f) (if x.toNat ≤ y.toNat then x else y) ∧ rrr (.smax f) (if x.toNat ≤ y.toNat then y else x)) ∧
    (f.mod.toNat < 16 → rrr (.ssel f) (if qReg e f.mod.toNat then x else y)) ∧
    ri (.saddi r) (z + r.imm.signExtend 64) ∧ ri (.sli r) (z <<< 12 ||| r.imm.setWidth 64) ∧
    (f.pred = 0 → f.mod = 0 → f.b = 0 → f.a = 0 → f.dst = 0 → exec (.snop f) s = .next (leaves s f.taga))

/-- R141, R142, R144, R145, R146: the S ops that write a predicate, read a step register or the cycle counter, send a value to a
feedback register, or write a format, matrix address or mask register, each under its predicate. Model's own choices: assumption
37. -/
def Obligations.ScalarSpecialRegisters : Prop :=
  ∀ (s : State) (f : SOp) (r : SIOp) (t : Task), SlotMay s f.tagw f.taga → SlotMay s r.tagw r.taga → s.taskOn s.cur.core = some t →
    qReg (curE s) f.pred.toNat = true → qReg (curE s) r.pred.toNat = true →
    let e := curE s
    let x := sReg e f.a.toNat
    let y := sReg e f.b.toNat
    let gives (i : Instr) (lat : Nat) (w : RegWrite) : Prop := exec i s = .next (landed s f.taga lat 1 [w])
    let pred (g : Bool → Bool → Bool) : RegWrite := .q f.dst.toNat (g (qReg e f.a.toNat) (qReg e f.b.toNat))
    let plain := f.b = 0 ∧ f.mod = 0
    (f.dst.toNat < 16 → f.mod.toNat < 8 → gives (.scmp f) 1 (.q f.dst.toNat (ccHolds f.mod.toNat x y))) ∧
    (exec (.scmpi r) s = .next (landed s r.taga 1 1
      [.q (r.dst.toNat % 16) (ccHolds (r.dst.toNat / 16) (sReg e r.a.toNat) (r.imm.signExtend 64))])) ∧
    (f.dst.toNat < 16 → f.a.toNat < 16 → f.b.toNat < 16 →
      (f.mod = 0 → gives (.spred f) 1 (pred fun p q => p && q)) ∧ (f.mod = 1 → gives (.spred f) 1 (pred fun p q => p || q)) ∧
      (f.mod = 2 → gives (.spred f) 1 (pred fun p q => xor p q)) ∧ (f.mod = 3 → gives (.spred f) 1 (pred fun p q => p && !q)) ∧
      (f.mod = 4 → gives (.spred f) 1 (pred fun p q => p || !q)) ∧ (f.mod = 5 → gives (.spred f) 1 (pred fun p _ => p)) ∧
      (f.mod = 6 → gives (.spred f) 1 (pred fun _ _ => true)) ∧ (f.mod = 7 → gives (.spred f) 1 (pred fun _ _ => false))) ∧
    (f.a.toNat < 16 → plain → gives (.sms f) 2 (.s f.dst.toNat (rd t.ms f.a.toNat 0))) ∧
    (f.a = 0 → plain → gives (.stime f) 1 (.s f.dst.toNat (BitVec.ofNat 64 s.now))) ∧
    (f.dst.toNat < 8 → plain → exec (.sfb f) s =
      .next (issued (tagOnly (land s 4 [.fb s.cur.info.ctx f.dst.toNat x] none) (tagOf f.taga)) 1 (tagOf f.taga))) ∧
    (f.dst.toNat < 8 → plain → gives (.ssetma f) 1 (.ma f.dst.toNat x)) ∧
    (f.dst.toNat < 4 → plain → exec (.ssetfm f) s = .next (leaves (modCurE s fun e =>
      { e with fmPend := e.fmPend ++ [{ ctx := s.cur.info.ctx, eseq := s.cur.info.eseq, n := f.dst.toNat, val := x.setWidth 32 }] }) f.taga))

/-- R146: SSETMK's modes: a prefix, a range, or a 64-bit insert, its elements counted in 8, 16 or 32 bits; the fields that name no
mode, no width or no mask raise 0x001. -/
def Sys2Proof.Claims.ScalarMask : Prop :=
  (∀ (s : State) (f : SOp), SlotMay s f.tagw f.taga →
    let mode := f.mod.toNat % 4
    let width := f.mod.toNat / 4 % 4
    8 ≤ f.dst.toNat ∨ 16 ≤ f.mod.toNat ∨ mode = 3 ∨ width = 3 ∨ (mode = 2 ∧ width ≠ 0) → exec (.ssetmk f) s = opFaults s 1) ∧
  (∀ (s : State) (f : SOp) (wc : Nat), SlotMay s f.tagw f.taga → qReg (curE s) f.pred.toNat = true → f.dst.toNat < 8 → wc < 3 →
    let x := (sReg (curE s) f.a.toNat).toNat
    let y := (sReg (curE s) f.b.toNat).toNat
    let gives (val sel : M512) : Prop := exec (.ssetmk f) s = .next (landed s f.taga 1 1 [.m f.dst.toNat val sel])
    (f.mod.toNat = 4 * wc → ∃ m : M512, gives m (BitVec.allOnes 512) ∧ ∀ j, j < 512 → m.getLsbD j = decide (j / 2 ^ wc < x)) ∧
    (f.mod.toNat = 4 * wc + 1 → ∃ m : M512, gives m (BitVec.allOnes 512) ∧
      ∀ j, j < 512 → m.getLsbD j = decide (x ≤ j / 2 ^ wc ∧ j / 2 ^ wc < y)) ∧
    (f.mod.toNat = 2 → ∃ m sel : M512, gives m sel ∧ ∀ j, j < 512 →
      sel.getLsbD j = decide (j / 64 = y % 8) ∧ (sel.getLsbD j = true → m.getLsbD j = x.testBit (j % 64))))

/-- R147: SSETCH writes a field of an idle channel's program, waits while the channel runs, and raises 0x002 for a value with bits above
the field's width (for a stride, bits 63 to 39 not all equal) or a bad LEN; a field number above 0x23 raises 0x001. -/
def Sys2Proof.Claims.ScalarChannelField : Prop :=
  ∀ (s : State) (f : SOp), SlotMay s f.tagw f.taga → qReg (curE s) f.pred.toNat = true → f.dst.toNat < 8 → f.b = 0 → s.cur.slot = .s →
    let n := f.mod.toNat
    let v := (sReg (curE s) f.a.toNat).toNat
    let running := (rd (curE s).ch f.dst.toNat {}).running = true
    let stride := n < 0x18 ∧ (n % 4 = 1 ∨ n % 4 = 2)
    let bad := (stride ∧ 2 ^ 39 ≤ v ∧ v < 2 ^ 64 - 2 ^ 39) ∨ (¬stride ∧ 2 ^ chWidth n ≤ v) ∨
      (n = 0x1A ∧ (v = 0 ∨ 65536 < v ∨ v % 4 ≠ 0))
    (0x24 ≤ n → exec (.ssetch f) s = opFaults s 1) ∧
    (n < 0x24 → bad → exec (.ssetch f) s = opFaults s 2) ∧
    (n < 0x24 → ¬bad → running → exec (.ssetch f) s = .next s) ∧
    (n < 0x24 → ¬bad → ¬running →
      exec (.ssetch f) s = .next (landed s f.taga 1 1 [.ch f.dst.toNat n (BitVec.ofNat 64 (v % 2 ^ chWidth n))]))

/-- R143: SWAIT completes in its issue cycle when the selected counters are at or below the limit, polls once with timeout code 0, and
otherwise holds the S unit until they are, or until 2^(n + 4) cycles have passed. -/
def Sys2Proof.Claims.ScalarWait : Prop :=
  ∀ (s : State) (f : SOp), SlotMay s f.tagw f.taga → qReg (curE s) f.pred.toNat = true → f.dst.toNat < 16 → f.b.toNat < 32 →
    f.mod.toNat < 16 →
    let limit := (sReg (curE s) f.a.toNat).toNat % 256
    let met (e : Engine) : Prop := (f.mod.getLsbD 0 = true → e.cL ≤ limit) ∧ (f.mod.getLsbD 1 = true → e.cS ≤ limit) ∧
      (f.mod.getLsbD 2 = true → e.cC ≤ limit) ∧ (f.mod.getLsbD 3 = true → e.cT ≤ limit)
    let ends (b : Bool) : Prop := exec (.swait f) s = .next (landed s f.taga 1 1 [.q f.dst.toNat b])
    (met (curE s) → ends true) ∧ (¬met (curE s) → f.b = 0 → ends false) ∧
    (¬met (curE s) → f.b ≠ 0 → exec (.swait f) s =
      .next (issued (modCurE s fun e => { e with swait := some { f := f, since := s.now, limit := limit } }) 1 (tagOf f.taga))) ∧
    (∀ core since, (s.core core).e.swait = some { f := f, since := since, limit := limit } →
      let late := f.b.toNat ≠ 31 ∧ (f.b = 0 ∨ since + 2 ^ (f.b.toNat + 4) ≤ s.now)
      let done (b : Bool) : State := (landSince s core .s since 1 [.q f.dst.toNat b] (tagOf f.taga)).modE core fun e =>
        { e with swait := none, unitFree := wr e.unitFree 0 (freedAt s core) }
      (met (s.core core).e → exec (.swaitComplete core) s = .next (done true)) ∧
      (¬met (s.core core).e → late → exec (.swaitComplete core) s = .next (done false)) ∧
      (¬met (s.core core).e → ¬late → exec (.swaitComplete core) s = .next s))

/-! ### The V slots: integers -/

namespace Sys2Proof.Claims

/-- The lane width of a V op's type (R20). -/
def wOf (f : VOp) : Nat := etw f.etype.toNat

/-- Lane `n` of v register `r` of the executing core, under a V op's type. -/
def vLane (s : State) (f : VOp) (r n : Nat) : Nat := lane (vReg (curE s) r).toNat (wOf f) n

/-- Lane `n` of the b operand (R149), given the row that the op pops under BK 11. -/
def bLane (s : State) (f : VOp) (row : V4096) (n : Nat) : Nat :=
  match f.bk.toNat with
  | 0 => vLane s f f.b.toNat n
  | 1 => bcElem s s.cur.core s.cur.info f.etype.toNat
  | 2 => lane (rd (curE s).f f.b.toNat {}).coord.toNat (wOf f) n
  | _ => lane row.toNat (wOf f) n

/-- What an op pops before it computes (R149, R174): the head row of oqC under BK 11, and nothing otherwise. -/
def Pops (s : State) (f : VOp) (s' : State) (row : V4096) : Prop :=
  if f.bk = 3 then
    ∃ rest, rd (curE s).oq f.c.toNat [] = row :: rest ∧ rowsNeeded s f.c.toNat ≤ rest.length + 1 ∧
      s' = modCurE s fun e => { e with oq := wr e.oq f.c.toNat rest }
  else s' = s ∧ row = 0

/-- The b operand is well formed (R79, R149); `c` says that C names something of its own. -/
def BOk (f : VOp) (c : Bool) : Prop :=
  (f.bk = 1 → f.b = 0) ∧ (f.bk = 2 → f.b.toNat < 8) ∧ (f.bk = 3 → c = false ∧ f.c.toNat < 4) ∧ (c = false → f.bk ≠ 3 → f.c = 0)

/-- No register of a beat passes v31, and more than one beat comes with BK 00 or 01 (R150). -/
def BeatsOk (f : VOp) : Prop :=
  f.dst.toNat + f.beats.toNat ≤ 31 ∧ f.a.toNat + f.beats.toNat ≤ 31 ∧ (f.bk = 0 → f.b.toNat + f.beats.toNat ≤ 31) ∧
  (f.beats ≠ 0 → f.bk = 0 ∨ f.bk = 1)

/-- The write of lanes to vD under the op's mask (R66, R67), elements of width `w`. -/
def maskedV (s : State) (f : VOp) (w : Nat) (val : V4096) : RegWrite :=
  .v f.dst.toNat val (spread (mReg (curE s) f.msk.toNat) w)

/-- An op of one or more beats has issued with the writes of beat 0 (R150): they are on their way, and an op of more beats runs on. -/
def started (s s' : State) (i : Instr) (f : VOp) (lat : Nat) (sel : M512) (ws : List RegWrite) : State :=
  if f.beats = 0 then landed s' f.taga lat 1 ws
  else
    let run : VRun := { instr := i, info := freezeBc s s.cur.core s.cur.info, beat := 1, mask := mReg (curE s) f.msk.toNat, sel := sel }
    let runs (e : Engine) : Engine := { e with vrun := wr e.vrun (slotNum s.cur.slot - 1) (some run) }
    issued (modCurE (land s' lat ws none) runs) (f.beats.toNat + 1) (tagOf f.taga)

/-- An elementwise op has issued (R150). -/
def elementwise (s s' : State) (i : Instr) (f : VOp) (lat : Nat) (sel : M512) (val : V4096) : State :=
  started s s' i f lat sel [maskedV s f (wOf f) val]

/-- An elementwise op computes `fn` of its lane number and the lanes of a, b and c, in beat 0 (R150). -/
def Elementwise (s : State) (i : Instr) (f : VOp) (lat : Nat) (sel : M512) (fn : Nat → Nat → Nat → Nat → Nat) : Prop :=
  ∀ s' row, Pops s f s' row → ∃ val : V4096, exec i s = .next (elementwise s s' i f lat sel val) ∧
    ∀ n, n < 4096 / wOf f →
      lane val.toNat (wOf f) n = fn n (vLane s f f.a.toNat n) (bLane s f row n) (vLane s f f.c.toNat n) % 2 ^ wOf f

/-- The value of an integer lane: two's complement for .S types, unsigned for .N types (R151). -/
def valOf (f : VOp) (x : Nat) : Int := if f.etype.getLsbD 0 then x else (BitVec.ofNat (wOf f) x).toInt

/-- The low bits of an exact result. -/
def wrap (w : Nat) (x : Int) : Nat := (x % (2 ^ w : Nat)).toNat

/-- An exact result limited to the range of the op's type (R151). -/
def clamp (f : VOp) (x : Int) : Nat :=
  let w := wOf f
  if f.etype.getLsbD 0 then wrap w (max 0 (min (2 ^ w - 1) x))
  else wrap w (max (-2 ^ (w - 1)) (min (2 ^ (w - 1) - 1) x))

/-- wrap, or clamp under SAT. -/
def fin (f : VOp) (x : Int) : Nat := if f.sat = 1 then clamp f x else wrap (wOf f) x

/-- A V op of one beat that writes `ws` has issued. -/
def Once (s : State) (i : Instr) (f : VOp) (lat : Nat) (ws : V4096 → List RegWrite → Prop) : Prop :=
  ∀ s' row, Pops s f s' row → ∃ l, ws row l ∧ exec i s = .next (landed s' f.taga lat 1 l)

/-- A V op of one beat writes vD, elements of width `w`, with lanes as `want` says. -/
def OnceV (s : State) (i : Instr) (f : VOp) (lat w : Nat) (want : V4096 → Nat → Nat) : Prop :=
  Once s i f lat fun row l => ∃ val, l = [maskedV s f w val] ∧ ∀ n, n < 4096 / w → lane val.toNat w n = want row n % 2 ^ w

end Sys2Proof.Claims

/-- R150, R151: the elementwise integer ops. Each lane is the function of R151 of its operands' lanes, wrapped or clamped exactly. -/
def Sys2Proof.Claims.VectorElementwiseInteger : Prop :=
  ∀ (s : State) (f : VOp), SlotMay s f.tagw f.taga → f.etype.toNat ≤ 5 → f.rnd = 0 → f.xtra = 0 → BeatsOk f →
    let w := wOf f
    let v := valOf f
    let sgn (x : Nat) : Int := (BitVec.ofNat w x).toInt
    let op (i : Instr) (lat : Nat) (fn : Nat → Nat → Nat → Nat) : Prop := Elementwise s i f lat 0 fun _ a b c => fn a b c
    (f.sat = 0 → f.neg = 0 → BOk f false →
      op (.vadd f) 2 (fun a b _ => a + b) ∧ op (.vsub f) 2 (fun a b _ => a + 2 ^ w - b) ∧
      op (.vmulh f) 3 (fun a b _ => wrap w (v a * v b / (2 ^ w : Nat))) ∧
      op (.vsadd f) 2 (fun a b _ => clamp f (v a + v b)) ∧ op (.vssub f) 2 (fun a b _ => clamp f (v a - v b)) ∧
      op (.vmin f) 2 (fun a b _ => if v a ≤ v b then a else b) ∧ op (.vmax f) 2 (fun a b _ => if v a ≤ v b then b else a) ∧
      op (.vand f) 2 (fun a b _ => a &&& b) ∧ op (.vor f) 2 (fun a b _ => a ||| b) ∧ op (.vxor f) 2 (fun a b _ => a ^^^ b) ∧
      op (.vshr f) 2 (fun a b _ => a / 2 ^ b) ∧ op (.vsra f) 2 (fun a b _ => wrap w (sgn a / (2 ^ b : Nat)))) ∧
    (f.neg = 0 → BOk f false →
      op (.vmul f) 3 (fun a b _ => fin f (v a * v b)) ∧
      op (.vshl f) 2 (fun a b _ => if f.sat = 1 then clamp f (v a * (2 ^ b : Nat)) else a * 2 ^ b)) ∧
    (BOk f true → f.c.toNat + f.beats.toNat ≤ 31 → op (.vmad f) 3 fun a b c =>
      fin f ((if f.neg.getLsbD 0 then -(v a * v b) else v a * v b) + if f.neg.getLsbD 1 then -(v c) else v c)) ∧
    (f.neg = 0 → f.bk = 0 → f.b = 0 → f.c = 0 →
      (f.etype.getLsbD 0 = false → op (.vabs f) 2 fun a _ _ => fin f |v a|) ∧
      (f.sat = 0 → op (.vclz f) 2 (fun a _ _ => if a = 0 then w else w - 1 - Nat.log2 a) ∧
        op (.vpopc f) 2 fun a _ _ => (List.range w).countP a.testBit))

/-- R150, R151, R12: VSEL and VMOV, which move lanes of all nine types with their bits unchanged. -/
def Sys2Proof.Claims.VectorSelectAndMove : Prop :=
  ∀ (s : State) (f : VOp), SlotMay s f.tagw f.taga → f.etype.toNat ≤ 8 → f.rnd = 0 → f.xtra = 0 → f.sat = 0 → f.neg = 0 →
    f.dst.toNat + f.beats.toNat ≤ 31 → (f.bk = 0 → f.b.toNat + f.beats.toNat ≤ 31) → (f.beats ≠ 0 → f.bk = 0 ∨ f.bk = 1) →
    (f.a.toNat + f.beats.toNat ≤ 31 → BOk f true → f.c.toNat < 8 → let m := mReg (curE s) f.c.toNat
      Elementwise s (.vsel f) f 2 m fun n a b _ => if m.getLsbD (n * (wOf f / 8)) then a else b) ∧
    (f.a = 0 → BOk f false → Elementwise s (.vmov f) f 2 0 fun _ _ b _ => b)

/-- R150: beat j of a running V op issues in cycle c + j on the registers j on from the first; its result comes j cycles after that of
beat 0, and the last beat's carries the tag. -/
def Obligations.VectorLaterBeats : Prop :=
  ∀ (s : State) (core : Nat) (slot : Slot) (r : VRun) (f : VOp) (lat : Nat) (beat : BeatFn), (slot = .v0 ∨ slot = .v1) →
    rd (s.core core).e.vrun (slotNum slot - 1) none = some r → beatOf r.instr = some (f, lat, beat) → r.beat ≤ f.beats.toNat →
    let last := r.beat = f.beats.toNat
    let due := rd (s.core core).e.unitFree (slotNum slot) 0 ≤ s.now + (f.beats.toNat + 1 - r.beat)
    (¬due → exec (.vBeat core slot) s = .next s) ∧
    (due → exec (.vBeat core slot) s = .next ((landAt s core slot lat (beat s core r.info r.mask r.sel r.beat 0)
      (if last then tagOf f.taga else none)).modE core fun e =>
        { e with vrun := wr e.vrun (slotNum slot - 1) (if last then none else some { r with beat := r.beat + 1 }) }))

/-- R150: a later beat of a running V op completes in its cycle: beat j reads the registers j on from the first, its lanes are on their way
to the register j on from vD under the op's mask, and the op steps on, its last beat ending it with its tag. -/
def Obligations.VectorBeatCompletes : Prop :=
  ∀ (s : State) (core : Nat) (slot : Slot) (r : VRun) (f : VOp), (slot = .v0 ∨ slot = .v1) →
    rd (s.core core).e.vrun (slotNum slot - 1) none = some r → r.beat ≤ f.beats.toNat →
    rd (s.core core).e.unitFree (slotNum slot) 0 ≤ s.now + (f.beats.toNat + 1 - r.beat) → f.bk = 0 → f.etype.toNat ≤ 5 →
    let w := wOf f
    let last := r.beat = f.beats.toNat
    let reg (n k : Nat) : Nat := lane (vReg (s.core core).e (n + r.beat)).toNat w k
    let runs (i : VOp → Instr) (lat : Nat) (fn : Nat → Nat → Nat) : Prop := r.instr = i f →
      ∃ (t : State) (val : V4096), exec (.vBeat core slot) s = .next t ∧
        (t.core core).e.landings = (s.core core).e.landings ++ [
          { at_ := s.now + lat, seq := s.now * 8 + slotNum slot, writes := [.v (f.dst.toNat + r.beat) val (spread r.mask w)],
            tag := if last then tagOf f.taga else none }] ∧
        (∀ n, n < 4096 / w → lane val.toNat w n = fn (reg f.a.toNat n) (reg f.b.toNat n) % 2 ^ w) ∧
        rd (t.core core).e.vrun (slotNum slot - 1) none = if last then none else some { r with beat := r.beat + 1 }
    runs .vadd 2 (fun a b => a + b) ∧ runs .vsub 2 (fun a b => a + 2 ^ w - b) ∧ runs .vand 2 (fun a b => a &&& b) ∧
    runs .vor 2 (fun a b => a ||| b) ∧ runs .vxor 2 (fun a b => a ^^^ b) ∧ runs .vmov 2 fun _ b => b

/-- R152, R153: VWADD and VWMUL widen part of their sources and are exact; VCMP writes every bit of an enabled element's mask and keeps
a disabled element's. -/
def Sys2Proof.Claims.VectorWidenAndCompare : Prop :=
  ∀ (s : State) (f : VOp), SlotMay s f.tagw f.taga → f.rnd = 0 → f.sat = 0 → f.neg = 0 → f.beats = 0 →
    let w := wOf f
    let v := valOf f
    let ratio := 2 ^ (f.xtra.toNat % 4 + 1)
    let part := f.xtra.toNat / 4
    let lo := part * (4096 / (ratio * w))
    let widens (i : Instr) (lat : Nat) (g : Int → Int → Int) : Prop :=
      OnceV s i f lat (ratio * w) fun row n => wrap (ratio * w) (g (v (vLane s f f.a.toNat (lo + n))) (v (bLane s f row (lo + n))))
    (f.etype.toNat ≤ 3 → BOk f false → f.xtra.toNat % 4 ≤ 1 → ratio * w ≤ 32 → part < ratio →
      widens (.vwadd f) 2 (· + ·) ∧ widens (.vwmul f) 3 (· * ·)) ∧
    (f.etype.toNat ≤ 5 → f.xtra = 0 → BOk f true → f.dst.toNat < 8 → f.c.toNat < 8 →
      Once s (.vcmp f) f 2 fun row l => ∃ m : M512, l = [.m f.dst.toNat m (spread (mReg (curE s) f.msk.toNat) w)] ∧
        ∀ j, j < 512 →
          let x := vLane s f f.a.toNat (j / (w / 8))
          let y := bLane s f row (j / (w / 8))
          m.getLsbD j = match f.c.toNat with
            | 0 => decide (x = y) | 1 => decide (x ≠ y) | 2 => decide (v x < v y) | 3 => decide (v y ≤ v x)
            | 4 => decide (v x ≤ v y) | 5 => decide (v y < v x) | 6 => decide (x &&& y ≠ 0) | _ => decide (x &&& y = 0))

/-- R154, R155, R157: the ops that create and move lanes; VNOP does nothing. -/
def Sys2Proof.Claims.VectorMoveLanes : Prop :=
  ∀ (s : State) (f : VOp), SlotMay s f.tagw f.taga → f.rnd = 0 → f.sat = 0 → f.neg = 0 → f.beats = 0 → f.etype.toNat ≤ 8 →
    let w := wOf f
    let a := vLane s f f.a.toNat
    let lanes := 4096 / w
    let idx := f.xtra.toNat * 32 + f.c.toNat
    let on (n : Nat) : Bool := (mReg (curE s) f.msk.toNat).getLsbD (n * (w / 8))
    (f.bk = 0 → f.b = 0 →
      (idx < lanes → OnceV s (.vbcast f) f 2 w fun _ _ => a idx) ∧ (lanes ≤ idx → exec (.vbcast f) s = opFaults s 2)) ∧
    (f.etype.toNat ≤ 5 → f.a = 0 → BOk f false → OnceV s (.viota f) f 2 w fun row n => bLane s f row 0 + n * (f.xtra.toNat + 1)) ∧
    (f.xtra = 0 → BOk f false →
      OnceV s (.vperm f) f 3 w (fun row n => if bLane s f row n < lanes then a (bLane s f row n) else 0) ∧
      OnceV s (.vrot f) f 3 w fun row n => a ((n + bLane s f row 0) % lanes)) ∧
    (f.xtra = 0 → f.bk = 0 → f.b = 0 → f.c = 0 →
      (Once s (.vcmprs f) f 3 fun _ l => ∃ val : V4096, l = [.v f.dst.toNat val (BitVec.allOnes 512)] ∧ ∀ n, n < lanes →
        lane val.toNat w n = match ((List.range lanes).filter on)[n]? with | some k => a k | none => 0) ∧
      OnceV s (.vexpnd f) f 3 w fun _ n => a ((List.range n).countP on)) ∧
    (f.etype = 0 → f.xtra = 0 → f.bk = 0 → f.b = 0 → f.c = 0 → f.a = 0 → f.dst = 0 → f.msk = 0 → exec (.vnop f) s = .next (leaves s f.taga))

/-- R156: VSCAN's inclusive prefixes and VRED's reduction, computed exactly and then wrapped or clamped; a disabled lane enters as the
identity, and VRED writes lane 0 alone, whatever its mask bit. A B or BK that is not 0, a function above MAX and SAT with MIN or MAX raise
0x009 or 0x011. -/
def Obligations.VectorScanAndReduce : Prop :=
  (∀ (s : State) (f : VOp), SlotMay s f.tagw f.taga → f.bk ≠ 0 ∨ f.b ≠ 0 ∨ 3 ≤ f.c.toNat ∨ (f.sat = 1 ∧ f.c ≠ 0) →
    exec (.vscan f) s = opFaults s 1 ∧ exec (.vred f) s = opFaults s 1) ∧
  ∀ (s : State) (f : VOp), SlotMay s f.tagw f.taga → f.rnd = 0 → f.neg = 0 → f.beats = 0 → f.etype.toNat ≤ 5 → f.xtra = 0 → f.bk = 0 →
    f.b = 0 → f.c.toNat ≤ 2 → (f.sat = 0 ∨ f.c = 0) →
    let w := wOf f
    let top : Int := if f.etype.getLsbD 0 then 2 ^ w - 1 else 2 ^ (w - 1) - 1
    let bottom : Int := if f.etype.getLsbD 0 then 0 else -2 ^ (w - 1)
    let comb (x y : Int) : Int := if f.c = 0 then x + y else if f.c = 1 then min x y else max x y
    let unit : Int := if f.c = 0 then 0 else if f.c = 1 then top else bottom
    let enters (n : Nat) : Int :=
      if (mReg (curE s) f.msk.toNat).getLsbD (n * (w / 8)) then valOf f (vLane s f f.a.toNat n) else unit
    let upTo (n : Nat) : Int := (List.range n).foldl (fun x k => comb x (enters k)) unit
    OnceV s (.vscan f) f 8 w (fun _ n => fin f (upTo (n + 1))) ∧
    Once s (.vred f) f 6 fun _ l => ∃ val : V4096, l = [.v f.dst.toNat val (BitVec.ofNat 512 (2 ^ (w / 8) - 1))] ∧
      lane val.toNat w 0 = fin f (upTo (4096 / w))

/-! ### The V slots: floating point -/

namespace Sys2Proof.Claims

/-- The pairwise tree of R39 over `2 ^ k` lanes. -/
def tree (g : Nat → Nat → Nat) : Nat → (Nat → Nat) → Nat
  | 0, l => l 0
  | k + 1, l => tree g k fun i => g (l (2 * i)) (l (2 * i + 1))

/-- The first `k` steps of R40: distances 1, 2, 4, … -/
def prefixSteps (g : Nat → Nat → Nat) : Nat → (Nat → Nat) → Nat → Nat
  | 0, l => l
  | k + 1, l => fun i => if 2 ^ k ≤ i then g (prefixSteps g k l (i - 2 ^ k)) (prefixSteps g k l i) else prefixSteps g k l i

/-- Levels of the tree over the lanes of a width. -/
def levels (w : Nat) : Nat := if w = 32 then 7 else 8

/-- A type of floating lanes (R20). -/
def Floats (f : VOp) : Prop := 6 ≤ f.etype.toNat ∧ f.etype.toNat ≤ 8

/-- Conversion of a value, and of the exact integer where there is one, into a lane type (R28, R29). -/
def intoLane (td : Nat) (mode : Rnd) (sat : Bool) (x : Machine.Num) (int : Option Int) : Nat :=
  let w := etw td
  let clampTo (v : Int) : Nat :=
    if td % 2 = 1 then wrap w (max 0 (min (2 ^ w - 1) v)) else wrap w (max (-2 ^ (w - 1)) (min (2 ^ (w - 1) - 1) v))
  if td ≤ 5 then
    match int with
    | some v => if sat then clampTo v else wrap w v
    | none => clampTo (toInt mode x)
  else convertFloat x (etFmt td) mode sat

/-- A lane as a value and, for an integer type, as its exact integer. -/
def laneValue (t x : Nat) : Machine.Num × Option Int :=
  if t ≤ 5 then (numOfInt (laneInt t x), some (laneInt t x)) else (decodeF (etFmt t) (x % 2 ^ etw t), none)

/-- The codes that `r` gives in each mode are the exact result, of the sign `neg`, rounded by R25: `order` compares a value with it. The
nearer of its two neighbours is told by the value halfway between them. -/
def Rounds (m : FFmt) (r : Rnd → Nat) (neg : Bool) (order : Machine.Num → Ordering) : Prop :=
  let val (c : Nat) : Machine.Num := decodeF m c
  let down := val (r .rdn)
  let up := val (r .rup)
  (order down ≠ .gt ∧ ∀ c, c < 2 ^ m.width → isNan (val c) = false → order (val c) ≠ .gt → cmpNum (val c) down ≠ .gt) ∧
  (order up ≠ .lt ∧ ∀ c, c < 2 ^ m.width → isNan (val c) = false → order (val c) ≠ .lt → cmpNum up (val c) ≠ .gt) ∧
  r .rtz = r (if neg then .rup else .rdn) ∧ (r .rne = r .rdn ∨ r .rne = r .rup) ∧
  (isInf down = false → isInf up = false → r .rdn ≠ r .rup → match order (mulNum (.fin false 1 (-1)) (addNum .rne down up)) with
    | .gt => r .rne = r .rdn
    | .lt => r .rne = r .rup
    | .eq => r .rne % 2 = 0)

/-- Bit field of a register. -/
def fieldOf (v : V4096) (off w : Nat) : Nat := v.toNat / 2 ^ off % 2 ^ w

end Sys2Proof.Claims

/-- R25: a finite value rounds down to the greatest representable value not above it, up to the least one not below it, toward zero to
the one of these on zero's side, and to nearest, to the nearer of the two, ties to the even significand. -/
def Obligations.RoundingModes : Prop :=
  ∀ (m : FFmt) (neg : Bool) (sig : Nat) (exp : Int), m ∈ [fp32, fp16, bf16] →
    let x := Machine.Num.fin neg sig exp
    let r (mode : Rnd) : Nat := convertFloat x m mode false
    let val (c : Nat) : Machine.Num := decodeF m c
    let down := val (r .rdn)
    let up := val (r .rup)
    (cmpNum down x ≠ .gt ∧ ∀ c, c < 2 ^ m.width → isNan (val c) = false → cmpNum (val c) x ≠ .gt → cmpNum (val c) down ≠ .gt) ∧
    (cmpNum x up ≠ .gt ∧ ∀ c, c < 2 ^ m.width → isNan (val c) = false → cmpNum x (val c) ≠ .gt → cmpNum up (val c) ≠ .gt) ∧
    r .rtz = r (if neg then .rup else .rdn) ∧ (r .rne = r .rdn ∨ r .rne = r .rup) ∧
    (isInf down = false → isInf up = false → r .rdn ≠ r .rup →
      match cmpNum (addNum .rne x (negNum down)) (addNum .rne up (negNum x)) with
      | .lt => r .rne = r .rdn
      | .gt => r .rne = r .rup
      | .eq => r .rne % 2 = 0)

/-- R42, R150, R162, R163: the elementwise floating ops round each exact result once by RND, with R64's latencies; VFMIN and VFMAX
choose one of their operands. -/
def Sys2Proof.Claims.VectorFloatLanes : Prop :=
  ∀ (s : State) (f : VOp), SlotMay s f.tagw f.taga → Floats f → f.xtra = 0 → f.sat = 0 → BeatsOk f →
    let m := etFmt f.etype.toNat
    let r := rndOf f.rnd
    let val (x : Nat) : Machine.Num := decodeF m x
    let exact (x : Machine.Num) : Nat := convertFloat x m r false
    let op (i : Instr) (lat : Nat) (fn : Nat → Nat → Nat → Nat) : Prop := Elementwise s i f lat 0 fun _ a b c => fn a b c
    let one (i : Instr) (fn : RFun) : Prop := op i 8 fun a _ _ => rfun fn m r a
    (f.neg = 0 → BOk f false →
      op (.vfadd f) 4 (fun a b _ => exact (addNum r (val a) (val b))) ∧
      op (.vfsub f) 4 (fun a b _ => exact (addNum r (val a) (negNum (val b)))) ∧
      op (.vfmul f) 4 (fun a b _ => exact (mulNum (val a) (val b))) ∧
      op (.vfdiv f) 12 (fun a b _ => divRound m r (val a) (val b)) ∧
      (f.rnd = 0 → op (.vfmin f) 4 (fun a b _ => minF m a b) ∧ op (.vfmax f) 4 fun a b _ => maxF m a b)) ∧
    (BOk f true → f.bk ≠ 3 → f.c.toNat + f.beats.toNat ≤ 31 → op (.vfma f) 4 fun a b c =>
      let p := mulNum (val a) (val b)
      exact (addNum r (if f.neg.getLsbD 0 then negNum p else p) (if f.neg.getLsbD 1 then negNum (val c) else val c))) ∧
    (f.neg = 0 → f.bk = 0 → f.b = 0 → f.c = 0 →
      op (.vfsqrt f) 12 (fun a _ _ => sqrtRound m r (val a)) ∧ one (.vfrcp f) .rcp ∧ one (.vfrsq f) .rsq ∧ one (.vfexp2 f) .exp2 ∧
      one (.vflog2 f) .log2 ∧ one (.vfsin f) .sin ∧ one (.vfcos f) .cos ∧ one (.vftanh f) .tanh)

/-- R25, R42, R162: quotients, square roots, reciprocals and reciprocal square roots of nonzero finite operands are the exact result
rounded once, in each mode, as the order of the values tells; each of the seven functions rounds one value, with or without a tail below
it, in every mode, and has the special operands of R42's table. Which value that is for the functions that are no fractions or roots rests
on a 704-bit evaluation (assumption 14). -/
def Sys2Proof.Claims.SingleRounding : Prop :=
  ∀ (m : FFmt) (unit : Nat), (m, unit) ∈ [(fp32, 0x3F800000), (fp16, 0x3C00), (bf16, 0x3F80)] →
    let one : Machine.Num := .fin false 1 0
    let isNeg (x : Machine.Num) : Bool := match x with | .fin n _ _ => n | .inf n => n | .nan => false
    let ratio (a b y : Machine.Num) : Ordering := if isNeg b then cmpNum a (mulNum y b) else cmpNum (mulNum y b) a
    let nan := m.nanCode.getD 0
    let inf := m.infCode.getD 0
    let sgn := 2 ^ (m.width - 1)
    let fns : List RFun := [.rcp, .rsq, .exp2, .log2, .sin, .cos, .tanh]
    let table (x : Nat) (want : List Nat) : Prop := ∀ r, fns.map (fun fn => rfun fn m r x) = want
    (∀ (na nb : Bool) (sa sb : Nat) (ea eb : Int) (ca cb : Nat), decodeF m ca = .fin na sa ea → decodeF m cb = .fin nb sb eb → sb ≠ 0 →
      Rounds m (fun r => divRound m r (.fin na sa ea) (.fin nb sb eb)) (na != nb) (ratio (.fin na sa ea) (.fin nb sb eb)) ∧
      Rounds m (fun r => rfun .rcp m r cb) nb (ratio one (.fin nb sb eb))) ∧
    (∀ (sa : Nat) (ea : Int) (ca : Nat), decodeF m ca = .fin false sa ea → sa ≠ 0 →
      Rounds m (fun r => sqrtRound m r (.fin false sa ea)) false
        (fun y => if isNeg y then .lt else cmpNum (mulNum y y) (.fin false sa ea)) ∧
      Rounds m (fun r => rfun .rsq m r ca) false
        (fun y => if isNeg y then .lt else cmpNum (mulNum (mulNum y y) (.fin false sa ea)) one)) ∧
    (∀ (fn : RFun) (c : Nat), (∀ r, rfun fn m r c = rfun fn m .rne c) ∨
      ∃ neg sig exp tail, ∀ r, rfun fn m r c = roundTo m r false neg sig exp tail) ∧
    (∀ c, isNan (decodeF m c) = true → table c [nan, nan, nan, nan, nan, nan, nan]) ∧
    table inf [0, 0, inf, inf, nan, nan, unit] ∧ table (sgn + inf) [sgn, nan, 0, nan, nan, nan, sgn + unit] ∧
    table 0 [inf, inf, unit, sgn + inf, 0, unit, 0] ∧ table sgn [sgn + inf, sgn + inf, unit, sgn + inf, sgn, unit, sgn] ∧
    (∀ (sa : Nat) (ea : Int) (c : Nat) (r : Rnd), decodeF m c = .fin true sa ea → sa ≠ 0 →
      rfun .rsq m r c = nan ∧ rfun .log2 m r c = nan)

/-- R25, R42, R150, R162, R163: elementwise floating ops. Model's own choices: assumptions 14 and 85. -/
def Obligations.VectorFloatElementwise : Prop := VectorFloatLanes ∧ SingleRounding

/-- R12, R39, R40, R163, R164, R165: the floating compare, and scan and reduction in the order of their steps and tree, a disabled lane as
the identity. Model's own choices: assumption 85 (a batch vector under BK 10 is read as lanes of the op's width). -/
def Obligations.VectorFloatCompareAndReduce : Prop :=
  ∀ (s : State) (f : VOp), SlotMay s f.tagw f.taga → Floats f → f.xtra = 0 → f.sat = 0 → f.neg = 0 → f.beats = 0 →
    let w := wOf f
    let m := etFmt f.etype.toNat
    let r := rndOf f.rnd
    let comb : Nat → Nat → Nat := if f.c = 0 then addRound m r else if f.c = 1 then minF m else maxF m
    let sgn := 2 ^ (w - 1)
    let inf := m.infCode.getD 0
    let canon (x : Nat) : Nat := if isNan (decodeF m x) = true then m.nanCode.getD x else x
    let unit := if f.c = 0 then (if r = .rdn then 0 else sgn) else if f.c = 1 then inf else sgn + inf
    let enters (n : Nat) : Nat := if (mReg (curE s) f.msk.toNat).getLsbD (n * (w / 8)) then vLane s f f.a.toNat n else unit
    (f.rnd = 0 → BOk f true → f.bk ≠ 3 → f.dst.toNat < 8 → f.c.toNat < 8 →
      Once s (.vfcmp f) f 2 fun row l => ∃ k : M512, l = [.m f.dst.toNat k (spread (mReg (curE s) f.msk.toNat) w)] ∧
        ∀ j, j < 512 →
          let x := decodeF m (vLane s f f.a.toNat (j / (w / 8)))
          let y := decodeF m (bLane s f row (j / (w / 8)))
          let nan := isNan x = true ∨ isNan y = true
          k.getLsbD j = true ↔ match f.c.toNat with
            | 0 => ¬nan ∧ cmpNum x y = .eq | 1 => nan ∨ cmpNum x y ≠ .eq | 2 => ¬nan ∧ cmpNum x y = .lt
            | 3 => ¬nan ∧ cmpNum x y ≠ .lt | 4 => ¬nan ∧ cmpNum x y ≠ .gt | 5 => ¬nan ∧ cmpNum x y = .gt | 6 => nan | _ => ¬nan) ∧
    (f.bk = 0 → f.b = 0 → f.c.toNat ≤ 2 → (f.rnd = 0 ∨ f.c = 0) →
      OnceV s (.vfscan f) f 8 w (fun _ n => canon (prefixSteps comb (levels w) enters n)) ∧
      Once s (.vfred f) f 6 fun _ l => ∃ val : V4096, l = [.v f.dst.toNat val (BitVec.ofNat 512 (2 ^ (w / 8) - 1))] ∧
        lane val.toNat w 0 = tree comb (levels w) enters % 2 ^ w)

/-- R166, R167, R168: VCVT's three forms. The lane form converts lanes part for part; pack and unpack place element i at bit
p·k·wf + wf·i, keep a disabled lane's element, and raise the faults of an invalid or foreign format register, of a part beyond the
register and of a reserved code under SUBST 11. Which of several reserved codes the fault names is the model's choice (assumption
98). -/
def Sys2Proof.Claims.VectorConversions : Prop :=
  ∀ (s : State) (f : VOp), SlotMay s f.tagw f.taga → f.etype.toNat ≤ 8 → f.neg = 0 → f.beats = 0 → f.bk = 0 → f.b = 0 →
    let t := f.etype.toNat
    let td := f.c.toNat
    let ws := etw t
    let wd := etw td
    let p := f.xtra.toNat / 4
    let a := (vReg (curE s) f.a.toNat).toNat
    let mask := mReg (curE s) f.msk.toNat
    let on (n : Nat) : Prop := mask.getLsbD (n * (ws / 8)) = true
    let gives (val : V4096) (sel : M512) : Prop := exec (.vcvt f) s = .next (landed s f.taga 3 1 [.v f.dst.toNat val sel])
    let k := 4096 / ws
    (f.xtra.toNat % 4 = 0 → td ≤ 8 → p < max ws wd / min ws wd →
      let k := 4096 / max ws wd
      let src := if ws ≤ wd then p * k else 0
      let dst := if ws ≤ wd then 0 else p * k
      ∃ val sel, gives val sel ∧
        (∀ j, j < 512 → (sel.getLsbD j = true ↔ (spread mask wd).getLsbD j = true ∧ dst ≤ j / (wd / 8) ∧ j / (wd / 8) < dst + k)) ∧
        ∀ i, i < k → lane val.toNat wd (dst + i) =
          let x := laneValue t (lane a ws (src + i)); intoLane td (rndOf f.rnd) (f.sat == 1) x.1 x.2 % 2 ^ wd) ∧
    ((f.xtra.toNat % 4 = 1 ∧ f.rnd.toNat ≤ 1 ∨ f.xtra.toNat % 4 = 2) → td < 4 → ∀ v, fmRead s s.cur.core s.cur.info td = some v →
      let wf := narrowWidth v
      let off := p * k * wf
      let known := fmValid v = true ∧ (fmFamily v = 0 ∨ fmFamily v = 3)
      let code (i : Nat) : Nat := a / 2 ^ (off + wf * i) % 2 ^ wf
      let reserved (i : Nat) : Prop := i < k ∧ fmFamily v = 0 ∧ narrowInt v (code i) = none
      (fmValid v = false → exec (.vcvt f) s = opFaults s 6) ∧
      (fmValid v = true → fmFamily v ≠ 0 → fmFamily v ≠ 3 → exec (.vcvt f) s = opFaults s 1) ∧
      (known → 4096 < (p + 1) * k * wf → exec (.vcvt f) s = opFaults s 2) ∧
      (known → (p + 1) * k * wf ≤ 4096 → f.xtra.toNat % 4 = 1 → ∃ val sel : V4096, exec (.vcvt f) s = .next (landed s f.taga 3 1 [.vbits f.dst.toNat val sel]) ∧
        (∀ i, i < k → on i → fieldOf val (off + wf * i) wf = let x := laneValue t (lane a ws i)
          toNarrow v (narrowRnd s s.cur.core s.cur.slot s.cur.info f.rnd i) (f.sat == 1) x.1 x.2 % 2 ^ wf) ∧
        ∀ j, j < 4096 → (sel.getLsbD j = true ↔ ∃ i, i < k ∧ on i ∧ off + wf * i ≤ j ∧ j < off + wf * (i + 1))) ∧
      (known → (p + 1) * k * wf ≤ 4096 → f.xtra.toNat % 4 = 2 →
        (∀ i, reserved i → (∀ j, j < i → ¬reserved j) →
          exec (.vcvt f) s = .next (slotFault s (class0 s.cur.slot 2) 0 (BitVec.ofNat 64 i) 0)) ∧
        ((∀ i, ¬reserved i) → ∃ val, gives val (spread mask ws) ∧ ∀ i, i < k → lane val.toNat ws i =
          (if fmFamily v = 0 then
              let x := (narrowInt v (code i)).getD 0; intoLane t (rndOf f.rnd) (f.sat == 1) (numOfInt x) (some x)
            else intoLane t (rndOf f.rnd) (f.sat == 1) (decodeF (fp8Fmt v) (code i)) none) % 2 ^ ws)))

/-- R169, R170: the block packs and unpacks. Block q of part p lies at bit (p·blocks + q) times its length, its MX scale in byte
p·blocks + q of the next register; a disabled lane enters as +0. -/
def Sys2Proof.Claims.BlockPacking : Prop :=
  ∀ (s : State) (f : VOp) (v : BitVec 32), SlotMay s f.tagw f.taga → Floats f → f.neg = 0 → f.beats = 0 → f.bk = 0 → f.b = 0 →
    f.c.toNat < 4 → f.xtra.toNat < 16 → fmRead s s.cur.core s.cur.info f.c.toNat = some v → fmValid v = true →
    let w := wOf f
    let m := etFmt f.etype.toNat
    let p := f.xtra.toNat
    let n := 4096 / w
    let mask := mReg (curE s) f.msk.toNat
    let a := vReg (curE s) f.a.toNat
    let rnd := narrowRnd s s.cur.core s.cur.slot s.cur.info f.rnd
    let enters (i : Nat) : Machine.Num := if mask.getLsbD (i * (w / 8)) then decodeF m (vLane s f f.a.toNat i) else .fin false 0 0
    let span (sel : M512) (lo hi : Nat) : Prop := ∀ j, j < 512 → (sel.getLsbD j = true ↔ lo ≤ 8 * j ∧ 8 * j < hi)
    let packs := f.rnd.toNat ≤ 1
    let lanesAre (i : Instr) (x : Nat → Machine.Num) : Prop := ∃ val, exec i s = .next (landed s f.taga 3 1 [maskedV s f w val]) ∧
      ∀ j, j < n → lane val.toNat w j = convertFloat (x j) m (rndOf f.rnd) false % 2 ^ w
    (fmFamily v = 1 →
      let g := fmWidth v
      let lb := 16 + 16 * (g + 1)
      let q := n / 16
      let off := p * q * lb
      let fits := (p + 1) * q * lb ≤ 4096
      (packs → fits → ∃ val sel, exec (.vpkgm f) s = .next (landed s f.taga 3 1 [.v f.dst.toNat val sel]) ∧ span sel off (off + q * lb) ∧
        ∀ i, i < q → fieldOf val (off + lb * i) lb =
          toGrist g (fun j => rnd (16 * i + j)) (f.sat == 1) ((List.range 16).map fun j => enters (16 * i + j)) % 2 ^ lb) ∧
      (packs → ¬fits → exec (.vpkgm f) s = opFaults s 2) ∧
      (f.sat = 0 → ¬fits → exec (.vupgm f) s = opFaults s 2) ∧
      (f.sat = 0 → fits → lanesAre (.vupgm f) fun j => gristElem g (fieldOf a (off + lb * (j / 16)) lb) (j % 16))) ∧
    (fmFamily v = 2 →
      let x := fmWidth v
      let we := mxWidth x
      let q := n / 32
      let off := p * n * we
      let fits := (p + 1) * n * we ≤ 4096
      let block (i : Nat) : Nat × List Nat := toMx x (fun j => rnd (32 * i + j)) (f.sat == 1) ((List.range 32).map fun j => enters (32 * i + j))
      (packs → fits → f.dst ≠ 31 → ∃ val sel sc selc, exec (.vpkmx f) s =
          .next (landed s f.taga 3 1 [.v f.dst.toNat val sel, .v (f.dst.toNat + 1) sc selc]) ∧
        span sel off (off + n * we) ∧ span selc (8 * (p * q)) (8 * ((p + 1) * q)) ∧
        (∀ j, j < n → fieldOf val (off + we * j) we = (block (j / 32)).2.getD (j % 32) 0 % 2 ^ we) ∧
        ∀ i, i < q → fieldOf sc (8 * (p * q + i)) 8 = (block i).1 % 256) ∧
      (packs → (¬fits ∨ f.dst = 31) → exec (.vpkmx f) s = opFaults s 2) ∧
      (f.sat = 0 → (¬fits ∨ f.a = 31) → exec (.vupmx f) s = opFaults s 2) ∧
      (f.sat = 0 → fits → f.a ≠ 31 → lanesAre (.vupmx f) fun j =>
        mxNum x (fieldOf (vReg (curE s) (f.a.toNat + 1)) (8 * (p * q + j / 32)) 8) (fieldOf a (off + we * j) we)))

/-- R171: VTOPK writes the k greatest candidates in order, with −Inf and all ones beyond the real count, and the count to sN; a k of 0
or above 128, a length above the lane count and DST 31 raise operand out of range. -/
def Sys2Proof.Claims.VectorTopK : Prop :=
  ∀ (s : State) (f : VOp), SlotMay s f.tagw f.taga → Floats f → f.rnd = 0 → f.sat = 0 → f.neg = 0 → f.beats = 0 → f.bk = 1 → f.b = 0 →
    f.c = 0 →
    let w := wOf f
    let m := etFmt f.etype.toNat
    let pat := (bcPattern s s.cur.core s.cur.info).toNat
    let k := pat % 256
    let len := pat / 256 % 65536
    let lanes := 4096 / w
    let a := vLane s f f.a.toNat
    let num (i : Nat) : Machine.Num := decodeF m (a i)
    let isCand (i : Nat) : Prop := i < lanes ∧ (len ≠ 0 → i < len) ∧
      (mReg (curE s) f.msk.toNat).getLsbD (i * (w / 8)) = true ∧ isNan (num i) = false
    let before (i j : Nat) : Prop := match cmpNum (num i) (num j) with
      | .gt => True
      | .lt => False
      | .eq => if a i = a j then i < j else 2 ^ (w - 1) ≤ a j
    let bad := k = 0 ∨ 128 < k ∨ lanes < len ∨ f.dst = 31
    (bad → exec (.vtopk f) s = opFaults s 2) ∧
    (¬bad → ∃ (order : List Nat) (val idx : V4096) (cnt : W64), order.Pairwise before ∧ (∀ i, i ∈ order ↔ isCand i) ∧
      cnt.toNat = min k order.length ∧
      exec (.vtopk f) s = .next (landed s f.taga 10 1 [.v f.dst.toNat val (BitVec.ofNat 512 (2 ^ (k * (w / 8)) - 1)),
        .v (f.dst.toNat + 1) idx (BitVec.ofNat 512 (2 ^ (k * 4) - 1)), .s f.xtra.toNat cnt]) ∧
      ∀ j, j < k →
        lane val.toNat w j = (match order[j]? with | some i => a i | none => 2 ^ (w - 1) + m.infCode.getD 0) ∧
        lane idx.toNat 32 j = match order[j]? with | some i => i | none => 0xFFFFFFFF)

/-- R41, R44, R172, R173, R174: VRAND's words, CKPROBE's contribution to the probe accumulator, and VPOPQ's row, which it waits for while
a drain is in flight and otherwise faults for. -/
def Sys2Proof.Claims.RandomProbeAndPop : Prop :=
  ∀ (s : State) (f : VOp), SlotMay s f.tagw f.taga → f.rnd = 0 → f.sat = 0 → f.neg = 0 →
    let w := wOf f
    let m := etFmt f.etype.toNat
    let mask := mReg (curE s) f.msk.toNat
    let key (r : Nat) : Nat := (sReg (curE s) r).toNat % 2 ^ 32
    let ctr := (sReg (curE s) f.xtra.toNat).toNat
    let step := (rd (stepRegs s s.cur.core) 0 0).toNat % 2 ^ 32
    let dist (n : Nat) : Nat := convertFloat
      (absNum (addNum .rne (decodeF m (vLane s f f.a.toNat n)) (negNum (decodeF m (bLane s f 0 n))))) fp32 .rne false
    let on (n : Nat) : Bool := mask.getLsbD (n * (w / 8))
    let rows := rd (curE s).oq f.c.toNat []
    ((f.etype = 4 ∨ f.etype = 5) → f.bk = 0 → f.b = 0 → f.beats = 0 →
      OnceV s (.vrand f) f 6 32 fun _ n => philoxWord n step (ctr % 2 ^ 32) (ctr / 2 ^ 32) (key f.a.toNat) (key f.c.toNat)) ∧
    (Floats f → f.xtra = 0 → f.dst = 0 → f.c.toNat < 4 → BOk f true → f.bk ≠ 3 → BeatsOk f → ∃ d : BitVec 32,
      exec (.ckprobe f) s = .next (started s s (.ckprobe f) f 4 0 [.probe (f.c.getLsbD 1) (f.c.getLsbD 0) d]) ∧
      (f.c.getLsbD 0 = true → d.toNat = tree (addRound fp32 .rne) (levels w) (fun n => if on n then dist n else 2 ^ 31) % 2 ^ 32) ∧
      (f.c.getLsbD 0 = false → d.toNat = (((List.range (4096 / w)).filter on).map dist).foldl (maxF fp32) 0 % 2 ^ 32)) ∧
    (f.etype.toNat ≤ 8 → f.xtra = 0 → f.beats = 0 → f.bk = 0 → f.b = 0 → f.a = 0 → f.c.toNat < 4 →
      (rows.length < rowsNeeded s f.c.toNat → exec (.vpopq f) s = if drainFlying s.now (curE s) f.c.toNat then .next s else opFaults s 4) ∧
      ∀ row rest, rows = row :: rest → rowsNeeded s f.c.toNat ≤ rows.length →
        exec (.vpopq f) s = .next (landed (modCurE s fun e => { e with oq := wr e.oq f.c.toNat rest }) f.taga 2 1 [maskedV s f w row]))

/-! ### The M slot -/

namespace Sys2Proof.Claims

/-- An M op at the head of its slot finds the units that it needs free (R61, R177), and the slot has issued nothing in this cycle. -/
def MMay (s : State) (f : MOp) (array drain : Bool) : Prop :=
  SlotMay s f.tagw f.taga ∧ s.cur.slot = .m ∧ (array = true → arrayFree s s.cur.core = true) ∧
  (drain = true → drainPortFree s s.cur.core = true) ∧ (curE s).mNext ≤ s.now

/-- An M op has issued: it leaves its queue, and the array is taken for `occ` cycles more, or for as long as before. -/
def mDone (s : State) (taga : BitVec 4) (occ : Nat) (gang : State → State) : State :=
  let s' := modCurE (tagOnly s (tagOf taga)) fun e => { e with mNext := s.now + 1 }
  issued (gang s') (max occ (rd (curE s).unitFree 3 0 - s.now)) (tagOf taga)

/-- What an array op takes: in a gang, the four members' ops agree, and it takes its leader's address registers and format value
(R193); outside, its own (R184). -/
def Takes (s : State) (f : MOp) (g : GangOp) (gang : State → State) : Prop :=
  let n := s.cur.core
  let c := (curE s).gangN
  if (curE s).ganged = true then
    ∃ own, gangPart s n c = some own ∧ gangPart s (n / 4 * 4) c = some g ∧
      (∀ m, m / 4 = n / 4 → ∃ q, gangPart s m c = some q ∧ q.opc = own.opc ∧ (own.opc = 3 → q.beats = own.beats)) ∧
      gang = fun t => modCurE t fun e => { e with gangN := c + 1, gangOp := some own }
  else
    (∃ v, fmRead s n s.cur.info f.fa.toNat = some v ∧
      g = GangOp.mk 0 f.beats (rd (curE s).ma f.ma.toNat 0) (rd (curE s).ma ((f.ma.toNat + 1) % 8) 0) v) ∧ gang = id

/-- Each member of a gang has an array op that neither faults nor waits, given what it takes from the leader, and none is held in this
cycle by its own bundle or tags (R193; assumption 51). -/
def GangReady (s : State) (g : GangOp) : Prop :=
  (curE s).ganged = true → (curE s).gangHeld ≠ some s.now ∧ ∀ m, m / 4 = s.cur.core / 4 → gangFits s m (curE s).gangN g = true

/-- The value of an array op's own format register is invalid (R23). -/
def OwnFmInvalid (s : State) (f : MOp) : Prop := ∃ x, fmRead s s.cur.core s.cur.info f.fa.toNat = some x ∧ fmValid x = false

/-- The bytes of a core's scratchpad as a number. -/
def pad (s : State) (core off n : Nat) : Nat := ofBytes (memRead (s.core core).scratch off n)

/-- A field of an address register is reserved and not zero (R179). -/
def maReserved (v : W64) : Prop := v.toNat / 2 ^ 60 ≠ 0

/-- A tile op counts in T (R178). -/
def counted (s : State) : State := modCurE s fun e => { e with cT := e.cT + 1 }

end Sys2Proof.Claims

/-- R177, R183, R188, R192, R193, R194: MNOP, MZERO, MSWAP, MMASK, MGANG and MWREL. -/
def Obligations.MatrixControl : Prop :=
  ∀ (s : State) (f : MOp), f.fb = 0 → f.fa = 0 → f.beats = 0 →
    let e := curE s
    let n := s.cur.core
    let done (s' : State) (occ : Nat) : Host.Outcome State Fault Refusal := .next (mDone s' f.taga occ id)
    let ma := rd e.ma f.ma.toNat 0
    let base := ma.toNat % 2 ^ 20
    let act := f.sel.getLsbD 0
    let drn := f.sel.getLsbD 1
    let first := e.ac1Active = false
    let zeroed (e : Engine) : Engine :=
      { e with
        ac0 := if (act = true ∧ first) ∨ (drn = true ∧ ¬first) then Vector.replicate 256 0 else e.ac0
        ac1 := if (act = true ∧ ¬first) ∨ (drn = true ∧ first) then Vector.replicate 256 0 else e.ac1
        drainFree := if drn = true then s.now + 1 else e.drainFree }
    let there (k : Nat) : Prop :=
      let x := (s.core k).e
      if e.gangN < x.gangN then x.ganged = (f.sel == 1)
      else x.gangN = e.gangN ∧ ∃ o, mHead s k true = some o ∧ o.bits.toNat % 32 = 0x0A ∧ o.bits.toNat / 2 ^ 13 % 8 = f.sel.toNat ∧
        tagSet x (tagOf (BitVec.ofNat 4 (o.bits.toNat / 2 ^ 28))) = false
    let w := rd e.wb f.bsrc.toNat {}
    let h := f.sel == 1
    let emptied : WBuf :=
      { w with
        full0 := w.full0 && h
        full1 := w.full1 && !h
        cursorHalf := if w.cursorHalf = h then !h else w.cursorHalf
        cursorOff := if w.cursorHalf = h then 0 else w.cursorOff }
    (f.mode = 0 → f.bsrc = 0 → f.ma = 0 →
      (f.sel = 0 → MMay s f false false → exec (.mnop f) s = done s 0) ∧
      (f.sel.toNat < 4 → f.sel ≠ 0 → MMay s f act drn → (e.ganged = true → drn = true) →
        exec (.mzero f) s = done (modCurE s zeroed) (if act = true then 1 else 0)) ∧
      (f.sel = 1 → MMay s f true false → e.ganged = true → ∀ g gang, Takes s f g gang → GangReady s g →
        exec (.mzero f) s = .next (mDone (modCurE s zeroed) f.taga 1 gang)) ∧
      (f.sel = 0 → MMay s f true true →
        (s.now < e.accLands → exec (.mswap f) s = .next s) ∧
        (e.accLands ≤ s.now → exec (.mswap f) s = done (modCurE s fun e => { e with ac1Active := !e.ac1Active, drainFree := s.now + 1 }) 1)) ∧
      (f.sel.toNat ≤ 1 → MMay s f true true → (f.sel = 0 ∨ ∃ t, s.taskOn n = some t ∧ t.gang = true) →
        ((∃ k, k / 4 = n / 4 ∧ ¬there k) → exec (.mgang f) s = .next s) ∧
        ((∀ k, k / 4 = n / 4 → there k) → exec (.mgang f) s = done (modCurE s fun e =>
          { e with ganged := f.sel == 1, gangN := e.gangN + 1, drainFree := s.now + 1 }) 1)) ∧
      (f.sel = 1 → MMay s f true true → (∀ t, s.taskOn n = some t → t.gang = false) → exec (.mgang f) s = opFaults s 2)) ∧
    (f.bsrc = 0 → f.sel = 0 → MMay s f false true →
      let sets (m : BitVec 256) (s' : State) : Host.Outcome State Fault Refusal :=
        done (modCurE s' fun e => { e with rowMask := m, drainFree := s.now + 6, tiles := e.tiles ++ [s.now + 6] }) 0
      (f.mode = 1 → f.ma = 0 → e.cT < 255 → exec (.mmask f) s = sets (BitVec.allOnes 256) (counted s)) ∧
      (f.mode = 0 → maReserved ma → exec (.mmask f) s = opFaults s 1) ∧
      (f.mode = 0 → ¬maReserved ma → 2 ^ 20 < base + 32 → exec (.mmask f) s = opFaults s 7) ∧
      (f.mode = 0 → ¬maReserved ma → base + 32 ≤ 2 ^ 20 → e.cT < 255 →
        exec (.mmask f) s = sets (BitVec.ofNat 256 (pad s n base 32)) (holdBanks (counted s) n s.now (banksOf base 32)))) ∧
    (f.mode = 0 → f.ma = 0 → f.bsrc.toNat ≤ 1 → f.sel.toNat ≤ 1 → MMay s f false false →
      let full := if h then w.full1 else w.full0
      (full = false → exec (.mwrel f) s = opFaults s 2) ∧
      (full = true → arrayFree s n = false → exec (.mwrel f) s = .next s) ∧
      (full = true → arrayFree s n = true →
        exec (.mwrel f) s = done (modCurE s fun e => { e with wb := wr e.wb f.bsrc.toNat emptied }) 0))

/-- R181, R184, R193: MLDA and MLDAT fill the A latch with chunk s of every row, from the leader's scratchpad in a gang, or raise
the fault of R184; they wait while T stands at 255. In a gang they go in the cycle in which all four members can. Model's own choices: assumptions 47 and 84. -/
def Obligations.MatrixLatch : Prop :=
  ∀ (s : State) (f : MOp) (g : GangOp) (gang : State → State), MMay s f true false → f.bsrc = 0 → f.fb = 0 → f.sel = 0 → f.beats = 0 →
    Takes s f g gang →
    let v := g.fma
    let fam := fmFamily v
    let st := f.mode.toNat
    let w := aWidth v
    let chunks := if fam = 1 then 2 else if fam = 2 then 4 else 1
    let src := if (curE s).ganged = true then s.cur.core / 4 * 4 else s.cur.core
    let base := g.ma.toNat % 2 ^ 20
    let rstr := g.ma.toNat / 2 ^ 20 % 2 ^ 20
    let kstr := g.ma.toNat / 2 ^ 40 % 2 ^ 20
    let rowIs (r : Nat) (code hdr : Nat) : Prop :=
      let blk := base + r * rstr + st / chunks * kstr
      (fam ≠ 1 → fam ≠ 2 → code = pad s src blk w ∧ hdr = 0) ∧
      (fam = 1 → code = pad s src blk (2 + 2 * w) / 2 ^ (16 + 8 * (st % 2) * w) % 2 ^ (8 * w) ∧ hdr = pad s src blk (2 + 2 * w) % 2 ^ 16) ∧
      (fam = 2 → code = pad s src blk (4 * w) / 2 ^ (8 * (st % 4) * w) % 2 ^ (8 * w) ∧
        hdr = pad s src (g.maScale.toNat % 2 ^ 20 + r * (g.maScale.toNat / 2 ^ 20 % 2 ^ 20) + st / 4 * (g.maScale.toNat / 2 ^ 40 % 2 ^ 20)) 1)
    let reads (i : Instr) (tr : Bool) : Prop :=
      let reserved := maReserved (rd (curE s).ma f.ma.toNat 0) ∨ maReserved g.ma ∨ (fmValid v = true ∧
        (4 < fam ∨ (tr = true ∧ (fam = 1 ∨ fam = 2)) ∨ chunks ≤ st ∨ (fam = 2 ∧ (f.ma.getLsbD 0 = true ∨ maReserved g.maScale))))
      let len := aRowLen v
      let occ := if tr then (if w ≤ 8 then 1 else 2) else if len ≤ 8 then 1 else if len ≤ 16 then 2 else 3
      let fits := aEnd v g.ma g.maScale st tr ≤ 2 ^ 20
      let valid := fmValid v = true ∧ ¬OwnFmInvalid s f
      (reserved → exec i s = opFaults s 1) ∧ (¬reserved → ¬valid → exec i s = opFaults s 6) ∧
      (¬reserved → valid → ¬fits → exec i s = opFaults s 7) ∧
      (¬reserved → valid → fits → (curE s).cT = 255 → exec i s = .next s) ∧
      (¬reserved → valid → fits → (curE s).cT < 255 → GangReady s g → ∃ rows : List (Nat × Nat), rows.length = 256 ∧
        (∀ r, r < 256 → ∃ code hdr, rows[r]? = some (code, hdr) ∧ (tr = false → rowIs r code hdr) ∧
          (tr = true → ∀ k, k < 8 → code / 2 ^ (w * k) % 2 ^ w = pad s src (base + st * kstr + k * rstr) (32 * w) / 2 ^ (w * r) % 2 ^ w)) ∧
        exec i s = .next (mDone (modCurE (holdBanks (counted s) src (s.now + occ - 1) (aBanks v g.ma g.maScale st tr)) fun e =>
          { e with alatch := some { rows := rows, fm := v, start := st, transposed := tr }, tiles := e.tiles ++ [s.now + occ] })
            f.taga occ gang))
    reads (.mlda f) false ∧ reads (.mldat f) true

/-- R185, R186, R187: MACC's checks, its wait for a weight buffer and for T, and its issue with beat 0 on the array. -/
def Sys2Proof.Claims.MatrixAccumulateIssues : Prop :=
  ∀ (s : State) (f : MOp) (g : GangOp) (gang : State → State) (vb : BitVec 32), MMay s f true false → f.sel = 0 → f.bsrc ≠ 2 → f.bsrc ≠ 3 →
    fmRead s s.cur.core s.cur.info f.fb.toNat = some vb → Takes s f g gang →
    let e := curE s
    let prof := s.cur.info.prof
    let va := g.fma
    let mb := if 4 ≤ f.bsrc.toNat then rd e.ma f.bsrc.toNat 0 else 0
    let fromPad := 4 ≤ f.bsrc.toNat
    let l := bLayout vb
    let b := f.beats.toNat + 1
    let n := b / bPlanes vb
    let foreign (v : BitVec 32) : Prop := fmValid v = true ∧ (4 < fmFamily v ∨ (prof = 3 ∧ fmFamily v ≠ 0))
    let w := rd e.wb f.bsrc.toNat {}
    let reserved := maReserved (rd e.ma f.ma.toNat 0) ∨ maReserved g.ma ∨ maReserved mb ∨ foreign va ∨ foreign vb ∨
      (f.mode.getLsbD 0 = true ∧ prof ≠ 3) ∨ (fmValid va = true ∧ fmFamily va = 2 ∧ (f.ma.getLsbD 0 = true ∨ maReserved g.maScale))
    let unfit := (∀ x, e.alatch = some x → x.fm ≠ va) ∨ (¬fromPad ∧ w.group = none) ∨
      (fmValid vb = true ∧ fmFamily vb ≤ 4 ∧ (b % bPlanes vb ≠ 0 ∨ n % l.chunks ≠ 0))
    let invalid := fmValid va = false ∨ fmValid vb = false ∨ OwnFmInvalid s f
    let start := match e.alatch with | some x => x.start | none => 0
    let tr := match e.alatch with | some x => x.transposed | none => false
    let beyond := (1 < n ∧ 2 ^ 20 < aEnd va g.ma g.maScale (start + n - 1) tr) ∨
      (fromPad ∧ 2 ^ 20 < mb.toNat % 2 ^ 20 + 128 * (n * (l.side + l.planes) + n / l.chunks * l.hdr))
    let waits := (¬fromPad ∧ (if w.cursorHalf then w.full1 else w.full0) = false) ∨ e.cT = 255
    let run : MaccRun :=
      { f := f, info := s.cur.info, bits := s.cur.bits, fma := va, fmb := vb, start := start, transposed := tr, ma := g.ma, mb := mb,
        maScale := g.maScale, lead := e.ganged, beat := 0, next := s.now,
        aNow := match e.alatch with | some x => x.rows | none => [],
        aNext := [], hdr := [], blk := [], group := [], used := 0, mark := (0, false, 0) }
    let zeroed (e : Engine) : Engine := if f.mode.getLsbD 1 = true then setActive e (Vector.replicate 256 0) else e
    (reserved → exec (.macc f) s = opFaults s 1) ∧
    (¬reserved → unfit → exec (.macc f) s = opFaults s 2) ∧
    (¬reserved → ¬unfit → invalid → exec (.macc f) s = opFaults s 6) ∧
    (¬reserved → ¬unfit → ¬invalid → beyond → exec (.macc f) s = opFaults s 7) ∧
    (¬reserved → ¬unfit → ¬invalid → ¬beyond → waits → exec (.macc f) s = .next s) ∧
    (¬reserved → ¬unfit → ¬invalid → ¬beyond → ¬waits → e.cT < 255 → GangReady s g → exec (.macc f) s =
      .next (mDone (maccBeatOf (modCurE (counted s) fun e => { zeroed e with macc := some run }) s.cur.core run) f.taga 0 gang))

/-- R34 to R38, R185, R187, R195: the beats of a MACC. A beat that lacks its blocks waits; others move on by one; the last beat of a group adds
to every cell of the active bank the group's products, and the last of all frees the array, its cells final two cycles on. -/
def Sys2Proof.Claims.MatrixAccumulateBeats : Prop :=
  ∀ (s : State) (core : Nat) (r : MaccRun), core < 320 → (s.core core).e.macc = some r → rd s.powered (core / 160) false = true →
    (s.core core).stop = none → (s.core core).stallUntil ≤ s.now → (s.core core).restoring = false → (s.core core).task.isSome = true →
    r.next ≤ s.now → r.aNow.length = 256 → (∀ x, x ∈ r.group → x.a.length = 256) →
    let l := bLayout r.fmb
    let p := bPlanes r.fmb
    let t := r.beat / p
    let i := r.beat % p
    let n := (r.f.beats.toNat + 1) / p
    let e := (s.core core).e
    let need := beatBlocks l t i
    (readBlocks s core r need = none →
      exec (.maccBeat core) s = .next (s.modE core fun e => { e with macc := some { r with next := s.now + 1, halted := false } })) ∧
    (∀ s1 got, readBlocks s core r need = some (s1, got) →
      let heads := if i = 0 ∧ t % l.chunks = 0 then l.hdr else 0
      let x : Chunk := { t := t, a := r.aNow, hdr := if heads = 0 then r.hdr else got.take heads,
                         blk := (if i = 0 then [] else r.blk) ++ got.drop heads }
      let chunks := r.group ++ [x]
      let aElem (x : Chunk) (row k : Nat) : Option Machine.Num := match x.a[row]? with
        | some c => elemNum r.fma c.2 (8 * ((r.start + x.t) % aGroup r.fma) + k) (c.1 / 2 ^ (aWidth r.fma * k) % 2 ^ aWidth r.fma)
        | none => some .nan
      let bElem (x : Chunk) (col k : Nat) : Option Machine.Num :=
        elemNum r.fmb (bHdr x.hdr col) (8 * (x.t % l.chunks) + k) (bCode r.fmb x.blk col k)
      let reserved := ∃ j k, k < 8 ∧ (j < 256 ∧ aElem x j k = none ∨ j < 128 ∧ bElem x j k = none)
      let products (row col : Nat) : List Machine.Num := chunks.flatMap fun x => (List.range 8).map fun k =>
        mulNum ((aElem x row k).getD .nan) ((bElem x col k).getD .nan)
      let groupEnds := (if r.info.prof = 2 then 4 else 1) ≤ chunks.length ∨ n ≤ t + 1
      let cell (b : Vector V4096 256) (row col : Nat) : Nat := lane (rd b row 0).toNat 32 col
      let added (row col : Nat) : Nat :=
        let old := cell (activeBank e) row col
        if r.info.prof = 3 then accumulateInt old ((products row col).map numInt).sum (r.f.mode.getLsbD 0)
        else accumulate old (groupSum (if r.info.prof = 1 then 24 else 40) (products row col))
      ∃ s', exec (.maccBeat core) s = .next s' ∧ (s'.core core).e.ac1Active = e.ac1Active ∧ drainBank (s'.core core).e = drainBank e ∧
        (i + 1 < p → activeBank (s'.core core).e = activeBank e ∧ ∃ r', (s'.core core).e.macc = some r' ∧
          r'.beat = r.beat + 1 ∧ r'.next = s.now + 1 ∧ r'.used = r.used + 128 * got.length ∧ r'.group = r.group) ∧
        (p ≤ i + 1 → reserved → activeBank (s'.core core).e = activeBank e) ∧
        (p ≤ i + 1 → ¬reserved →
          (¬groupEnds → activeBank (s'.core core).e = activeBank e) ∧
          (groupEnds → ∀ row col, row < 256 → col < 128 →
            cell (activeBank (s'.core core).e) row col = added row col % 2 ^ 32) ∧
          (n ≤ t + 1 → (s'.core core).e.macc = none ∧ (s'.core core).e.accLands = s.now + 3 ∧ rd (s'.core core).e.unitFree 3 0 = s.now + 1) ∧
          (t + 1 < n → ∃ r', (s'.core core).e.macc = some r' ∧ r'.beat = r.beat + 1 ∧ r'.next = s.now + 1)))

/-- R189, R190, R191: the drains and MACCLD. A drain pushes a row a cycle, readable 4 cycles on, its cells converted and packed; a
full queue raises 0x01B with the row's index, and MACCLD writes a row of 512 bytes a cycle. Model's own choices: assumption 84. -/
def Obligations.MatrixDrains : Prop :=
  (∀ (s : State) (f : MOp), MMay s f false true → f.bsrc = 0 → f.fb = 0 →
    let e := curE s
    let starts (i : Instr) (kind : DrainKind) (v : BitVec 32) (ma : W64) (s' : State) : Prop :=
      let run : DrainRun := { kind := kind, f := f, info := s.cur.info, bits := s.cur.bits, fm := v, ma := ma, row := 0, next := s.now,
                              mask := e.rowMask }
      (e.cT = 255 → exec i s = .next s) ∧
      (e.cT < 255 → exec i s = .next (mDone (modCurE s' fun e => { e with drain := some run }) f.taga 0 id))
    let ma := rd e.ma f.ma.toNat 0
    let base := ma.toNat % 2 ^ 20
    let last := base + f.beats.toNat * (ma.toNat / 2 ^ 20 % 2 ^ 20) + 512
    (f.ma = 0 → f.beats = 0 → ∀ v, fmRead s s.cur.core s.cur.info f.fa.toNat = some v →
      let drains (i : Instr) (kind : DrainKind) : Prop :=
        (fmValid v = false → exec i s = opFaults s 6) ∧
        (fmValid v = true → fmFamily v = 1 ∨ fmFamily v = 2 → exec i s = opFaults s 1) ∧
        (fmValid v = true → fmFamily v ≠ 1 → fmFamily v ≠ 2 → starts i kind v 0 (counted s))
      (f.sel.toNat < 4 → drains (.mdrain f) .rows) ∧ drains (.mdrainc f) .columns) ∧
    (f.mode = 0 → f.fa = 0 → f.sel = 0 →
      (maReserved ma → exec (.maccld f) s = opFaults s 1) ∧
      (¬maReserved ma → 2 ^ 20 < last → exec (.maccld f) s = opFaults s 7) ∧
      (¬maReserved ma → last ≤ 2 ^ 20 →
        starts (.maccld f) .load 0 ma (holdBanks (counted s) s.cur.core s.now (banksOf base 512))))) ∧
  (∀ (s : State) (core : Nat) (r : DrainRun), core < 320 → (s.core core).e.drain = some r → streamRuns s core = true → r.next ≤ s.now →
    r.row < 256 →
    let e := (s.core core).e
    let q := r.f.sel.toNat % 4
    let w := drainWidth r.fm
    let sat := r.f.mode.getLsbD 1
    let conv (x : Nat) : Nat :=
      if r.f.mode.getLsbD 0 = true then
        let v := signedOf 32 x
        if fmFamily r.fm = 0 then toNarrow r.fm .rne sat (numOfInt v) (some v)
        else convertFloat (numOfInt v) (if fmFamily r.fm = 3 then fp8Fmt r.fm else if fmFamily r.fm = 4 then bf16
          else if fmFamily r.fm = 5 then fp16 else fp32) .rne sat
      else if fmFamily r.fm = 6 then x
      else if fmFamily r.fm = 0 then toNarrow r.fm .rne sat (decodeF fp32 x) none
      else convertFloat (decodeF fp32 x) (if fmFamily r.fm = 3 then fp8Fmt r.fm else if fmFamily r.fm = 4 then bf16 else fp16) .rne sat
    let cell (row col : Nat) : Nat := lane (rd (drainBank e) row 0).toNat 32 col
    let rows := match r.kind with | .rows => 256 | .columns => 128 | .load => r.f.beats.toNat + 1
    let moves (s' : State) : Prop :=
      (r.row + 1 < rows → (s'.core core).e.drain = some { r with row := r.row + 1, next := s.now + 1 }) ∧
      (rows ≤ r.row + 1 → (s'.core core).e.drain = none ∧ (s'.core core).e.drainFree = s.now + 1)
    ∃ s', exec (.drainRowPush core) s = .next s' ∧
      (r.kind = .rows → r.mask.getLsbD r.row = false → moves s' ∧ (s'.core core).e.landings = e.landings) ∧
      (r.kind ≠ .load → (r.kind = .rows → r.mask.getLsbD r.row = true) → fmFamily r.fm ≠ 1 → fmFamily r.fm ≠ 2 → fmFamily r.fm ≤ 6 →
        (64 ≤ rowsHeld e q → s' = opFault (s.modE core fun e => { e with drain := some { r with next := s.now + 1 } }) r.info r.bits .m core
          0x01B 0 (BitVec.ofNat 64 r.row) 0) ∧
        (rowsHeld e q < 64 → moves s' ∧ ∃ row : V4096, (s'.core core).e.landings = e.landings ++
            [{ at_ := s.now + 4, seq := s.now * 8 + 3, writes := [.oq q row], tag := none }] ∧
          (r.kind = .rows → ∀ j, j < 128 → lane row.toNat w j = conv (cell r.row j) % 2 ^ w) ∧
          (r.kind = .columns → ∀ j, j < 128 → lane row.toNat w j = conv (cell ((if r.f.sel.getLsbD 2 then 128 else 0) + j) r.row) % 2 ^ w))) ∧
      (r.kind = .load → moves s' ∧ ∀ col, col < 128 → lane (rd (drainBank (s'.core core).e) r.row 0).toNat 32 col =
        pad s core (r.ma.toNat % 2 ^ 20 + r.row * (r.ma.toNat / 2 ^ 20 % 2 ^ 20) + 4 * col) 4))

/-! ### The X slots: element accesses -/

namespace Sys2Proof.Claims

/-- The executing op raises the fault that its access checks found (R202), and has no other effect. -/
def accessFaults (s : State) (e : AErr) : Host.Outcome State Fault Refusal := .next (slotFault s e.cause e.addr e.det0 e.det1)

/-- A counted access of the executing op enters its core's list (R199). -/
def entered (s : State) (kind : AccKind) (ps : List Piece) (data : List Byte) (col : BitVec 3) (tag : Option (BitVec 3)) : State :=
  let acc : XAcc := { id := s.fresh, slot := s.cur.slot, kind := kind, pieces := ps, data := data, col := col, since := s.now,
                      tag := tag, info := s.cur.info, bits := s.cur.bits }
  modCurE (used s) fun e => { e with xacc := e.xacc ++ [acc] }

/-- One more counted load, and one more counted store (R68). -/
def oneL (s : State) : State := modCurE s fun e => { e with cL := e.cL + 1 }
def oneS (s : State) : State := modCurE s fun e => { e with cS := e.cS + 1 }

/-- A store whose checks have passed (R199, R200): it waits for a bank and for S; its banks are used in this cycle (R195), its scratchpad
bytes are written at the end of the cycle, and the others enter the list. -/
def Stores (s : State) (i : Instr) (taga : BitVec 4) (beats : Nat) (s1 : State) (ps : List Piece) (data : List Byte) (col : BitVec 3) : Prop :=
  let waits := bankHeld s1 ps = true ∨ (curE s1).cS = 255
  (waits → exec i s = .next s) ∧
  (bankHeld s1 ps = false → (curE s1).cS < 255 → exec i s = .next (issued (tagOnly (entered (storeAtEnd (useBanks (oneS s1) ps) ps data) .store
    (ps.filter fun p => !inScratch p) (otherBytes ps data) col none) (tagOf taga)) beats (tagOf taga)))

/-- The address of an XM op (R201): under RC the upper four bits of OFS hold the count (R204). -/
def xmPlace (s : State) (f : XMOp) (size : Nat) : W64 :=
  let o : W64 := if f.pol = 3 then (f.ofs.setWidth 16).signExtend 64 else f.ofs.signExtend 64
  sReg (curE s) f.base.toNat + o * BitVec.ofNat 64 size

/-- The read count of an RC access (R204). -/
def readCount (s : State) (f : XMOp) : Nat :=
  let n := f.ofs.toNat / 2 ^ 16
  if n = 0 then (sReg (curE s) (f.base.toNat + 1)).toNat % 16 else n

/-- The cache policy that POL names (R203). -/
def policy (s : State) (f : XMOp) : Pol :=
  if f.pol = 0 then .wb else if f.pol = 1 then .stream else if f.pol = 2 then .uc else .rc (readCount s f)

/-- The addresses of a strided op's 128 lanes (R201). -/
def strided (s : State) (f : XMOp) : List (W64 × Nat) :=
  (List.range 128).map fun i => (xmPlace s f 4 + BitVec.ofNat 64 i * sReg (curE s) (f.base.toNat + 1), 4)

/-- An op of the XR form at the head of its slot, with the fields zero that it leaves unused (R81). -/
def XrMay (s : State) (f : XROp) : Prop := SlotMay s f.tagw f.taga ∧ f.rsv = 0

/-- A reply reports the fault of an access kind (R202, R297, R307). -/
def replyFails (s : State) (core : Nat) (ctx : Ctx) (cls k : Nat) (va : W64) : State :=
  raise s core { src := 10, cause := BitVec.ofNat 9 (0x080 + 8 * cls + k), levelE := true, async := true, ctx := ctx, addr := va }

end Sys2Proof.Claims

/-- R64, R199 to R204: the loads. One that lies in the scratchpad lands 6 cycles on, and lost bytes there write no register and are
reported (R389); every other, and every strided one, is
counted in L and waits while L stands at 255. A read count of 0 raises operand out of range. Model's own choices: assumptions 7
and 28. -/
def Obligations.ElementLoads : Prop :=
  ∀ (s : State) (f : XMOp), SlotMay s f.tagw f.taga → f.col = 0 →
    let tag := tagOf f.taga
    let loads (i : Instr) (len align : Nat) (kind : AccKind) (write : Nat → RegWrite) : Prop :=
      let acc := access s (slotWho s 2) (xmPlace s f len) len align (policy s f)
      let counts := f.pol = 3 → readCount s f ≠ 0
      (¬counts → exec i s = opFaults s 2) ∧
      (counts → ∀ s1 e, acc = (s1, .bad e) → exec i s = accessFaults s e) ∧
      (counts → ∀ s1 ps, acc = (s1, .ok ps) →
        (bankHeld s1 ps = true → exec i s = .next s) ∧
        (bankHeld s1 ps = false → ps.all inScratch = true →
          (loadKind s1 s1.cur.core ps = none →
            exec i s = .next (landed (useBanks s1 ps) f.taga 6 1 [write (ofBytes (scratchBytes s1 ps))])) ∧
          (∀ k, loadKind s1 s1.cur.core ps = some k → exec i s =
            .next (landed (replyFails (useBanks s1 ps) s1.cur.core s1.cur.ctx 2 k (xmPlace s1 f len)) f.taga 6 1 []))) ∧
        (bankHeld s1 ps = false → ps.all inScratch = false →
          ((curE s1).cL = 255 → exec i s = .next s) ∧
          ((curE s1).cL < 255 → exec i s = .next (issued (entered (useBanks (oneL s1) ps) kind ps [] 0 tag) 1 tag))))
    ((f.pol = 3 → f.base = 63 → 2 ^ 16 ≤ f.ofs.toNat) →
      (f.reg.toNat < 32 → loads (.vld f) 512 64 (.loadV f.reg.toNat) fun v => .v f.reg.toNat (BitVec.ofNat 4096 v) (BitVec.allOnes 512)) ∧
      loads (.sld f) 8 8 (.loadS f.reg.toNat) fun v => .s f.reg.toNat (BitVec.ofNat 64 v)) ∧
    (f.reg.toNat < 32 → f.pol ≠ 3 → f.base ≠ 63 →
      let acc := accessAll s (slotWho s 2) 4 (policy s f) (strided s f)
      (∀ s1 e, acc = (s1, .bad e) → exec (.vlds f) s = accessFaults s e) ∧
      (∀ s1 ps, acc = (s1, .ok ps) →
        (bankHeld s1 ps = true ∨ (curE s1).cL = 255 → exec (.vlds f) s = .next s) ∧
        (bankHeld s1 ps = false → (curE s1).cL < 255 → exec (.vlds f) s =
          .next (issued (entered (useBanks (oneL s1) ps) (.loadV f.reg.toNat) ps (scratchBytes s1 ps) 0 tag) 4 tag))))

/-- R199 to R203, R205, R100: the stores, PREF, which an address that fails a check turns into nothing, and XNOP. Model's own
choices: assumption 7. -/
def Obligations.ElementStores : Prop :=
  (∀ (s : State) (f : XMOp), SlotMay s f.tagw f.taga →
    let tag := tagOf f.taga
    let v := (vReg (curE s) f.reg.toNat).toNat
    let stores (i : Instr) (beats : Nat) (acc : State × Acc) (data : List Byte) : Prop :=
      (∀ s1 e, acc = (s1, .bad e) → exec i s = accessFaults s e) ∧ (∀ s1 ps, acc = (s1, .ok ps) → Stores s i f.taga beats s1 ps data f.col)
    let at_ (len align : Nat) : State × Acc := access s (slotWho s 3) (xmPlace s f len) len align (policy s f)
    (f.pol ≠ 3 →
      (f.reg.toNat < 32 → stores (.vst f) 1 (at_ 512 64) (toBytes 512 v)) ∧
      stores (.sst f) 1 (at_ 8 8) (toBytes 8 (sReg (curE s) f.reg.toNat).toNat) ∧
      (f.reg.toNat < 32 → f.base ≠ 63 → stores (.vsts f) 4 (accessAll s (slotWho s 3) 4 (policy s f) (strided s f)) (toBytes 512 v))) ∧
    (f.reg = 0 → f.col = 0 → f.pol.toNat ≤ 1 →
      let acc := access s (slotWho s 2) (xmPlace s f 512) 512 1 .wb
      (∀ s1 e, acc = (s1, .bad e) → exec (.pref f) s = .next (leaves s f.taga)) ∧
      (∀ s1 ps, acc = (s1, .ok ps) → exec (.pref f) s = .next (issued (tagOnly
        (ps.foldl (fun t p => if f.pol = 0 then prefetchPiece t t.cur.core p else prefetchL2 t p) s1) tag) 1 tag)))) ∧
  (∀ (s : State) (f : XROp), XrMay s f → f.sc = 0 → f.q = 0 → f.tmo = 0 → f.fn = 0 → f.c = 0 → f.b = 0 → f.a = 0 →
    exec (.xnop f) s = .next (leaves s f.taga))

/-- R197, R200, R205, R214, R216, R217: INVL and WBL, AMO, which on the scratchpad is performed at its bank as it issues, GAPUSH and
SCPUSH under a true predicate; under a false one each takes its cycle and has no effect, but for SCPUSH's A = 31, which faults whatever
the predicate reads. Lost bytes of the scratchpad fault an AMO with its reply (R389), and a gather reads its scratchpad elements at issue
where other accesses leave their banks over (R195). Model's own choices: assumption 7. -/
def Obligations.LinesAtomicsGathers : Prop :=
  ∀ (s : State) (f : XROp), XrMay s f → f.tmo = 0 →
    let tag := tagOf f.taga
    let e := curE s
    let a := sReg e f.a.toNat
    let b := sReg e f.b.toNat
    let on := qReg e f.q.toNat = true
    let off (i : Instr) : Prop := qReg e f.q.toNat = false → exec i s = .next (leaves s f.taga)
    let space := a.toNat / 2 ^ 60
    let lines (i : Instr) (keep : Bool) : Prop :=
      let bad := b ≠ 0 ∧ (4 ≤ space ∨ space = 0 ∧ 2 ^ 56 < a.toNat + b.toNat)
      off i ∧ (on → bad → exec i s = .next (slotFault s 0x09A a 0 0)) ∧ (on → ¬bad → e.cS = 255 → exec i s = .next s) ∧
      (on → ¬bad → e.cS < 255 → exec i s = .next (issued (tagOnly (entered (oneS s) (.lines a (if space = 0 then b else 0) keep) [] [] 0 none)
        tag) 1 tag))
    let op := f.fn.toNat % 16
    let wide := f.fn.getLsbD 4
    let n := (sReg e f.fn.toNat).toNat
    let size := 2 ^ f.c.toNat
    let addrs := (List.range n).map fun i => (b + BitVec.ofNat 64 (lane (vReg e f.a.toNat).toNat 32 i), size)
    (f.sc = 0 → f.fn = 0 → f.c = 0 → lines (.invl f) false ∧ lines (.wbl f) true) ∧
    (op ≤ 10 → f.fn.toNat < 32 → off (.amo f) ∧
      (on → ∀ s1 x, amoAccess s s.cur.core op wide b none = (s1, .bad x) → exec (.amo f) s = accessFaults s x) ∧
      (on → ∀ s1 ps, amoAccess s s.cur.core op wide b none = (s1, .ok ps) →
        (bankHeld s1 ps = true ∨ (curE s1).cL = 255 → exec (.amo f) s = .next s) ∧
        (bankHeld s1 ps = false → (curE s1).cL < 255 →
          let t := entered (useBanks (oneL s1) ps) (.atomic (BitVec.ofNat 4 op) wide (sReg e f.c.toNat) a f.a.toNat) ps [] f.sc tag
          ((∀ p rest off, ps = p :: rest → p.loc ≠ .scratch off) → exec (.amo f) s = .next (issued t 1 tag)) ∧
          (∀ p rest off, ps = p :: rest → p.loc = .scratch off → (s1.core s.cur.core).endStores = [] →
            let len := if wide then 8 else 4
            let lost := placeKind s1 (some s1.cur.core) (.scratch off) len
            let marks (t : State) (f : XAcc → XAcc) : State :=
              modCurE t fun e => { e with xacc := e.xacc.map fun x => if x.id = s1.fresh then f { x with done := true } else x }
            let old := ofBytes (memRead (s1.core s.cur.core).scratch off len)
            let new := toBytes len (amoNew op (8 * len) old (sReg e f.c.toNat).toNat a.toNat)
            (lost = none → exec (.amo f) s = .next (issued (marks (t.modCore s.cur.core fun c =>
              { c with scratch := memWrite c.scratch off new }) fun x => { x with got := toBytes 8 old }) 1 tag)) ∧
            (∀ k, lost = some k → exec (.amo f) s = .next (issued (marks t fun x => { x with fails := some k }) 1 tag)))))) ∧
    (f.a.toNat < 32 → f.c.toNat ≤ 2 → f.sc = 0 → off (.gapush f) ∧ (on →
      (128 < n → exec (.gapush f) s = opFaults s 2) ∧ (n = 0 → exec (.gapush f) s = .next (issued (tagOnly s tag) 4 tag)) ∧
      (0 < n → n ≤ 128 → 512 < e.gq.length + n → exec (.gapush f) s = opFaults s 3) ∧
      (0 < n → n ≤ 128 → e.gq.length + n ≤ 512 →
        let acc := accessAll s (slotWhoBound s 2) size .wb addrs
        (∀ s1 x, acc = (s1, .bad x) → exec (.gapush f) s = accessFaults s x) ∧
        (∀ s1 ps, acc = (s1, .ok ps) → (curE s1).cL = 255 → exec (.gapush f) s = .next s) ∧
        (∀ s1 ps, acc = (s1, .ok ps) → (curE s1).cL < 255 → exec (.gapush f) s =
          .next (issued (modCurE (entered (oneL s1) (.gather size) ps
              (if leftOver (oneL s1) s1.cur.core (pieceBanks ps) = true then scratchBytes s1 ps else []) 0 tag) fun e =>
            { e with gq := e.gq ++ List.replicate n { acc := s1.fresh, size := size, val := none } }) 4 tag))))) ∧
    (f.a = 31 → f.c.toNat ≤ 2 → exec (.scpush f) s = opFaults s 2) ∧
    (f.a.toNat < 31 → f.c.toNat ≤ 2 → off (.scpush f) ∧ (on →
      (128 < n → exec (.scpush f) s = opFaults s 2) ∧
      (n = 0 → exec (.scpush f) s = .next (issued (tagOnly s tag) 4 tag)) ∧
      (0 < n → n ≤ 128 →
        let acc := accessAll s (slotWhoBound s 3) size .wb addrs
        (∀ s1 x, acc = (s1, .bad x) → exec (.scpush f) s = accessFaults s x) ∧
        (∀ s1 ps, acc = (s1, .ok ps) → Stores s (.scpush f) f.taga 4 s1 ps
          ((List.range n).flatMap fun i => toBytes size (lane (vReg (curE s1) (f.a.toNat + 1)).toNat 32 i)) f.sc))))

/-- R199, R200, R202, R214, R297: the completion of a counted access issued in an earlier cycle and behind no REL of its slot. It and the
older accesses of its slot, none of which waits for a line of a shadow arena (R338), are performed; a load or atomic writes its register, a store releases its S count, and a gather takes
its next element. A fault at the target (a denial, a lost flit, lost bytes) has no effect there and is reported asynchronously. An access
to another package leaves first, and completes with its reply (R370, R373, R374). -/
def Sys2Proof.Claims.CountedCompletions : Prop :=
  ∀ (s : State) (core id : Nat) (a : XAcc), core < 320 → (s.core core).e.xacc.find? (fun x => x.id = id) = some a → a.since < s.now →
    (∀ b ∈ (s.core core).e.bg, b.slot = some a.slot → b.id < a.id → ∀ ps sp, b.kind ≠ .rel ps sp) →
    accStarves s core a = false →
    let s1 := performUpTo s core a
    (departs s core a = true → ∀ i : Instr,
      i = .countedReply core id ∧ accClass a.kind ≠ 3 ∧ (∀ n, a.kind ≠ .gather n) ∨ i = .storePerformed core id ∧ accClass a.kind = 3 →
        exec i s = .next s1) ∧
    ∀ a', departs s core a = false → (s1.core core).e.xacc.find? (fun x => x.id = id) = some a' →
    let va := match a'.pieces with | p :: _ => p.va | [] => 0
    let reported (t : State) : State := match a'.fails with
      | none => t
      | some k =>
        let who : Who := { core := some core, bay := t.bayOn core, kind := accClass a'.kind, task := (t.core core).task }
        let read := if accClass a'.kind = 3 then t else a'.pieces.foldl (fun t p => dropRead t who k p.va p.len) t
        replyFails read core a'.info.ctx (accClass a'.kind) k va
    let dropped (t : State) : State := t.modE core fun e => { e with xacc := e.xacc.filter fun x => x.id ≠ id }
    let oneLess (t : State) : State := (dropped t).modE core fun e => { e with cL := e.cL - 1 }
    let v := ofBytes a'.got
    let replies (w : RegWrite) : Prop := exec (.countedReply core id) s =
      .next (reported (landSince (oneLess s1) core a'.slot a'.since 1 (if a'.fails = none then [w] else []) a'.tag))
    (∀ n, a.kind = .loadV n → a'.kind = .loadV n → replies (.v n (BitVec.ofNat 4096 v) (BitVec.allOnes 512))) ∧
    (∀ n, a.kind = .loadS n → a'.kind = .loadS n → replies (.s n (BitVec.ofNat 64 v))) ∧
    (∀ op wide x y d, a.kind = .atomic op wide x y d → a'.kind = a.kind → replies (.s d (BitVec.ofNat 64 v))) ∧
    (a.kind = .store ∨ (∃ x n keep, a.kind = .lines x n keep) → a'.kind = a.kind → exec (.storePerformed core id) s =
      .next (reported ((dropped s1).modE core fun e => { e with cS := e.cS - 1 }))) ∧
    (∀ size, a.kind = .gather size → a'.kind = a.kind → lateGather a = false → ∀ q g, (s1.core core).e.gq[q]? = some g → g.acc = id → g.val = none →
      (∀ j x, j < q → (s1.core core).e.gq[j]? = some x → x.acc = id → x.val ≠ none) →
      let k := ((s1.core core).e.gq.take q).countP fun x => x.acc == id
      let val : BitVec 32 := if a'.fails ≠ none then Config.lostElement s1.fresh
        else BitVec.ofNat 32 (ofBytes ((a'.got.drop (k * size)).take size))
      let t := (used s1).modE core fun e => { e with gq := e.gq.set q { g with val := some val } }
      let left := ∃ x ∈ (t.core core).e.gq, x.acc = id ∧ x.val = none
      (left → exec (.gatherElementArrival core id) s = .next t) ∧
      (¬left → exec (.gatherElementArrival core id) s = .next (reported (landSince (oneLess t) core a'.slot a'.since 1 [] a'.tag))))

/-- R199, R200, R203, R217, R370: performing an access at its target. One that meets a fault there, a denial or bytes that are lost, has no effect; a store writes its bytes, a load
returns the bytes at its places, and an atomic writes its new value and returns the old one. -/
def Sys2Proof.Claims.AccessesPerformed : Prop :=
  ∀ (s : State) (core : Nat) (a : XAcc), core < 320 → a.done = false →
    let task := (s.core core).task
    let marks (t : State) (f : XAcc → XAcc) : State :=
      t.modE core fun e => { e with xacc := e.xacc.map fun x => if x.id = a.id then f { x with done := true } else x }
    let loads := (∃ n, a.kind = .loadV n) ∨ (∃ n, a.kind = .loadS n) ∨ ∃ n, a.kind = .gather n
    let denied := ∃ p ∈ a.pieces, pieceDenied s p (accClass a.kind != 3) (accClass a.kind != 2) = true
    let sound := targetFault s core a = none
    (denied → targetFault s core a = some 4) ∧
    (∀ k, targetFault s core a = some k → performAcc s core a = marks s fun x => { x with fails := some k }) ∧
    (sound → a.kind = .store → performAcc s core a = marks (writePieces s (some core) true task a.col a.pieces a.data) id) ∧
    (sound → ∀ va n keep, a.kind = .lines va n keep → performAcc s core a = marks (treatSpan s core va.toNat n.toNat keep) id) ∧
    (sound → loads → ∀ s1 b, loadPieces s core task [] a.data a.pieces = (s1, b) →
      performAcc s core a = marks s1 fun x => { x with got := b }) ∧
    (sound → ∀ op wide x y d p ps, a.kind = .atomic op wide x y d → a.pieces = p :: ps → ∀ s1 old,
      amoPerform s core op.toNat wide p.va a.pieces x y = (s1, old) → performAcc s core a = marks s1 fun x => { x with got := toBytes 8 old.toNat })

/-! ### The X slots: copies, waits and synchronisation -/

namespace Sys2Proof.Claims

/-- A field of a channel program as a number (R147). -/
def pf (p : Vector W64 36) (n : Nat) : Nat := (rd p n 0).toNat

/-- What CPGO refuses (R206). -/
def ProgramBad (p : Vector W64 36) (phased : Prop) : Prop :=
  let row := pf p 0x22 / 4 % 2 ^ 17
  let gather := pf p 0x22 % 2 = 1
  let many (l : Nat) : Prop := l < 6 ∧ 1 < pf p (4 * l)
  let eave := pf p 0x1E / 4 % 4 ≠ 0
  (¬gather ∧ pf p 0x1A = 0) ∨ pf p 0x18 % 4 ≠ 0 ∨ pf p 0x19 % 4 ≠ 0 ∨
  (∃ l, many l ∧ (pf p (4 * l + 1) % 4 ≠ 0 ∨ pf p (4 * l + 2) % 4 ≠ 0)) ∨ pf p 0x1C % 4 ≠ 0 ∨
  (eave ∧ (pf p 0x18 % 2048 ≠ 0 ∨ pf p 0x1A % 2048 ≠ 0 ∨ ∃ l, l < 6 ∧ pf p (4 * l + 1) % 2048 ≠ 0)) ∨
  (gather ∧ (pf p 3 ≠ 0 ∨ row = 0 ∨ 65536 < row ∨ row % 4 ≠ 0 ∨ pf p 0x21 % (if pf p 0x22 / 2 % 2 = 1 then 4 else 2) ≠ 0)) ∨
  (pf p 0x1E / 16 % 2 = 0 ∧ phased)

/-- The condition of a waiting X op (R198), the state once it has acted and what it writes beside its predicate. -/
def waitOf (s : State) (core : Nat) (r : XRun) : Prop × State × List RegWrite :=
  let e := (s.core core).e
  let stores (cols : BitVec 8) (x : XAcc) : Prop := x ∈ e.xacc ∧ x.done = false ∧ x.since < r.since ∧ cols.getLsbD x.col.toNat = true ∧
    (x.kind = .store ∨ ∃ op w a b d, x.kind = .atomic op w a b d)
  match r.instr with
  | .cpdrain f =>
    let c := rd e.ch f.a.toNat {}
    (c.running = false ∧ ∀ x ∈ c.copies, ∀ g ∈ x.gran, g.2.2 = true, s, [])
  | .gdpop f =>
    let w := 8 * 2 ^ f.c.toNat
    let val (i : Nat) : Nat := match e.gq[i]? with | some g => (g.val.getD 0).toNat | none => 0
    (r.note ≤ e.gq.length ∧ (∀ x ∈ e.gq.take r.note, x.val.isSome = true), s.modE core fun e => { e with gq := e.gq.drop r.note },
      [.v f.a.toNat (ofLanes w r.note val) (laneMask w r.note fun _ => true)])
  | .fence f =>
    let cols : BitVec 8 := BitVec.ofNat 8 (f.fn.toNat % 4 * 64 + f.c.toNat)
    (∀ x, ¬stores cols x, toScope (f.sc == 4) (cleanColours s core cols), [])
  | .acq _ =>
    let older := e.xacc.filter fun a => a.slot = r.slot
    let s1 := older.foldl (fun s a => performAcc s core a) s
    let got := readPieces s1 (some core) false (s1.core core).task [] r.pieces
    ((∀ a ∈ older, a.done = false → accRoom s core a = true) ∧ (∀ b ∈ e.bg, b.slot = some r.slot → ∀ ps sp, b.kind ≠ .rel ps sp) ∧
      (ofBytes got.2 + 2 ^ 64 - r.note) % 2 ^ 64 < 2 ^ 63, treatSpans got.1 core false (boundSpans got.1 core (.latch r.arg)), [])
  | .publish _ =>
    let n := r.arg.toNat
    let p := rd s.pubs n {}
    let lo := p.vbase.toNat * 65536
    let inRange (x : Piece) : Prop := lo < x.va.toNat + x.len ∧ x.va.toNat < lo + p.nblk.toNat * 65536
    ((∀ x, stores (BitVec.allOnes 8) x → ∀ y ∈ x.pieces, ¬inRange y) ∧
      (∀ i, i < 8 → let c := rd e.ch i {}
        (rd c.run 0x20 0 = BitVec.ofNat 64 (256 + n) → c.running = false) ∧
        ∀ x ∈ c.copies, x.pubs = BitVec.ofNat 64 (256 + n) → ∀ g ∈ x.gran, g.2.2 = true),
      exchange (drainUpTo s core fun w => match w.loc with | .phys pa => inBackings p pa | _ => false) n, [])
  | .bwait _ =>
    let n := r.arg.toNat
    ((∃ k, e.barrec = some (n, k) ∧ k < (s.barrier n).phases) ∨
      ((∀ k, e.barrec ≠ some (n, k)) ∧ ∃ t, (s.barrier n).doneAt = some t ∧ r.since ≤ t), treatSpans s core false (boundSpans s core (.barrier n)), [])
  | _ => (False, s, [])

/-- A waiting op has passed its checks, `s1` being the state after them: it completes at once when its condition holds, polls once under
timeout code 0, and otherwise holds its unit (R198); issued in the cycle in which its core stops, it waits (R297). -/
def XWaits (s s1 : State) (f : XROp) (i : Instr) (arg : W64) (note : Nat) (ps : List Piece) : Prop :=
  let r : XRun := { instr := i, slot := s.cur.slot, info := s.cur.info, bits := s.cur.bits, since := s.now, arg := arg, note := note, pieces := ps }
  let w := waitOf s1 s.cur.core r
  let tag := tagOf f.taga
  let held := waitHeld s1 s.cur.core s.now = true
  (w.1 → ¬held → exec i s = .next (issued (land w.2.1 1 (.q f.q.toNat true :: w.2.2) tag) 1 tag)) ∧
  (¬w.1 → ¬held → f.tmo = 0 → exec i s = .next (issued (land s1 1 [.q f.q.toNat false] tag) 1 tag)) ∧
  (held ∨ (¬w.1 ∧ f.tmo ≠ 0) → exec i s =
    .next (issued (modCurE s1 fun e => { e with xrun := wr e.xrun (slotNum s.cur.slot - 4) (some r) }) 1 tag))

/-- Background work of the executing op: `cols` are the colours it waits for. -/
def backs (s : State) (kind : BgKind) (cols : BitVec 8) (sys : Bool) : State :=
  modCurE (used s) fun e => { e with bg := e.bg ++ [{ id := s.fresh, slot := some s.cur.slot, kind := kind, cols := cols, since := s.now,
                                                      sys := sys, ctx := s.cur.ctx }] }

end Sys2Proof.Claims

/-- R206, R212: CPGO checks and latches the program, waits while the channel runs or C stands at 255, and starts the run; CPSTOP
stops it; CPWP reads the write pointer or the out-of-bounds counter at latency 2. Model's own choices: assumption 49. -/
def Obligations.CopyChannelOps : Prop :=
  ∀ (s : State) (f : XROp), XrMay s f →
    let e := curE s
    let n := f.a.toNat
    let c := rd e.ch n {}
    let p0 := if f.b = 0 then c.prog else wr c.prog 0x18 (sReg e f.b.toNat)
    let p := if f.c = 0 then p0 else wr p0 0x19 (sReg e f.c.toNat)
    let t := sReg e f.fn.toNat
    let bad := ProgramBad p (f.fn ≠ 0)
    let on := qReg e f.q.toNat = true
    let latched : Chan :=
      { c with ctx := s.cur.ctx, run := p, runId := s.fresh, running := true, iter := 0, issued := 0, batch := [], wptr := 0, oob := 0, park := none,
               startAt := if pf p 0x1E / 16 % 2 = 1 ∧ s.now < t.toNat then some t else none, counting := c.counting ++ [s.fresh], lostAt := none }
    (f.tmo = 0 → n < 8 → f.sc = 0 →
      (qReg e f.q.toNat = false → exec (.cpgo f) s = .next (leaves s f.taga)) ∧
      (on → bad → exec (.cpgo f) s = opFaults s 2) ∧
      (on → ¬bad → c.running = true ∨ e.cC = 255 → exec (.cpgo f) s = .next s) ∧
      (on → ¬bad → c.running = false → e.cC < 255 → exec (.cpgo f) s =
        .next (leaves (modCurE (used s) fun e => { e with cC := e.cC + 1, ch := wr e.ch n latched }) f.taga)) ∧
      (f.b = 0 → f.c = 0 → f.fn = 0 → (¬on ∨ c.running = false → exec (.cpstop f) s = .next (leaves s f.taga)) ∧
        (on → c.running = true → exec (.cpstop f) s = .next (leaves (stopChan s s.cur.core n) f.taga)))) ∧
    (f.b = 0 → f.q = 0 → f.sc = 0 → f.tmo = 0 → f.c.toNat < 8 → f.fn.toNat ≤ 1 →
      exec (.cpwp f) s = .next (landed s f.taga 2 1 [.s n (rd e.ch f.c.toNat {}).wptr]) ∧
      exec (.cpwpOob f) s = .next (landed s f.taga 2 1 [.s n (rd e.ch f.c.toNat {}).oob]))

/-- R198, R212, R215, R219, R221, R222, R226: the checks of CPDRAIN, GDPOP, FENCE, ACQ, PUBLISH and BWAIT, after which each completes, polls
or waits. -/
def Sys2Proof.Claims.TransferWaits : Prop :=
  ∀ (s : State) (f : XROp), XrMay s f →
    let e := curE s
    let n := s.cur.core
    let v := sReg e f.b.toNat
    let cnt := (sReg e f.fn.toNat).toNat % 256
    let slot := rd s.pubs v.toNat {}
    let fault (i : Instr) (cause : BitVec 9) (addr : W64) : Prop := exec i s = .next (slotFault s cause addr 0 0)
    (f.a.toNat < 8 → f.b = 0 → f.c = 0 → f.fn = 0 → f.sc = 0 → XWaits s s f (.cpdrain f) 0 0 []) ∧
    (f.a.toNat < 32 → f.b = 0 → f.c.toNat ≤ 2 → f.sc = 0 →
      (cnt = 0 ∨ 128 < cnt → exec (.gdpop f) s = opFaults s 2) ∧
      (0 < cnt → cnt ≤ 128 → e.gq.length < cnt → exec (.gdpop f) s = opFaults s 4) ∧
      (0 < cnt → cnt ≤ 128 → cnt ≤ e.gq.length → XWaits s s f (.gdpop f) 0 cnt [])) ∧
    (f.a = 0 → f.b = 0 → f.fn.toNat < 4 → f.sc.toNat ≤ 4 → XWaits s s f (.fence f) 0 0 []) ∧
    (f.a = 0 → f.fn = 0 → f.sc = 0 →
      let acc := access s (slotWho s 2) v 8 64 .uc
      (v.toNat / 2 ^ 60 ≠ 0 → fault (.acq f) 0x092 v) ∧
      (v.toNat / 2 ^ 60 = 0 → ∀ s1 x, acc = (s1, .bad x) → exec (.acq f) s = accessFaults s x) ∧
      (v.toNat / 2 ^ 60 = 0 → ∀ s1 ps, acc = (s1, .ok ps) →
        let inside := (pubOf s1 (s1.bayOn n) v.toNat).isSome = true
        (inside → fault (.acq f) 0x108 v) ∧ (¬inside → ∀ k, readKind s1 (some s1.cur.core) ps = some k → fault (.acq f) (class2 2 k) v) ∧
        (¬inside → readKind s1 (some s1.cur.core) ps = none → XWaits s s1 f (.acq f) v (sReg e f.c.toNat).toNat ps))) ∧
    (f.a = 0 → f.c = 0 → f.fn = 0 → f.sc = 0 →
      (255 < v.toNat → exec (.publish f) s = opFaults s 2) ∧
      (v.toNat ≤ 255 → slot.en = false → fault (.publish f) 0x110 0) ∧
      (v.toNat ≤ 255 → slot.en = true → slot.bay.toNat ≠ s.bayOn n → fault (.publish f) 0x111 0) ∧
      (v.toNat ≤ 255 → slot.en = true → slot.bay.toNat = s.bayOn n → XWaits s s f (.publish f) v 0 []) ∧
      (4095 < v.toNat → exec (.bwait f) s = opFaults s 2) ∧
      (v.toNat ≤ 4095 → XWaits s s f (.bwait f) v 0 []))

/-- R198: a waiting X op completes, with Q true, in a cycle in which its condition holds, and ends with Q false once 2^(n + 4) cycles have
passed and it does not; timeout code 31 waits without limit. One that issued in the cycle in which its core stops goes on waiting while
it is stopped (R297). -/
def Sys2Proof.Claims.TransferWaitsEnd : Prop :=
  ∀ (s : State) (core : Nat) (slot : Slot) (r : XRun) (f : XROp), core < 320 → (slot = .x0 ∨ slot = .x1) →
    rd (s.core core).e.xrun (slotNum slot - 4) none = some r →
    (r.instr = .cpdrain f ∨ r.instr = .gdpop f ∨ r.instr = .fence f ∨ r.instr = .acq f ∨ r.instr = .publish f ∨ r.instr = .bwait f) →
    let w := waitOf s core r
    let late := f.tmo.toNat ≠ 31 ∧ (f.tmo = 0 ∨ r.since + 2 ^ (f.tmo.toNat + 4) ≤ s.now)
    let done (t : State) (b : Bool) (ws : List RegWrite) : State :=
      (landSince t core slot r.since 1 (.q f.q.toNat b :: ws) (tagOf f.taga)).modE core fun e =>
        { e with xrun := wr e.xrun (slotNum slot - 4) none, unitFree := wr e.unitFree (slotNum slot) (freedAt t core) }
    let held := waitHeld s core r.since = true
    (w.1 → ¬held → exec (.xWaitComplete core slot) s = .next (done w.2.1 true w.2.2) ∧ exec (.xWaitTimeout core slot) s = .next s) ∧
    (¬w.1 ∨ held → exec (.xWaitComplete core slot) s = .next s) ∧
    (¬w.1 → ¬held → late → exec (.xWaitTimeout core slot) s = .next (done s false [])) ∧
    (¬late ∨ held → exec (.xWaitTimeout core slot) s = .next s)

/-- R218, R220, R224, R225, R227: BIND, UNBIND, REL, BARR, BEXP, WSSUB and WSUNS at issue. A change of the binding table is seen
from the next cycle; REL, BARR and BEXP leave their work behind them, counted in S. Model's own choices: assumption 45. -/
def Obligations.BindingsAndReleases : Prop :=
  ∀ (s : State) (f : XROp), XrMay s f → f.tmo = 0 →
    let tag := tagOf f.taga
    let e := curE s
    let a := sReg e f.a.toNat
    let b := sReg e f.b.toNat
    let c := sReg e f.c.toNat
    let on := qReg e f.q.toNat = true
    let off (i : Instr) : Prop := qReg e f.q.toNat = false → exec i s = .next (leaves s f.taga)
    let isB := f.fn.getLsbD 0
    let obj (k : Bool) (v : W64) : BindObj := if k then .barrier v.toNat else .latch v
    let bind : Binding := { addr := a, len := b, obj := obj isB c, col := f.sc }
    let badSpan := b = 0 ∨ 2 ^ 56 ≤ b.toNat ∨ 2 ^ 56 < a.toNat + b.toNat ∨ 2 ^ 56 ≤ a.toNat
    let badObj := if isB = true then 4095 < c.toNat else 2 ^ 56 ≤ c.toNat ∨ c.toNat % 64 ≠ 0
    let pending := pendingBinds e
    let known := bind ∈ e.bindings ∨ ∃ l ∈ e.landings, RegWrite.bind bind ∈ l.writes
    let changes (w : RegWrite) : Host.Outcome State Fault Refusal := .next (issued (tagOnly (land s 1 [w] none) tag) 1 tag)
    let backWork (i : Instr) (s1 : State) (kind : BgKind) (cols : BitVec 8) (sys : Bool) : Prop :=
      ((curE s1).cS = 255 → exec i s = .next s) ∧
      ((curE s1).cS < 255 → exec i s = .next (leaves (backs (oneS s1) kind cols sys) f.taga))
    let barrier (i : Instr) (ok : Prop) (kind : BgKind) (cols : BitVec 8) : Prop :=
      off i ∧ (on → 4095 < b.toNat ∨ ¬ok → exec i s = opFaults s 2) ∧
      (on → b.toNat ≤ 4095 → ok → (s.barrier b.toNat).target = 0 → exec i s = .next (slotFault s 0x102 0 0 0)) ∧
      (on → b.toNat ≤ 4095 → ok → (s.barrier b.toNat).target ≠ 0 → backWork i s kind cols false)
    let buf := rd e.wb f.c.toNat {}
    let empty : WBuf := { buf with full0 := false, full1 := false }
    let fills (w : WBuf) : Host.Outcome State Fault Refusal := .next (leaves (modCurE s fun e => { e with wb := wr e.wb f.c.toNat w }) f.taga)
    (f.fn.toNat ≤ 1 → off (.bind f) ∧ (on → badSpan ∨ badObj → exec (.bind f) s = opFaults s 2) ∧
      (on → ¬badSpan → ¬badObj → 32 ≤ e.bindings.length + pending → ¬known → exec (.bind f) s = opFaults s 3) ∧
      (on → ¬badSpan → ¬badObj → (e.bindings.length + pending < 32 ∨ known) → exec (.bind f) s = changes (.bind bind))) ∧
    (f.sc = 0 → f.q = 0 → f.a = 0 → f.b = 0 →
      (f.fn.toNat ≤ 1 → exec (.unbind f) s = changes (.unbind (some (obj isB c)))) ∧
      (f.fn = 2 → f.c = 0 → exec (.unbind f) s = changes (.unbind none))) ∧
    (f.a = 0 → f.c = 0 → f.fn = 0 → f.sc.toNat ≤ 4 → off (.rel f) ∧ (on →
      let acc := access s (slotWho s 4) b 8 64 .uc
      (b.toNat / 2 ^ 60 ≠ 0 → exec (.rel f) s = .next (slotFault s 0x0A2 b 0 0)) ∧
      (b.toNat / 2 ^ 60 = 0 → ∀ s1 x, acc = (s1, .bad x) → exec (.rel f) s = accessFaults s x) ∧
      (b.toNat / 2 ^ 60 = 0 → ∀ s1 ps, acc = (s1, .ok ps) →
        let mine := (curE s1).bindings.filter fun x => x.obj = .latch b
        let cols : BitVec 8 := if mine = [] then BitVec.allOnes 8 else mine.foldl (fun m x => m ||| BitVec.ofNat 8 (2 ^ x.col.toNat)) 0
        ((pubOf s1 (s1.bayOn s.cur.core) b.toNat).isSome = true → exec (.rel f) s = .next (slotFault s 0x108 b 0 0)) ∧
        ((pubOf s1 (s1.bayOn s.cur.core) b.toNat).isSome = false →
          backWork (.rel f) s1 (.rel ps (mine.map fun x => (x.addr, x.len))) cols (f.sc == 4))))) ∧
    (f.a = 0 → f.fn.toNat < 4 → f.sc = 0 →
      barrier (.barr f) True (.arrive b.toNat none) (BitVec.ofNat 8 (f.fn.toNat % 4 * 64 + f.c.toNat))) ∧
    (f.a = 0 → f.fn = 0 → f.sc = 0 →
      barrier (.bexp f) (-(2 ^ 31 : Int) ≤ c.toInt ∧ c.toInt < 2 ^ 31) (.expect b.toNat c.toInt) 0) ∧
    (f.a = 0 → f.c.toNat ≤ 1 → f.fn = 0 → f.sc = 0 → off (.wssub f) ∧ (on →
      (127 < b.toNat ∨ buf.group ≠ none → exec (.wssub f) s = opFaults s 2) ∧
      (b.toNat ≤ 127 → buf.group = none → arrayFree s s.cur.core = false → exec (.wssub f) s = .next s) ∧
      (b.toNat ≤ 127 → buf.group = none → arrayFree s s.cur.core = true → exec (.wssub f) s =
        fills { empty with cursorHalf := false, cursorOff := 0, nextFill := false, group := some b.toNat }))) ∧
    (f.a = 0 → f.b = 0 → f.c.toNat ≤ 1 → f.fn = 0 → f.sc = 0 → (f.q ≠ 0 → exec (.wsuns f) s = opFaults s 1) ∧ (f.q = 0 →
      (arrayFree s s.cur.core = false → exec (.wsuns f) s = .next s) ∧
      (arrayFree s s.cur.core = true → exec (.wsuns f) s = fills (if buf.group = none then buf else { empty with group := none }))))

/-- R220, R223, R224, R225, R377, R378: the background work of REL, BARR, GBARR and BEXP, and the phases of Ridge barriers with their
trees. A phase flips PHASE, takes the held arrivals and tells the children whose arrivals it counted. -/
def Sys2Proof.Claims.BarrierEvents : Prop :=
  (∀ (s : State) (core id : Nat) (b : Bg), core < 320 → (s.core core).e.bg.find? (fun x => x.id = id) = some b →
    let e := (s.core core).e
    let dropped (t : State) : State := t.modE core fun e => { e with bg := e.bg.filter fun x => x.id ≠ id }
    let oneLess (t : State) : State := t.modE core fun e => { e with cS := e.cS - 1 }
    let faults (t : State) (ctx : Ctx) (cause : BitVec 9) : State :=
      raise t core { src := 11, cause := cause, levelE := true, async := true, ctx := ctx }
    let clear := ∀ x ∈ e.bg, x.slot = b.slot → x.id < b.id → ∀ ps sp, x.kind ≠ .rel ps sp
    let first (n : Nat) : Prop := ∀ x ∈ e.bg, x.id < b.id → x.slot = b.slot →
      (∀ g h m, x.kind = .arrive m g → b.kind = .arrive n h → g = h → m ≠ n) ∧ (∀ v h, x.kind = .expect n v → b.kind ≠ .arrive n h) ∧
      (∀ v w m, x.kind = .expect m w → b.kind = .expect n v → m ≠ n) ∧ (∀ v g m, x.kind = .arrive m g → b.kind = .expect n v → m ≠ n)
    (∀ ps sp, b.kind = .rel ps sp → b.away = true → exec (.relIncrement core id) s = .next (oneLess (dropped s))) ∧
    (∀ ps sp, b.kind = .rel ps sp → b.away = false → clear → b.since < s.now →
      let older := e.xacc.filter fun a => some a.slot = b.slot ∧ a.id < b.id
      (∀ a ∈ older, a.done = false → accRoom s core a = true) → amoRoom s core 0 ps = true →
      let s1 := older.foldl (fun s a => performAcc s core a) s
      (storesDone s1 core b.cols b.since = false → exec (.relIncrement core id) s = .next s1) ∧
      (storesDone s1 core b.cols b.since = true →
        let s2 := toScope b.sys (cleanColours (treatSpans s1 core true sp) core b.cols)
        let denied := ps.any (fun p => pieceDenied s2 p true true) = true
        let lost := (amoLost s2 core ps).isSome = true
        let far := shadowTask s2 (s2.core core).task = none ∧ (ps.findSome? (remoteOf s2)).isSome = true
        let va := match ps with | p :: _ => p.va | [] => 0
        (denied → exec (.relIncrement core id) s = .next (replyFails (oneLess (dropped s2)) core b.ctx 4 4 va)) ∧
        (¬denied → lost → exec (.relIncrement core id) s = .next (replyFails (oneLess (dropped s2)) core b.ctx 4 6 va)) ∧
        (¬denied → ¬lost → far → exec (.relIncrement core id) s = .next ((amoPerform s2 core 0 true va ps 1 0).1.modE core fun e =>
          { e with bg := e.bg.map fun x => if x.id = id then { x with away := true } else x })) ∧
        (¬denied → ¬lost → ¬far → exec (.relIncrement core id) s =
          .next (amoPerform (oneLess (dropped s2)) core 0 true va ps 1 0).1))) ∧
    (∀ n g, b.kind = .arrive n g → first n → storesDone s core b.cols b.since = true →
      let s1 := dropped (toScope ((s.barrier n).scope == 4) (cleanColours s core b.cols))
      let s2 := if g = none then oneLess s1 else s1
      let x := s2.barrier n
      let goesOn (x' : Barrier) (k : Nat) : Host.Outcome State Fault Refusal :=
        let t := s2.modBarrier n fun _ => x'
        .next (match g with
          | none => t.modE core fun e => { e with barrec := some (n, k) }
          | some ctx => t.modG core ctx fun c => { c with barrec := some (n, k) })
      let joins := x.arrived < x.target ∧ x.closed = false
      (joins → exec (.barrierArrival core id) s = goesOn { x with arrived := x.arrived + 1 } x.phases) ∧
      (¬joins → x.held < x.target → exec (.barrierArrival core id) s = goesOn { x with held := x.held + 1 } (x.phases + 1)) ∧
      (¬joins → x.target ≤ x.held → exec (.barrierArrival core id) s = .next (faults s2 (g.getD b.ctx) 0x101))) ∧
    (∀ n v, b.kind = .expect n v → first n → b.since < s.now →
      let s1 := oneLess (dropped s)
      let sum := (s1.barrier n).pend + v
      let fits := -(2 ^ 31 : Int) ≤ sum ∧ sum < 2 ^ 31
      (fits → exec (.barrierExpectationArrival core id) s = .next (s1.modBarrier n fun x => { x with pend := sum })) ∧
      (¬fits → exec (.barrierExpectationArrival core id) s = .next (faults s1 b.ctx 0x100)))) ∧
  (∀ (s : State) (n : Nat),
    let b := s.barrier n
    let due := b.target ≠ 0 ∧ b.arrived = b.target ∧ b.pend = 0 ∧ b.closed = false
    let self := s.regs.plkSelf.toNat
    let next : Barrier :=
      { b with arrived := min b.held b.target, held := b.held - min b.held b.target, phase := !b.phase, phases := b.phases + 1, doneAt := some s.now,
               closed := false, granted := false, children := b.heldChildren, heldChildren := [] }
    let completed : State := b.children.foldl (fun t c => if c.1 = self then t.modBarrier c.2 fun x => { x with granted := true }
      else sendSync t c.1 (.treeCompletion c.2)) (s.modBarrier n fun _ => next)
    let closed := s.modBarrier n fun b => { b with closed := true }
    (due → parentOf s n = none → exec (.barrierPhaseComplete n) s = .next completed) ∧
    (¬due ∨ parentOf s n ≠ none → exec (.barrierPhaseComplete n) s = .next s) ∧
    (∀ pkg p, due → parentOf s n = some (pkg, p) →
      (pkg ≠ self → exec (.barrierChildClose n) s = .next (sendSync closed pkg (.childArrival p n))) ∧
      (pkg = self → (closed.barrier p).arrived < (closed.barrier p).target → (closed.barrier p).closed = false →
        exec (.barrierChildClose n) s = .next (closed.modBarrier p fun x =>
          { x with arrived := x.arrived + 1, children := x.children ++ [(self, n)] }))) ∧
    (b.closed = true → (b.granted = true ∨ ∃ pkg p, parentOf s n = some (pkg, p) ∧ pkg ≠ self) →
      exec (.treeCompletionArrival n) s = .next completed) ∧
    (b.closed = false → exec (.treeCompletionArrival n) s = .next s))

/-- R5, R195, R207 to R211, R213, R225, R269, R376: the events of a copy channel: the batch of indices, the phased start, the next copy in
turn, one per class and cycle of the core's clock, with its places and fills, the delivery of a granule in order, to another package
with its acknowledgement, and the byte post. Each takes the scratchpad banks that other accesses leave over. -/
def Sys2Proof.Claims.CopyEvents : Prop :=
  (∀ (p : Vector W64 36) (k : Nat), k < runLength p →
    let cnt (l : Nat) : Nat := max 1 (pf p (4 * l))
    (∀ l, l < 6 → levelIndex p k l < cnt l) ∧
    k = ((((levelIndex p k 5 * cnt 4 + levelIndex p k 4) * cnt 3 + levelIndex p k 3) * cnt 2 + levelIndex p k 2) * cnt 1 +
      levelIndex p k 1) * cnt 0 + levelIndex p k 0) ∧
  (∀ (s : State) (core ch : Nat), core < 320 → ch < 8 →
    let e := (s.core core).e
    let c := rd e.ch ch {}
    let p := c.run
    let k := c.iter
    let len := copyLen p
    let cls := pf p 0x1E % 4
    let who (kind : Nat) : Who :=
      { core := some core, bay := s.bayOn core, kind := kind, task := (s.core core).task, chan := true, agent := some ch,
        fw := decide (c.ctx = .firmware) }
    let may := copiesRun s core = true ∧ copyDue c = true ∧ hasTurn e ch = true ∧ (rd e.copyTurn cls (7, 0)).2 ≤ s.now ∧
      rd s.clockEdge (core / 160) true = true ∧ leftOver s core (sourceBanks c) = true
    let i (l : Nat) : Int := levelIndex p k l
    let stride (n : Nat) : Int := (BitVec.ofNat 40 (pf p n)).toInt
    let gather := pf p 0x22 % 2 = 1
    let idx := match c.batch[k % 8]? with | some x => x | none => 0
    let outer : Int := i 1 * stride 5 + i 2 * stride 9 + i 3 * stride 13 + i 4 * stride 17 + i 5 * stride 21
    let src := rd p 0x18 0 + BitVec.ofInt 64 ((if gather then idx else i 0) * stride 1 + outer)
    let dst := rd p 0x19 0 + BitVec.ofInt 64 (i 0 * stride 2 + i 1 * stride 6 + i 2 * stride 10 + i 3 * stride 14 + i 4 * stride 18 + i 5 * stride 22)
    let allOut := if gather then pf p 0x23 ≠ 0 ∧ pf p 0x23 ≤ idx
      else ∃ l, 1 ≤ l ∧ l ≤ 5 ∧ pf p (4 * l + 3) ≠ 0 ∧ pf p (4 * l + 3) ≤ levelIndex p k l
    let esize := 2 ^ (pf p 0x1B % 4)
    let filled (g : Nat) : Prop := allOut ∨ (¬gather ∧ pf p 3 ≠ 0 ∧ pf p 3 ≤ (levelIndex p k 0 * len + 4 * g) / esize)
    (¬may → exec (.copyIssue core ch) s = .next s) ∧
    (may → len % 4 = 0 → ∀ n, n ≤ len / 4 → (∀ g, g < len / 4 → (filled g ↔ n ≤ g)) →
      let read := readSource s (who 5) (pf p 0x1E / 4 % 4) esize (stride 5) src (4 * n)
      (∀ s1 x, read = (s1, .inr x) → exec (.copyIssue core ch) s = .next (copyError s1 core ch x)) ∧
      (∀ s1 b, read = (s1, .inl b) →
        let places := destinations s1 (who 6) p dst (len / 4) 0
        (∀ s2 x, places = (s2, .inr x) → exec (.copyIssue core ch) s = .next (copyError s2 core ch x)) ∧
        (∀ s2 locs, places = (s2, .inl locs) → ∃ t, exec (.copyIssue core ch) s = .next t ∧
          let c' := rd (t.core core).e.ch ch {}
          c'.iter = k + 1 ∧ c'.issued = c.issued + len ∧ c'.running = decide (k + 1 < runLength p) ∧
          (∃ cp, c'.copies = c.copies ++ [cp] ∧ cp.run = c.runId ∧ cp.off = c.issued ∧ cp.gran.length = locs.length ∧ ∀ g l, locs[g]? = some l → cp.gran[g]? = some (l,
              if g < n then BitVec.ofNat 32 (ofBytes ((b.drop (4 * g)).take 4)) else (rd p 0x1D 0).setWidth 32, false))))) ∧
    (∀ t, c.startAt = some t → c.running = true → copiesRun s core = true →
      (s.now < t.toNat → exec (.cpgoPhasedStart core ch) s = .next s) ∧
      (t.toNat ≤ s.now → exec (.cpgoPhasedStart core ch) s =
        exec (.copyIssue core ch) (s.modE core fun e => { e with ch := wr e.ch ch { c with startAt := none } }))) ∧
    (copiesRun s core = true → c.running = true → gather → c.startAt = none → c.park = none → c.batch.length ≤ k % 8 →
      let w := if pf p 0x22 / 2 % 2 = 1 then 4 else 2
      let first := k / 8 * 8
      let n := min 8 (runLength p - first)
      leftOver s core (addrBanks (rd p 0x21 0 + BitVec.ofNat 64 (first * w)) (n * w)) = true →
      let read := agentRead s (who 5) (rd p 0x21 0 + BitVec.ofNat 64 (first * w)) (n * w) w
      (∀ s1 x, read = (s1, .inr x) → exec (.gatherIndexRead core ch) s = .next (copyError s1 core ch x)) ∧
      (∀ s1 b, read = (s1, .inl b) → exec (.gatherIndexRead core ch) s = .next (modChan s1 core ch fun c =>
        { c with batch := (List.range n).map fun j => ofBytes ((b.drop (j * w)).take w) }))) ∧
    (∀ id x n g, c.copies.find? (fun y => y.k = id) = some x → x.gran[n]? = some g →
      let here (h : Loc × BitVec 32 × Bool) : Bool := match h.1 with | .phys _ => false | _ => true
      let inTurn := here g = true → (∀ h ∈ x.gran.take n, here h = true → h.2.2 = true) ∧
        ∀ y ∈ c.copies, y.run = x.run → y.off < x.off → ∀ h ∈ y.gran, here h = true → h.2.2 = true
      let piece : Piece := { va := 0, loc := g.1, len := 4, pol := .uc, group := 0, sys := true }
      let room := here g = false → shadowRoom s (s.core core).task [{ piece with sys := false }] = true
      let s1 := writePiece s (some core) false (s.core core).task 0 piece (toBytes 4 g.2.1.toNat)
      let may := g.2.2 = false ∧ inTurn ∧ placeFree s core g.1 = true
      let far := shadowTask s (s.core core).task = none ∧ (remoteOf s piece).isSome = true
      let delivered (t : State) : State := settleChan (modChan t core ch fun c =>
        { c with copies := c.copies.map fun y => if y.k = id then { y with gran := y.gran.set n (g.1, g.2.1, true) } else y }) core ch
      (¬may → exec (.copyDelivery core ch id n) s = .next s) ∧
      (may → n ∈ x.away → exec (.copyDelivery core ch id n) s = .next (delivered s)) ∧
      (may → n ∉ x.away → ¬room → exec (.copyDelivery core ch id n) s = .next (starve s core)) ∧
      (may → n ∉ x.away → room → far → exec (.copyDelivery core ch id n) s = .next (modChan s1 core ch fun c =>
        { c with copies := c.copies.map fun y => if y.k = id then { y with away := n :: y.away } else y })) ∧
      (may → n ∉ x.away → room → ¬far → exec (.copyDelivery core ch id n) s = .next (delivered s1))) ∧
    (∀ id x pkg n, c.copies.find? (fun y => y.k = id) = some x → x.post = some (pkg, n) → (∀ g ∈ x.gran, g.2.2 = true) →
      let bytes := 4 * x.gran.length
      let s1 := modChan s core ch fun c => { c with copies := c.copies.filter fun y => y.k ≠ id }
      let left := (s1.barrier n).pend - bytes
      let here := pkg = s.regs.plkSelf.toNat
      let stops (cause : BitVec 9) : Prop := exec (.copyBytePost core ch id) s = .next (copyFault s1 core ch 11 cause 0 x.iter)
      (¬here → exec (.copyBytePost core ch id) s = .next (sendSync s1 pkg (.post n bytes))) ∧
      (here → (s1.barrier n).target = 0 → stops 0x102) ∧
      (here → (s1.barrier n).target ≠ 0 → -(2 ^ 31 : Int) ≤ left → left < 2 ^ 31 →
        exec (.copyBytePost core ch id) s = .next (s1.modBarrier n fun b => { b with pend := left })) ∧
      (here → (s1.barrier n).target ≠ 0 → (left < -(2 ^ 31 : Int) ∨ 2 ^ 31 ≤ left) → stops 0x100)))

/-! ### Fibre streams -/

namespace Sys2Proof.Claims

/-- A fibre op has issued in X0 or X1: an X0 op's streams are noted for the X1 op of the cycle (R235). -/
def fibreNoted (s : State) (names : List Nat) : State :=
  if s.cur.slot = .x0 then modCurE s fun e => { e with fIssued := (s.now, if e.fIssued.1 = s.now then names ++ e.fIssued.2 else names) } else s

/-- One that acts on its streams: what an op that a stop found in progress had read of them is read again. -/
def fibreTakes (s : State) (names : List Nat) : State := forgetRead (fibreNoted s names) names

/-- A fibre op at the head of its slot that no stop found in progress (R81, R247). -/
def FibreMay (s : State) (f : XROp) : Prop :=
  XrMay s f ∧ f.tmo = 0 ∧ ∀ o, (slotQ (curE s) s.cur.slot).head? = some o → o.again = none

/-- A memory-reading fibre op takes its unit and works on (R234); one that assembles pairs goes on from those that its stream's batch
register holds for it (R240, R315). -/
def fibreWorks (s s1 : State) (f : XROp) (i : Instr) (arg : W64) (note : Nat) (vec : V4096) (ps : List Piece) (pairs : Bool) :
    Host.Outcome State Fault Refusal :=
  let stream (n : Nat) : FStream := rd (curE s).f n {}
  let x := stream (f.a.toNat % 8)
  let r : XRun :=
    { instr := i, slot := s.cur.slot, info := s.cur.info, bits := s.cur.bits, since := s.now, arg := arg, note := note, pieces := ps, vec := vec,
      lane := if pairs then x.pend.toNat else 0, vals := if pairs then x.coord else 0, posA := if pairs then x.posA else 0,
      posB := if pairs then x.posB else 0, got := scratchBytes s1 ps,
      found := (fibreNames i).1.map fun n => (n, (stream n).popc, (stream n).pslot) }
  .next (issued (modCurE (useBanks s1 ps) fun e => { e with xrun := wr e.xrun (slotNum s.cur.slot - 4) (some r) }) 1 (tagOf f.taga))

end Sys2Proof.Claims

/-- R83, R234, R235, R237, R238, R242, R243: the twelve fibre ops at issue. A pair of equal streams, a wide operand or a bad access is
refused whether the op must wait for its streams or not, and a closed stream as soon as no op on that stream is in progress; a false
predicate leaves a gated op without effect; the others read their result, store their stream or take their unit. -/
def Sys2Proof.Claims.FibreOpsIssue : Prop :=
  ∀ (s : State) (f : XROp), FibreMay s f →
    let n := f.a.toNat % 8
    let m := f.a.toNat / 8
    let x (k : Nat) : FStream := rd (curE s).f k {}
    let sr (r : BitVec 6) : W64 := sReg (curE s) r.toNat
    let wide (r : BitVec 6) : Prop := 2 ^ 32 ≤ (sr r).toNat
    let op (i : Instr) (opc : Nat) (names open_ : List Nat) (gated pairBad early : Prop) (refused : Prop) (works : State → Prop) : Prop :=
      let on := gated → qReg (curE s) f.q.toNat = true
      let waits := fWait s names opc = true
      let closed := ∃ k ∈ open_, (x k).isOpen = false ∧ fBusy s [k] = false
      (pairBad → exec i s = opFaults s 2) ∧
      (¬pairBad → ¬on → waits → exec i s = .next s) ∧
      (¬pairBad → ¬on → ¬waits → exec i s = .next (leaves (fibreNoted s names) f.taga)) ∧
      (¬pairBad → on → closed → exec i s = opFaults s 2) ∧
      (¬pairBad → on → ¬closed → early → refused) ∧
      (¬pairBad → on → ¬closed → ¬early → waits → exec i s = .next s) ∧
      (¬pairBad → on → ¬closed → ¬early → ¬waits → works (fibreTakes s names))
    let plain (i : Instr) (opc : Nat) (names open_ : List Nat) (gated early : Prop) (works : State → Prop) : Prop :=
      op i opc names open_ gated False early (exec i s = opFaults s 2) works
    let one := m = 0
    let runs (i : Instr) (arg : W64) (note : Nat) (vec : V4096) (pairs : Bool) (t : State) : Prop :=
      exec i s = fibreWorks s t f i arg note vec [] pairs
    let pair (i : Instr) (opc : Nat) : Prop :=
      op i opc [n, m] [n, m] True (n = m ∨ f.b = 31) False True (runs i 0 0 0 true)
    let state (i : Instr) (opc kind : Nat) (open_ : List Nat) (works : State → State → List Piece → Prop) : Prop :=
      let acc (t : State) : State × Acc := access t (slotWho t kind) (sr f.b) 64 64 .wb
      op i opc [n] open_ False False (∃ e, (acc s).2 = .bad e) (∀ s1 e, acc s = (s1, .bad e) → exec i s = accessFaults s e) fun t =>
        ∀ s1 ps, acc t = (s1, .ok ps) → works t s1 ps
    (f.sc = 0 →
      (one → f.fn.toNat < 4 → plain (.fopen f) 0x30 [n] [] True (wide f.c) (runs (.fopen f) (sr f.b) (sr f.c).toNat 0 false)) ∧
      (one → f.b = 0 → f.c = 0 → f.fn = 0 → plain (.fclose f) 0x31 [n] [] True False fun t =>
        exec (.fclose f) s = .next (leaves (modF t s.cur.core n fun x => { x with isOpen := false }) f.taga)) ∧
      (one → f.b.toNat < 32 → f.fn = 0 → plain (.fnext f) 0x32 [n] [n] True False (runs (.fnext f) 0 0 0 true)) ∧
      (f.b.toNat < 32 → f.fn = 0 → pair (.fint f) 0x33 ∧ pair (.funi f) 0x34) ∧
      (one → f.c = 0 → f.fn = 0 → plain (.fskip f) 0x35 [n] [n] True (wide f.b) (runs (.fskip f) (sr f.b) 0 0 false)) ∧
      (f.b = 0 → f.fn = 0 → plain (.fchild f) 0x36 [n, m] [n, m] True (wide f.c) (runs (.fchild f) 0 (sr f.c).toNat 0 false)) ∧
      (one → f.b = 0 → f.fn = 0 → f.q = 0 → plain (.fpos f) 0x37 [n] [n] False False fun t =>
        let y := x n
        let pos : BitVec 32 := if y.kind = 0 then y.vbase + y.cur else if y.kind = 1 then y.cur else if y.kind = 2 then y.vbase + y.run
          else y.ppos
        exec (.fpos f) s = .next (landed t f.taga 2 1 [.s f.c.toNat (BitVec.ofNat 64 (pos.toNat + if y.cur = y.endp then 2 ^ 63 else 0))])) ∧
      (one → f.b = 0 → f.c = 0 → f.fn = 0 → plain (.fend f) 0x3B [n] [n] False False fun t =>
        exec (.fend f) s = .next (landed t f.taga 1 1 [.q f.q.toNat (decide ((x n).cur = (x n).endp))])) ∧
      (one → f.b.toNat < 32 → f.c.toNat < 32 → plain (.fval f) 0x3A [n] [n] True (128 < (sReg (curE s) f.fn.toNat).toNat)
        (runs (.fval f) 0 (sReg (curE s) f.fn.toNat).toNat (vReg (curE s) f.c.toNat) false)) ∧
      (one → f.c = 0 → f.fn = 0 → f.q = 0 → state (.fload f) 0x39 2 [] fun _ s1 ps =>
        (bankHeld s1 ps = true → exec (.fload f) s = .next s) ∧
        (bankHeld s1 ps = false → exec (.fload f) s =
          fibreWorks s s1 f (.fload f) (sr f.b) (if ps.all inScratch then (loadKind s1 s.cur.core ps).getD 0 else 0) 0 ps false))) ∧
    (one → f.c = 0 → f.fn = 0 → f.q = 0 → state (.fsave f) 0x38 3 [n] fun _ s1 ps =>
      Stores s (.fsave f) f.taga 1 s1 ps (wordBytes (streamWords (x n))) f.sc)

namespace Sys2Proof.Claims

/-- The op in progress of stream `n` of a core, as its steps see the stream. -/
def streamOf (w : FWork) (core n : Nat) : FStream := rd (w.s.core core).e.f n {}

/-- A class-3 trap of a stream (R244): its kind, the address, CUR or another first detail word, and the second. -/
def traps (n kind : Nat) (addr det0 det1 : W64) : FErr := .trap n kind addr det0 det1

/-- The element at CUR consumed (R240): LAST and LV recorded, RUN counted for a B stream, CUR moved on. -/
def Took (x : FStream) (coord : Nat) : FStream :=
  { x with last := BitVec.ofNat 32 coord, lv := true, run := if x.kind = 2 then x.run + 1 else x.run, cur := x.cur + 1 }

/-- A pair in the next lane (R240). -/
def Paired (w : FWork) (x a b : Nat) : FWork :=
  { w with n := w.n + 1, co := setBits w.co (32 * w.n) 32 x, pa := setBits w.pa (32 * w.n) 32 a, pb := setBits w.pb (32 * w.n) 32 b }

/-- Stream `n` has its examined element consumed, so that it is no longer examined. -/
def takes (w : FWork) (core n coord : Nat) : FWork :=
  { w with s := modF w.s core n fun x => Took x coord, ex := w.ex.filter fun p => p.1 != n }

end Sys2Proof.Claims

/-- R231, R232, R240: the element at CUR of a stream not yet examined. D: the coordinate CUR at position VBASE + CUR, nothing read. C and S: the
entry of the coordinate array is read, a C coordinate below LAST (or equal to it, unless NU) has kind 0 and one not below the extent kind 1. B: the
bitmap word of CUR is read; the next set bit in it is the element, unless it is more than the stated count, kind 3. -/
def Sys2Proof.Claims.FibreExamination : Prop :=
  ∀ (w : FWork) (core n : Nat), core < 320 → n < 8 → w.ex.lookup n = none →
    let x := streamOf w core n
    let is (w1 : FWork) (e : Option (Nat × Nat)) : Prop := examine w core n = ({ w1 with ex := (n, e) :: w1.ex.filter fun p => p.1 != n }, none)
    let fails (w1 : FWork) (e : FErr) : Prop := examine w core n = (w1, some e)
    (x.kind = 0 → x.cur = x.endp → is w none) ∧
    (x.kind = 0 → x.cur ≠ x.endp → is w (some (x.cur.toNat, (x.vbase + x.cur).toNat))) ∧
    (x.kind = 1 ∨ x.kind = 3 → x.cur = x.endp → is w none) ∧
    (x.kind = 1 ∨ x.kind = 3 → x.cur ≠ x.endp →
      let z := if x.cw then 4 else 2
      let va : W64 := x.arr1 + BitVec.ofNat 64 (z * (if x.kind = 1 then x.cur else x.ppos).toNat)
      (∀ w1 e, fRead w core n va z = .bad w1 e → fails w1 e) ∧
      (∀ w1 c, fRead w core n va z = .ok w1 c →
        let unordered := x.kind = 1 ∧ x.lv = true ∧ (c < x.last.toNat ∨ (c = x.last.toNat ∧ x.nu = false))
        (unordered → fails w1 (traps n 0 va (x.cur.setWidth 64) (BitVec.ofNat 64 c))) ∧
        (¬unordered → x.extent.toNat ≤ c → fails w1 (traps n 1 va (x.cur.setWidth 64) (BitVec.ofNat 64 c))) ∧
        (¬unordered → c < x.extent.toNat → is w1 (some (c, (if x.kind = 1 then x.cur else x.ppos).toNat))))) ∧
    (x.kind = 2 → x.cur = x.endp →
      (x.run = x.stated → is w none) ∧
      (x.run ≠ x.stated →
        fails w (traps n 3 (x.arr1 + BitVec.ofNat 64 (8 * ((x.endp - 1).toNat / 64))) (x.endp.setWidth 64) (BitVec.ofNat 64 x.run.toNat)))) ∧
    (x.kind = 2 → x.cur ≠ x.endp → (∀ p ∈ w.words, p.1 ≠ n) →
      let va : W64 := x.arr1 + BitVec.ofNat 64 (8 * (x.cur.toNat / 64))
      (∀ w1 e, fRead w core n va 8 = .bad w1 e → fails w1 e) ∧
      (∀ w1 v j, fRead w core n va 8 = .ok w1 v → streamOf w1 core n = x →
        let lo := x.cur.toNat % 64
        lo + j < 64 → j < (x.endp - x.cur).toNat → v.testBit (lo + j) = true → (∀ i < j, v.testBit (lo + i) = false) →
        let b : BitVec 32 := x.cur + BitVec.ofNat 32 j
        let w2 : FWork := { w1 with words := (n, x.cur.toNat / 64, BitVec.ofNat 64 v) :: w1.words.filter fun p => p.1 != n }
        let w3 : FWork := { w2 with s := modF w2.s core n fun y => { y with cur := b } }
        (x.stated.toNat < x.run.toNat + 1 →
          fails w3 (traps n 3 va (b.setWidth 64) (BitVec.ofNat 64 (x.run.toNat + 1)))) ∧
        (x.run.toNat + 1 ≤ x.stated.toNat → b ≠ x.endp →
          is w3 (some ((b - x.ppos * x.extent).toNat, (x.vbase + x.run).toNat)))))

/-- R240, R241, R244: one step of FNEXT, FINT, FUNI, FSKIP and FVAL on examined elements, as the pseudocode has it, for streams of every kind: which
coordinates and positions go into the next lane, which streams consume their element, and when the op ends. An NU stream has kind 5 in
FINT, FUNI and FSKIP. -/
def Sys2Proof.Claims.FibreSteps : Prop :=
  ∀ (w : FWork) (core : Nat) (r : XRun) (f : XROp), core < 320 →
    let n := f.a.toNat % 8
    let m := f.a.toNat / 8
    let i := r.instr
    let no := 2 ^ 32 - 1
    let here (k : Nat) (e : Option (Nat × Nat)) : Prop := w.ex.lookup k = some e
    let step := fStep core r w
    let notUnique (k opc : Nat) : FStep :=
      let x := streamOf w core k
      .stop w (traps k 5 x.desc (BitVec.ofNat 64 opc) (BitVec.ofNat 64 (x.level.toNat + 16 * x.kind.toNat + 64)))
    (i = .fnext f →
      (128 ≤ w.n ∨ here n none → step = .done w) ∧
      (w.n < 128 → ∀ x p, here n (some (x, p)) → ∃ b, step = .more (takes (Paired w x p b) core n x))) ∧
    (i = .fint f ∨ i = .funi f → n ≠ m →
      let union := i = .funi f
      let opc := if i = .fint f then 0x33 else 0x34
      let fine := (streamOf w core n).nu = false ∧ (streamOf w core m).nu = false
      ((streamOf w core n).nu = true → step = notUnique n opc) ∧
      ((streamOf w core n).nu = false → (streamOf w core m).nu = true → step = notUnique m opc) ∧
      (fine → 128 ≤ w.n ∨ (here n none ∧ here m none) → step = .done w) ∧
      (fine → ¬union → ∀ e, (here n none ∧ here m (some e)) ∨ (here n (some e) ∧ here m none) → step = .done w) ∧
      (fine → w.n < 128 → union → ∀ x p, here n (some (x, p)) → here m none → step = .more (takes (Paired w x p no) core n x)) ∧
      (fine → w.n < 128 → union → ∀ y q, here n none → here m (some (y, q)) → step = .more (takes (Paired w y no q) core m y)) ∧
      (fine → w.n < 128 → ∀ x p y q, here n (some (x, p)) → here m (some (y, q)) →
        (x = y → step = .more (takes (takes (Paired w x p q) core n x) core m y)) ∧
        (x < y → union → step = .more (takes (Paired w x p no) core n x)) ∧
        (y < x → union → step = .more (takes (Paired w y no q) core m y)) ∧
        (x < y → ¬union → step = .more (takes w core n x)) ∧
        (y < x → ¬union → step = .more (takes w core m y)))) ∧
    (i = .fskip f →
      let y := streamOf w core n
      let t := r.arg.toNat
      (y.nu = true → step = notUnique n 0x35) ∧
      (y.nu = false → y.kind = 0 → y.cur.toNat ≤ y.extent.toNat →
        step = .done { w with s := modF w.s core n fun y =>
          if t ≤ y.cur.toNat ∨ y.cur = y.extent then y
          else { y with cur := BitVec.ofNat 32 (min t y.extent.toNat), last := BitVec.ofNat 32 (min t y.extent.toNat - 1), lv := true } }) ∧
      (y.nu = false → y.kind ≠ 0 → here n none → step = .done w) ∧
      (y.nu = false → y.kind ≠ 0 → ∀ x p, here n (some (x, p)) → step = if x < t then .more (takes w core n x) else .done w)) ∧
    (i = .fval f →
      let y := streamOf w core n
      let z := (if y.vfmt.toNat < 2 then 8 else if y.vfmt.toNat < 4 ∨ y.vfmt.toNat = 6 ∨ y.vfmt.toNat = 7 then 16 else 32) / 8
      let p := lane r.vec.toNat 32 w.n
      let va : W64 := y.values + BitVec.ofNat 64 (z * p)
      let put (w : FWork) (v : Nat) : FWork := { w with n := w.n + 1, co := setBits w.co (8 * z * w.n) (8 * z) v }
      (r.note ≤ w.n → step = .done w) ∧
      (w.n < r.note → y.vfmt.toNat ≤ 8 →
        (p = no → step = .more (put w 0)) ∧
        (p ≠ no → y.nval.toNat ≤ p → step = .stop w (traps n 1 va (BitVec.ofNat 64 w.n) (BitVec.ofNat 64 p))) ∧
        (p < y.nval.toNat → p ≠ no → ∀ w1 v, fRead w core n va z = .ok w1 v → step = .more (put w1 v)) ∧
        (p < y.nval.toNat → p ≠ no → ∀ w1 e, fRead w core n va z = .bad w1 e → step = .stop w1 e)))

/-- R229 to R231, R233, R239, R243, R244: opening a stream on a level under a parent position (FOPEN on the level it names, FCHILD on the level below
its parent's), and FLOAD of a stream's state. A good descriptor sets the stream as R239 lists; the descriptor's address, the level and the positions are
refused with kinds 4, 5, 1 and 2. FLOAD takes 64 bytes that FSAVE would store again, or leaves the stream closed. -/
def Sys2Proof.Claims.FibreOpenings : Prop :=
  ∀ (w : FWork) (core : Nat) (r : XRun) (f : XROp), core < 320 →
    let n := f.a.toNat % 8
    let par := streamOf w core (f.a.toNat / 8)
    let step := fStep core r w
    let b32 (v : Nat) : BitVec 32 := BitVec.ofNat 32 v
    let b64 (v : Nat) : W64 := BitVec.ofNat 64 v
    let child := r.instr = .fchild f
    (r.instr = .fopen f ∨ child →
      let opc := if child then 0x36 else 0x30
      let desc := if child then par.desc else r.arg
      let lvl := if child then par.level.toNat + 1 else f.fn.toNat % 4
      let p := r.note
      let badAddr := 4 ≤ desc.toNat / 2 ^ 60 ∨ desc.toNat % 32 ≠ 0
      (badAddr → step = .stop w (traps n 4 desc (b64 (2 ^ 64 - 1)) desc)) ∧
      (¬badAddr →
        (∀ w1 e, fRead w core n desc 32 = .bad w1 e → step = .stop w1 e) ∧
        (∀ w1 h, fRead w core n desc 32 = .ok w1 h →
          let rank := h % 8
          (rank = 0 ∨ 4 < rank → step = .stop w1 (traps n 4 desc 0 (b64 rank))) ∧
          (headerFieldBad h = none → rank ≤ lvl → step = .stop w1 (traps n 5 desc (b64 opc) (b64 lvl))) ∧
          (headerFieldBad h = none → lvl < rank →
            let at_ := desc + b64 (32 + 32 * lvl)
            (∀ w2 e, fRead w1 core n at_ 32 = .bad w2 e → step = .stop w2 e) ∧
            (∀ w2 e, fRead w1 core n at_ 32 = .ok w2 e →
              let kind := e % 4
              let ext := e / 2 ^ 32 % 2 ^ 32
              let arr2 : W64 := b64 (e / 2 ^ 128)
              let range := (lvl = 0 ∧ p ≠ 0) ∨ (kind = 0 ∧ 2 ^ 32 - 1 < p * ext + ext)
              e / 8 % 2 = 0 → entryFieldBad e lvl false = none →
              let opens (w : FWork) (lo hi : Nat) : Prop :=
                ∃ w', step = .done w' ∧
                  streamOf w' core n =
                    { streamOf w core n with
                      desc := desc, level := BitVec.ofNat 2 lvl, ppos := b32 p, kind := BitVec.ofNat 2 kind, nu := false
                      cw := decide (e / 4 % 2 = 1), vfmt := BitVec.ofNat 4 (h / 8), values := b64 (h / 2 ^ 64), nval := b32 (h / 2 ^ 128)
                      extent := b32 ext, arr1 := b64 (e / 2 ^ 64)
                      vbase := b32 (if kind = 0 then p * ext else if kind = 3 then p else lo)
                      cur := b32 (if kind = 1 then lo else if kind = 2 then p * ext else 0)
                      endp := b32 (if kind = 0 then ext else if kind = 1 then hi else if kind = 2 then (p + 1) * ext else 1)
                      stated := if kind = 2 then b32 (hi - lo) else 0
                      run := 0, last := 0, lv := false, pend := 0, popc := 0, pslot := false, parked := false, isOpen := true }
              (range → step = .stop w2 (traps n 1 at_ 0 (b64 p))) ∧
              (¬range → kind = 0 ∨ (kind = 3 ∧ (child → par.nu = false)) → opens w2 0 0) ∧
              (¬range → kind = 1 ∨ kind = 2 → ∀ w3 w4 lo hi, fRead w2 core n (arr2 + b64 (4 * p)) 4 = .ok w3 lo →
                fRead w3 core n (arr2 + b64 (4 * (p + 1))) 4 = .ok w4 hi →
                (hi < lo → step = .stop w4 (traps n 2 (arr2 + b64 (4 * (p + 1))) (b64 p) (b64 hi))) ∧
                (lo ≤ hi → opens w4 lo hi))))))) ∧
    (r.instr = .fload f →
      let (s1, b) := loadPieces w.s core (w.s.core core).task [] r.got r.pieces
      ∀ (words : List W64), words.length = 8 → b = wordBytes words →
        let field (k lo len : Nat) : Nat := (words.getD k 0).toNat / 2 ^ lo % 2 ^ len
        let refused := field 1 61 3 ≠ 0 ∨ 128 < field 1 40 8 ∨ (field 1 40 8 ≠ 0 ∧ (field 1 48 7 < 0x32 ∨ 0x34 < field 1 48 7)) ∨
          (field 1 36 1 = 1 ∧ field 2 32 32 < field 2 0 32)
        (refused → ∃ w' v, step = .stop w' (traps n 4 (words.getD 0 0) 0 v) ∧ (streamOf w' core n).isOpen = false) ∧
        (¬refused → ∃ w', step = .done w' ∧ streamWords (streamOf w' core n) = words ∧
          (streamOf w' core n).coord = (streamOf { w with s := s1 } core n).coord))

/-- R234, R240, R244, R245, R246: a memory-reading fibre op examines its elements and ends: with its results, with what it has and a trap, or parked on a
replayable fault; a load of a stream's state ends with the fault of its read. FNEXT on a D stream delivers, after the pairs it holds, up to 128
consecutive coordinates with their positions, reads nothing and moves CUR on. -/
def Sys2Proof.Claims.FibreOpsRun : Prop :=
  ∀ (s : State) (core : Nat) (slot : Slot) (r : XRun), core < 320 → (slot = .x0 ∨ slot = .x1) →
    rd (s.core core).e.xrun (slotNum slot - 4) none = some r → r.since < s.now → streamRuns s core = true →
    relPending (s.core core).e slot = false → slotStarves s core slot = false → isParked s core r = false →
    let s1 := performSlot s core slot
    let ends := runSteps core r (fibreFuel s1 core r) (startWork s1 r)
    let names := (fibreNames r.instr).1
    let load := ∃ f, r.instr = .fload f
    let lost : Option Nat := if r.got = [] then loadKind s1 core r.pieces else if r.note = 0 then none else some r.note
    let go := names ≠ [] ∧ (load → lost = none)
    let done := exec (.fibreOpComplete core slot) s
    (names = [] → done = .next s) ∧
    (load → ∀ k, lost = some k →
      done = .next (replyFault (finishFibre (startWork s1 r) core slot r) core r.info.ctx (class2 2 k) r.arg)) ∧
    (go → ∀ w, ends = .done w → done = .next (finishFibre w core slot r)) ∧
    (go → ∀ w n a, ends = .stop w (.access n a) → a.replayable = true → done = .next (parkFibre w core slot r n a)) ∧
    (go → (s1.core core).stop = none →
      (∀ w n a, ends = .stop w (.access n a) → a.replayable = false →
        done = .next (opFault (finishFibre w core slot r) r.info r.bits slot core a.cause a.addr a.det0 a.det1)) ∧
      (∀ w n k a d0 d1, ends = .stop w (.trap n k a d0 d1) →
        done = .next (opFault (finishFibre w core slot r) r.info r.bits slot core (BitVec.ofNat 9 (0x0C0 + 8 * n + k)) a d0 d1))) ∧
    (∀ f, r.instr = .fnext f → (∀ a ∈ (s.core core).e.xacc, a.slot ≠ slot) →
      let n := f.a.toNat % 8
      let x := rd (s.core core).e.f n {}
      x.kind = 0 → r.lane ≤ 128 → r.examined.lookup n = none →
      let p := r.lane
      let cnt := min 128 (p + (x.endp - x.cur).toNat)
      ∃ (co pa pb : V4096) (t : State), done = .next t ∧
        (t.core core).e.landings = (s.core core).e.landings ++ [Landing.mk (s.now + 1) (r.since * 8 + slotNum slot)
          [.batch n co pa pb, .v f.b.toNat pa (BitVec.ofNat 512 (2 ^ (4 * cnt) - 1)), .s f.c.toNat (BitVec.ofNat 64 cnt)] (tagOf f.taga)] ∧
        (∀ i, i < 128 → lane co.toNat 32 i = if i < p then lane r.vals.toNat 32 i
          else if i < cnt then (x.cur + BitVec.ofNat 32 (i - p)).toNat else 0xFFFFFFFF) ∧
        (∀ i, p ≤ i → i < cnt → lane pa.toNat 32 i = (x.vbase + x.cur + BitVec.ofNat 32 (i - p)).toNat) ∧
        (∀ i, i < 128 → lane pb.toNat 32 i = lane r.posB.toNat 32 i) ∧
        (let y := rd (t.core core).e.f n {}
         y.cur = x.cur + BitVec.ofNat 32 (cnt - p) ∧ y.pend = 0 ∧ y.isOpen = x.isOpen ∧
           (∀ c b, r.found.lookup n = some (c, b) → y.popc = c ∧ y.pslot = b) ∧
           (p < cnt → y.lv = true ∧ y.last = x.cur + BitVec.ofNat 32 (cnt - p - 1))) ∧
        t.mem = s.mem)

/-! ### The expander, results in flight, stops and replayable faults -/

namespace Sys2Proof.Claims

/-- A result comes before another in the order of their writes (R62): by its cycle, then by its issue. -/
def sooner (x y : Landing) : Prop := x.at_ < y.at_ ∨ (x.at_ = y.at_ ∧ x.seq ≤ y.seq)

/-- The results of a core that `due` selects are written in order, and leave the list. -/
def Lands (s : State) (core : Nat) (i : Instr) (due : Landing → Bool) : Prop :=
  let ls := (s.core core).e.landings
  ∃ order : List Landing, order.Perm (ls.filter due) ∧ order.Pairwise sooner ∧
    exec i s = .next (order.foldl (fun t l => applyLanding t core l.writes l.tag)
      (s.modE core fun e => { e with landings := ls.filter fun l => !due l }))

/-- A bundle's bits are placed in the queues of the slots it has ops for, to issue no earlier than three cycles on (R59, R60, R73). -/
def placed (s : State) (core : Nat) (b : BitVec 384) (e : EmitEntry) (t : State) : Prop :=
  ∀ sl, sl ∈ slots → slotQ (t.core core).e sl = slotQ (s.core core).e sl ++
    if b.getLsbD (4 + slotNum sl) then
      let sp := match sl with
        | .s => (32, 48) | .v0 => (80, 64) | .v1 => (144, 64) | .m => (208, 40) | .x0 => (248, 56) | .x1 => (304, 56)
      [{ bits := (b.extractLsb' sp.1 sp.2).setWidth 64, info := bundleInfo b e, notBefore := s.now + 3 }]
    else []

/-- The header and the immediate of a bundle, as a fault record gives them (R301). -/
def headerBits (b : BitVec 384) : W64 :=
  (b.extractLsb' 0 32).setWidth 64 ||| ((b.extractLsb' 360 24).setWidth 64 <<< 32)

/-- The entry at the head of its queue faults at expansion, at level E; one of the firmware context is given up. -/
def headFaults (t : State) (core : Nat) (e : EmitEntry) (src : Nat) (cause : BitVec 9) (bits : W64) : State :=
  raise (if e.ctx = .firmware then t.modE core fun x => { x with emitQ := dropEntry .firmware x.emitQ } else t) core
    { src := src, cause := cause, levelE := true, async := false, pv := true, ctx := e.ctx, gpc := e.gpc, index := e.index,
      opbits := bits, eseq := some e.eseq }

end Sys2Proof.Claims

/-- R57 to R60, R65, R73, R75, R85, R102: the expander takes the next entry, but holds one whose user bundle is 16 or more past the smallest position
or that needs a full queue: a literal or a cached bundle is patched, checked and placed; a miss is read 16 cycles on; a number past the
dictionary raises 0x03A, an unpublished profile 0x035, a reserved header 0x031 and a dictionary entry lost on its way 0x149, the entry going back to the
head of its queue, where a stream that has stopped meanwhile leaves it without the fault. The cache holds a bundle under its context, whose dictionary
it is of. Model's own choices: assumptions 97 (an entry of the firmware context that faults is given up), 108 and 109 (a bundle held back
is checked when the hold ends). -/
def Sys2Proof.Claims.BundlesExpand : Prop :=
  (∀ (b : BitVec 384) (e : EmitEntry) (i : Nat), i < 384 →
    let lane (k j : Nat) : Bool := (rd e.pval k 0).getLsbD j
    (patchBundle b e).getLsbD i =
      if 360 ≤ i ∧ e.pmask.getLsbD 0 = true then lane 0 (i - 360)
      else if 52 ≤ i ∧ i < 64 ∧ e.pmask.getLsbD 1 = true ∧ b.getLsbD 4 = true then lane 1 (i - 52)
      else if 267 ≤ i ∧ i < 287 ∧ e.pmask.getLsbD 2 = true ∧ b.getLsbD 8 = true then lane 2 (i - 267)
      else if 323 ≤ i ∧ i < 343 ∧ e.pmask.getLsbD 3 = true ∧ b.getLsbD 9 = true then lane 3 (i - 323)
      else b.getLsbD i) ∧
  (∀ (s : State) (core : Nat) (e : EmitEntry), core < 320 → expanderRuns s core = true → nextEntry (s.core core) = some e →
    let c := s.core core
    let i : Instr := .expandBundle core
    let taken := takeEntry s core e
    let held := e.ctx = .user ∧ ∃ sl ∈ slots, 16 ≤ (e.eseq - position c sl).toNat ∧ (e.eseq - position c sl).toNat < 2 ^ 31
    let expands (b0 : BitVec 384) (s1 : State) : Prop :=
      let b := patchBundle b0 e
      let back := s1.modE core fun x => { x with emitQ := e :: x.emitQ }
      let raises (cause : BitVec 9) : Prop := streamRuns s1 core = true → exec i s = .next (headFaults back core e 6 cause (headerBits b))
      (queueFull c b0 = true → exec i s = .next s) ∧
      (queueFull c b0 = false → 4 ≤ (b.extractLsb' 0 4).toNat → raises 0x035) ∧
      (queueFull c b0 = false → (b.extractLsb' 0 4).toNat < 4 → headerBad b = true → raises 0x031) ∧
      (queueFull c b0 = false → (b.extractLsb' 0 4).toNat < 4 → headerBad b = false →
        ∃ t, exec i s = .next t ∧ placed s1 core b e t ∧ (t.core core).e.emitQ = (s1.core core).e.emitQ)
    (held → exec i s = .next s) ∧
    (¬held → ∀ b0, e.lit = some b0 → expands b0 taken) ∧
    (¬held → e.lit = none → (dictOf c e.ctx).2 ≤ e.index.toNat → exec i s = .next (headFaults s core e 7 0x03A 0)) ∧
    (¬held → e.lit = none → e.index.toNat < (dictOf c e.ctx).2 →
      (∀ b0, c.dcache.lookup (e.ctx, e.index) = some b0 →
        expands b0 (takeEntry (s.modCore core fun c => { c with dcache := cachePut c.dcache (e.ctx, e.index) b0 }) core e)) ∧
      (c.dcache.lookup (e.ctx, e.index) = none →
        exec i s = .next (taken.modCore core fun c => { c with dmiss := some { entry := e, readyAt := s.now + 16 } })))) ∧
  (∀ (s : State) (core : Nat) (d : DictMiss), core < 320 → (s.core core).dmiss = some d →
    let b0 := readEntry (s.core core) d.entry
    let b := patchBundle b0 d.entry
    let fill := exec (.dictionaryMissFill core) s
    let filled := s.modCore core fun c => { c with dmiss := none, dcache := cachePut c.dcache (d.entry.ctx, d.entry.index) b0 }
    let gone := s.modCore core fun c => { c with dmiss := none }
    let due := d.readyAt ≤ s.now ∧ queueFull (s.core core) b0 = false
    let lost := (lostKind s (.loft core) ((dictOf (s.core core) d.entry.ctx).1 + 48 * d.entry.index.toNat) 48).isSome = true
    let back (t : State) : State := t.modE core fun x => { x with emitQ := d.entry :: x.emitQ }
    let bad (t : State) (src : Nat) (cause : BitVec 9) (bits : W64) : Prop :=
      fill = .next (if streamRuns s core then headFaults (back t) core d.entry src cause bits else back t)
    (¬due → fill = .next s) ∧
    (due → lost → bad gone 7 0x149 0) ∧
    (due → ¬lost → 4 ≤ (b.extractLsb' 0 4).toNat → bad filled 6 0x035 (headerBits b)) ∧
    (due → ¬lost → (b.extractLsb' 0 4).toNat < 4 → headerBad b = true → bad filled 6 0x031 (headerBits b)) ∧
    (due → ¬lost → (b.extractLsb' 0 4).toNat < 4 → headerBad b = false →
      ∃ t, fill = .next t ∧ placed filled core b d.entry t ∧ (t.core core).dmiss = none))

/-- R62, R63, R70, R299: results that become readable in the next cycle are written in the order of their cycles, then of their issue, and
clear their tags; those to feedback registers by FEEDBACK_WRITE, the others by EXPOSED_RESULT_LANDS, and those of the snapshot REM
cycles after resumption, until the core comes to the boundary of another stop. -/
def Sys2Proof.Claims.ResultsLand : Prop :=
  (∀ (s : State) (core : Nat), core < 320 →
    let due (l : Landing) : Bool := decide (l.at_ ≤ s.now + 1)
    let c := s.core core
    let ripe (x : SnapEntry) : Bool := decide ((c.stop.bind (·.at_)).isNone ∧ c.e.resumed + x.rem ≤ s.now + 1)
    Lands s core (.exposedResultLands core) (fun l => due l && !isFeedback l) ∧
    Lands s core (.feedbackWrite core) (fun l => due l && isFeedback l) ∧
    ∃ order : List Landing, order.Perm ((c.e.snapshot.filter ripe).map fun x => ⟨x.rem, x.seq, x.writes, x.tag⟩) ∧ order.Pairwise sooner ∧
      exec (.snapshotEntryLands core) s = .next (order.foldl (fun t l => applyLanding t core l.writes l.tag)
        (s.modE core fun e => { e with snapshot := c.e.snapshot.filter fun x => !ripe x }))) ∧
  (∀ (s : State) (n : Nat) (i j : Nat), n < 320 →
    let e := (s.core n).e
    let after (w : RegWrite) : Engine := ((applyWrite s n w).core n).e
    (∀ v, i < 64 → j < 64 → sReg (after (.s i v)) j = if j = i ∧ i ≠ 0 then v else sReg e j) ∧
    (∀ b, i < 16 → j < 16 → qReg (after (.q i b)) j = if j = i ∧ i ≠ 0 then b else qReg e j) ∧
    (∀ val sel k, i < 32 → j < 32 → k < 512 → (vReg (after (.v i val sel)) j).extractLsb' (8 * k) 8 =
      if j = i ∧ sel.getLsbD k = true then val.extractLsb' (8 * k) 8 else (vReg e j).extractLsb' (8 * k) 8) ∧
    (∀ val sel k, i < 32 → j < 32 → k < 4096 → (vReg (after (.vbits i val sel)) j).getLsbD k =
      if j = i ∧ sel.getLsbD k = true then val.getLsbD k else (vReg e j).getLsbD k) ∧
    (∀ val sel k, i < 8 → j < 8 → k < 512 → (mReg (after (.m i val sel)) j).getLsbD k =
      if j = i ∧ i ≠ 0 ∧ sel.getLsbD k = true then val.getLsbD k else (mReg e j).getLsbD k))

/-- R295, R298, R301, R302, R305, R306, R333, R334, R337: the stop boundary. A core with no op between beats stands still with its
results in flight kept, once Cask copies that its task has begun are done; a fault enters the declared handler, with the pc of the
instruction that faulted, or of the next one, in hg2, the cause in hg1 and the record's line in hg0, or
faults the task; a kill, or the abort of its run, ends it by the strongest that is due, and a pre-emption saves it. The first fault of a running core stops it. Model's own choices:
assumptions 18 and 23. -/
def Obligations.StopBoundary : Prop :=
  (∀ (s : State) (n : Nat) (fi : FaultInfo), n < 320 → fi.ctx = .user → (s.core n).stop = none →
    ((raise s n fi).core n).stop = some { b := s.now, why := .fault, faults := [{ fi with stamp := BitVec.ofNat 64 s.now }] }) ∧
  (∀ (s : State) (n : Nat) (fi : FaultInfo), fi.src < 16 → ∃ w0 w1 w2 w5 : W64,
    recordWords s n fi = [w0, w1, w2, fi.opbits, fi.addr, w5, fi.det0, fi.det1] ∧ w0.extractLsb' 0 9 = fi.cause ∧
    w0.getLsbD 9 = fi.levelE ∧ w0.getLsbD 10 = fi.async ∧ w0.getLsbD 11 = fi.hm ∧ (w0.extractLsb' 12 4).toNat = fi.src ∧
    (w0.extractLsb' 16 12).toNat = s.bayOn n % 4096 ∧ w2.getLsbD 63 = fi.pv ∧ w5.extractLsb' 0 60 = fi.stamp.extractLsb' 0 60) ∧
  (∀ (s : State) (n : Nat) (t : Task) (st : Stop), n < 320 → s.taskOn n = some t → isRetiring t = false → (s.core n).stop = some st →
    st.reached = false → st.at_ = none →
    let s0 := standStill s n st
    let s1 := s0.modCore n fun c => { c with stop := some { st with reached := true, at_ := some s.now } }
    let u := (s.core n).e.user
    let copying := (s.core n).caskJob.any fun j => j.ctx == .user
    let own : List KillHow := (if t.aborted then [.again] else []) ++ match st.why with | .kill how => [how] | _ => []
    let kills := own ++ match (s1.core n).stopNext with | some (.kill how) => [how] | _ => []
    (s.now ≤ st.b ∨ betweenBeats (s.core n).e = true ∨ copying = true → exec (.stopBoundary n) s = .next s) ∧
    (st.b < s.now → betweenBeats (s.core n).e = false → copying = false →
      (own ≠ [] → ∀ how ∈ kills, (∀ h ∈ kills, strongest how h = how) → exec (.stopBoundary n) s =
        .next ((stopChannels s1 n).modTask t.id fun t => { t with stat := .retiring (leaveOf how) })) ∧
      (∀ waits, own = [] → st.why = .save waits → exec (.stopBoundary n) s = .next (s1.modTask t.id fun t =>
        { t with stat := .saving, waitFor := if waits then u.wait.map (·.instr) else t.waitFor })) ∧
      (∀ fi rest, own = [] → st.why = .fault → st.faults = fi :: rest →
        (u.handler = true ∨ fi.hm = true → exec (.stopBoundary n) s = .next (endFaulted s1 n t fi)) ∧
        (u.handler = false → fi.hm = false →
          let line := recordLine s1 (s1.bayOn n) n
          let acc := access s1 { core := some n, bay := s1.bayOn n, kind := 6 } line 64 64 .uc
          (∀ s2 x, acc = (s2, .bad x) → exec (.stopBoundary n) s = .next (endFaulted s2 n t fi)) ∧
          (∀ s2 ps, acc = (s2, .ok ps) →
            let clean := ps.foldl (fun s p => match p.loc with | .phys pa => flushLine s n (pa / 128) | _ => s) s2
            let s3 := writePieces clean (some n) false none 0 ps (wordBytes (recordWords clean n fi))
            (u.hbase = 0 → exec (.stopBoundary n) s = .next (endFaulted s3 n t fi)) ∧
            (u.hbase ≠ 0 → ∃ t', exec (.stopBoundary n) s = .next t' ∧ t'.mem = s3.mem ∧ (t'.core n).stop = (s3.core n).stop ∧
              (t'.core n).e.user.handler = true ∧ (t'.core n).e.user.pc = u.hbase ∧
              (t'.core n).e.user.hg = #v[line, fi.cause.setWidth 64, (if fi.levelE then u.pc else fi.gpc).setWidth 64, 0]))))))

/-- R264, R269, R270, R380, R381: a parked agent appends its record and takes a token, or is refused at once where the queue is
off or no replay is possible; the driver's verdict on a token makes its agent translate again, its pages ahead too, or stops it; enabling the queue
starts its count and tokens at 0; a page walk holds what it finds, and a fault on a page ahead of a stream's cursor is kept for it. Model's own choices: assumptions 66 and 79. -/
def Obligations.ReplayableFaults : Prop :=
  (∀ (s : State) (core : Nat) (agent : Agent) (n : Nat) (cause : BitVec 9) (addr detail : W64) (rp : Bool),
    parkOf s core agent n = some (.wanting cause addr detail rp) →
    let parks := exec (.replayableFaultPark core agent n) s
    let refused (s1 : State) : Host.Outcome State Fault Refusal := .next (refuseAgent (setPark s1 core agent n none) core agent n cause addr)
    let on := s.fq.w0.getLsbD 63 = true
    let size := 2 ^ ((s.fq.w0.extractLsb' 48 4).toNat + 6)
    (¬on → parks = refused s) ∧ (on → size ≤ s.fq.open_.length → parks = .next s) ∧
    (on → s.fq.open_.length < size → ∀ s1 tok, fqAppend s core agent n cause addr detail (!rp) = (s1, tok) →
      s1.fq.count = s.fq.count + 1 ∧ (∀ r ∈ s.fq.open_, r.token ≠ tok) ∧ tok < 2 ^ 25) ∧
    (on → s.fq.open_.length < size → ∀ s1 tok, fqAppend s core agent n cause addr detail (!rp) = (s1, tok) →
      parks = if rp then .next (setPark s1 core agent n (some (.token tok cause addr))) else refused s1)) ∧
  (∀ (s : State) (tok : Nat) (r : FqRec) (cause : BitVec 9) (addr : W64), s.fq.open_.find? (fun x => x.token == tok) = some r →
    r.refused = false →
    let s1 : State := { s with fq := { s.fq with open_ := s.fq.open_.filter fun x => x.token != tok } }
    parkOf s1 r.core r.agent r.n = some (.token tok cause addr) →
      let s2 := setPark s1 r.core r.agent r.n none
      exec (.fqVerdictReplay tok) s = .next (match r.agent with
        | .fibreStream => modF (forgetAhead s2 r.core) r.core r.n fun f => { f with parked := false }
        | .copyChannel => forgetAhead s2 r.core
        | .spargeChannel => s2) ∧
      exec (.fqVerdictRefuse tok) s = .next (refuseAgent s2 r.core r.agent r.n cause addr)) ∧
  (∀ (s : State) (tok : Nat), (∀ x ∈ s.fq.open_, x.token ≠ tok) →
    exec (.fqVerdictReplay tok) s = .next s ∧ exec (.fqVerdictRefuse tok) s = .next s) ∧
  (∀ (s : State) (w0 w1 : W64), w0.getLsbD 63 = true →
    (s.fq.w0.getLsbD 63 = true → exec (.fqEnable w0 w1) s = .next s) ∧
    (s.fq.w0.getLsbD 63 = false → ∃ q, exec (.fqEnable w0 w1) s = .next { s with fq := q } ∧ q.count = 0 ∧ q.nextToken = 0 ∧
      q.open_ = s.fq.open_ ∧ q.w0 = w0 &&& 0x800FFFFFFFFFFFFF ∧ q.w1 = w1 &&& 0xFFFFFFFFFFC0)) ∧
  (∀ (s : State) (core : Nat) (va : W64),
    (2 ^ 56 ≤ va.toNat → exec (.pageWalk core va) s = .next s) ∧
    (va.toNat < 2 ^ 56 → exec (.pageWalk core va) s =
      .next (streamsAhead (channelsAhead (translate s (some core) (s.bayOn core) va.toNat).1 core va.toNat) core va.toNat)))

/-! ### Dispatch, pre-emption and retirement -/

namespace Sys2Proof.Claims

/-- A task could start on a die: it is ready, its bay holds fewer cores than its CMAX, and it has a place there (R328; for a gang
the model's reading, assumption 63). -/
def Fits (s : State) (die : Nat) (t : Task) : Prop :=
  t ∈ s.tasks ∧ isReady s t = true ∧ coresHeld s t.bay < (s.effNow t.bay).cmax.toNat ∧ (placeFor s die t).isSome = true

/-- How far the search for a bay goes from the one after `last` (R328). -/
def turn (last : Nat) (b : Bay) : Nat := (b.bay + 8191 - last) % 4096

end Sys2Proof.Claims

/-- R5, R328: the dispatcher's choice, at an edge of its die's clock while the package is not to power down: the bays of the highest level with a task that fits on the die, of these the first with credit
after the one last served, and of its tasks that fit the one of the lowest step and index; bays of the level whose credits are all 0
start again at their weights, the credit falls by one, and the die places nothing more in the cycle. -/
def Sys2Proof.Claims.Dispatches : Prop :=
  (∀ (s : State) (die : Nat) (bs : List Bay) (lev : Nat) (b : Bay) (t : Task) (cores : List Nat), die < 2 →
    s.shutdown = none → rd s.placed die 0 ≤ s.now → rd s.clockEdge die true = true →
    (die = 0 ∨ s.now < rd s.placed 0 0 ∨ rd s.clockEdge 0 true = false ∨ dispatchOne s 0 = none) →
    topBays s die = (bs, lev) → bs ≠ [] →
    let s1 := if bs.all (fun b => b.credit == 0) then
        bs.foldl (fun s b => s.modBay b.bay fun x => { x with credit := (s.effNow b.bay).weight.toNat }) s else s
    nextBay (rd s1.lastServed lev 0) (s1.bays.filter fun b => bs.any fun x => x.bay == b.bay) = some b →
    firstFit s1 die b.bay = some (t, cores) →
    let s2 := s1.modBay b.bay fun x => { x with credit := x.credit - 1 }
    let s3 := placeTask { s2 with lastServed := wr s2.lastServed lev b.bay } t cores
    exec (.dispatch die) s = .next { s3 with placed := wr s3.placed die (s.now + 1) }) ∧
  (∀ (s : State) (die : Nat), s.shutdown.isSome = true ∨ 2 ≤ die ∨ s.now < rd s.placed die 0 ∨ rd s.clockEdge die true = false →
    exec (.dispatch die) s = .next s) ∧
  (∀ (s : State) (die : Nat) (bs : List Bay) (lev : Nat), topBays s die = (bs, lev) →
    ∀ b, b ∈ bs ↔ b ∈ s.bays ∧ (firstFit s die b.bay).isSome = true ∧ levelOf s b.bay = lev ∧
      ∀ c ∈ s.bays, (firstFit s die c.bay).isSome = true → levelOf s c.bay ≤ lev) ∧
  (∀ (last : Nat) (bs : List Bay) (b : Bay), nextBay last bs = some b →
    b ∈ bs ∧ b.credit ≠ 0 ∧ ∀ c ∈ bs, c.credit ≠ 0 → turn last b ≤ turn last c) ∧
  (∀ (s : State) (die bay : Nat) (t : Task) (cores : List Nat), firstFit s die bay = some (t, cores) →
    t.bay = bay ∧ Fits s die t ∧ placeFor s die t = some cores ∧
      ∀ u, u.bay = bay → Fits s die u → t.step < u.step ∨ (t.step = u.step ∧ t.index ≤ u.index)) ∧
  (∀ (s : State) (die bay : Nat) (u : Task), u.bay = bay → Fits s die u → (firstFit s die bay).isSome = true)

/-- R329: an aged gang that fits nowhere reserves, of the halves of its bay's set that no gang has reserved, the one with the most free
cores, where fewer than eight reservations stand on its die; those whose gang no longer waits have ended. -/
def Sys2Proof.Claims.GangReserves : Prop :=
  ∀ (s : State) (die task : Nat) (t : Task) (half : Nat), s.taskAt task = some t → t.gang = true → t.stat = .ready →
    (∀ r ∈ s.reservations, standing s r = true) → (∀ r ∈ s.reservations, r.task ≠ task) →
    t.readySince + s.regs.dspAge ≤ s.now → placeFor s 0 t = none → placeFor s 1 t = none → (s.reservations.filter fun r => r.die == die).length < 8 →
    let open_ (h : Nat) : Prop := (h ∈ halves 0 ∨ h ∈ halves 1) ∧ (∀ r ∈ s.reservations, r.first ≠ h) ∧
      ∀ n ∈ halfOf h, (s.effNow t.bay).cores.getLsbD n = true ∧ (s.core n).offline = false
    let free (h : Nat) : Nat := ((halfOf h).filter (freeFor s task)).length
    open_ half → ∃ h, open_ h ∧ (∀ g, open_ g → free g ≤ free h ∧ (free g = free h → h ≤ g)) ∧
      exec (.gangReserve die task) s = .next (if h / 160 = die then
          { s with reservations := s.reservations ++ [{ die := die, task := task, first := h }] }
        else s)

/-- R330 to R332: at quantum end a task whose core a rival of no lower level could take, and for which save slots are free, is asked to
stop on all its cores; otherwise its quantum starts again. A wait past the yield threshold gives up the core. -/
def Sys2Proof.Claims.QuantaEnd : Prop :=
  (∀ (s : State) (core : Nat) (t : Task), s.taskOn core = some t → t.cores.foldl min core = core → mayPreempt s t = true →
    let q := (s.eff t.bay).quantum.toNat * 1024
    (q = 0 ∨ s.now < t.quantumFrom + q → exec (.quantumExpiry core) s = .next s) ∧
    (0 < q → t.quantumFrom + q ≤ s.now → exec (.quantumExpiry core) s = .next
      (if rival s t && slotsLeft s t then preempt s t none else s.modTask t.id fun t => { t with quantumFrom := s.now }))) ∧
  (∀ (s : State) (core : Nat) (t : Task) (w : GenWait), s.taskOn core = some t → (s.core core).e.user.wait = some w →
    mayPreempt s t = true → coreRuns s core .user = true → slotsLeft s t = true →
    let y := (s.eff t.bay).yield.toNat * 1024
    let gives : Prop := match w.instr with
      | .launchT _ _ _ | .launchG _ _ _ | .join _ _ _ | .qpush _ _ _ _ | .qpop _ _ _ _ => True
      | _ => False
    (y = 0 ∨ s.now ≤ w.since + y ∨ ¬gives → exec (.yieldThresholdExpiry core) s = .next s) ∧
    (0 < y → w.since + y < s.now → gives → exec (.yieldThresholdExpiry core) s = .next (preempt s t (some core)))) ∧
  (∀ (s : State) (t : Task) (y : Option Nat) (n : Nat), n ∈ t.cores → n < 320 → t.cores.Nodup → (s.core n).stop = none →
    ((preempt s t y).core n).stop = some { b := s.now, why := .save (y == some n), faults := [] })

/-- R291, R306, R330, R332, R337, R391: a task whose cores stand still with nothing on its way is saved into the lowest free save slots, whose
bytes are then free values (assumption 54), with its dirty lines written back; one with a core that has gone offline is bound to no core, or killed
where it has accessed its own Loft; restored, it goes on on all its cores together; a retiring task leaves its cores with its lines written back
and its L1s empty, as ended, ready again (as an aborted one is, however it has ended), or awaiting commit. -/
def Sys2Proof.Claims.ContextsMove : Prop :=
  (∀ (s : State) (core : Nat) (t : Task) (slots : List Nat), s.taskOn core = some t → t.cores.foldl min core = core → t.stat = .saving →
    (∀ n ∈ t.cores, settled (s.core n) = true ∧ (s.core n).stopNext = none ∧
      ∃ st w, (s.core n).stop = some st ∧ st.reached = true ∧ st.why = .save w) →
    freeSlots s t.bay t.cores.length 0 = some slots →
    let s1 := t.cores.foldl (fun s n => cleanAll s n) s
    let s2 := (spoilSlots s1 t.bay slots).modTask t.id fun u =>
      { u with stat := .saved slots u.waitFor.isSome, saved := t.cores.map (savedOf s1 t.bay), scratchLost := false, readySince := s1.now
               cores := if t.cores.any fun n => (s.core n).offline then [] else t.cores }
    let dies := t.ownLoft = true ∧ ∃ n ∈ t.cores, (s.core n).offline = true
    (dies → exec (.contextSaveComplete core) s = .next (s.modTask t.id fun t => { t with stat := .retiring (.ends .killed) })) ∧
    (¬dies → exec (.contextSaveComplete core) s = .next (t.cores.foldl vacate s2))) ∧
  (∀ (s : State) (core : Nat) (t : Task), s.taskOn core = some t → t.cores.foldl min core = core → t.stat = .running →
    (∀ n ∈ t.cores, (s.core n).restoring = true) →
    let s1 := (t.cores.zip t.saved).foldl (fun s p => restoreLine s t.bay p.1 p.2.line) s
    exec (.contextRestoreComplete core) s =
      .next (t.cores.foldl resumeCore (s1.modTask t.id fun t => { t with saved := [], quantumFrom := s1.now }))) ∧
  (∀ (s : State) (core : Nat) (t : Task) (how : Leave), s.taskOn core = some t → t.cores.foldl min core = core → t.stat = .retiring how →
    (∀ n ∈ t.cores, settled (s.core n) = true ∧ publishWaits (s.core n) = false ∧ ∀ st, (s.core n).stop = some st → st.reached = true) →
    let s1 := t.cores.foldl (fun s n => (cleanAll s n).modCore n fun c => { c with l1 := [], l1Task := none }) s
    let s2 := t.cores.foldl vacate s1
    ((∀ e, how ≠ .ends e) → exec (.taskRetire core) s = .next (leave s2 t.id how)) ∧
    (∀ e, how = .ends e → t.aborted = true → e ≠ .killed → exec (.taskRetire core) s = .next (leave s2 t.id .again)) ∧
    (∀ e, how = .ends e → t.aborted = false ∨ e = .killed → (s2.eff t.bay).det = false ∨ e = .killed → exec (.taskRetire core) s = .next (leave s2 t.id how)) ∧
    (∀ e, how = .ends e → t.aborted = false → (s2.eff t.bay).det = true → e ≠ .killed → exec (.taskRetire core) s = .next (s2.modTask t.id fun t =>
      match e with
      | .faulted _ => { t with stat := .done e, shadow := [], fadds := [], cask := [] }
      | _ => { t with stat := .done e })))

/-- R291, R306, R328 to R332: scheduling. Model's own choices: assumptions 54, 63, 64, 65 and 73. -/
def Obligations.SchedulingEvents : Prop := Dispatches ∧ GangReserves ∧ QuantaEnd ∧ ContextsMove

/-! ### Graphs -/

namespace Sys2Proof.Claims

/-- The count of predecessors of each task, and which tasks are absent in a step (R342, R343). -/
def absentTasks (g : Graph) : List Nat := (List.range g.ntask).filter fun i => absentIn ((g.w0s[i]?).getD 0) g.step g.nstep

/-- What a deadline handler started, below a graph that it did not start itself: no work of that graph's step (R350). -/
def aside (g : Graph) (ofHandler : Bool) : Prop := ofHandler = true ∧ g.ofHandler = false

/-- A step of a graph is open: a task, or a child graph, that no deadline handler started has not ended (R343, R350). -/
def StepOpen (s : State) (graph : Nat) (g : Graph) : Prop :=
  (∃ t ∈ s.tasks, t.graph = graph ∧ t.kind ≠ .deadline ∧ ¬aside g t.ofHandler) ∨
    ∃ x ∈ s.graphs, ¬aside g x.ofHandler ∧ ∃ t o, x.parent = some (graph, t, o) ∧ x.stat ≠ .ended

/-- The event `i` copies the next entry of a checkpoint, or of its restoration, and notes what is left; a copy that faults ends the graph (R351). -/
def CopiesOne (s : State) (graph : Nat) (g : Graph) (j : CkptJob) (c : Ckpt) (left : List Ckpt) (i : Instr) : Prop :=
  (∀ s1 f, ckptCopy s g.bay j.back [c] = (s1, some f) → exec i s = .next (failGraph s1 g f.1)) ∧
  (∀ s1, ckptCopy s g.bay j.back [c] = (s1, none) →
    exec i s = .next (s1.modGraph graph fun g => { g with ckptJob := some { j with left := left } }))

/-- How an end changes the counts of retired, skipped, faulted and killed tasks (R345). -/
def endCounts (how : End) : Nat × Nat × Nat × Nat :=
  match how with
  | .retired _ => (1, 0, 0, 0)
  | .skippedPublish | .skippedCopy => (0, 1, 0, 0)
  | .faulted _ => (0, 0, 1, 0)
  | .killed => (0, 0, 0, 1)
  | .absent => (0, 0, 0, 0)

/-- R339, R342, R348, R349: a waiting graph takes the lowest free sequencer of its die, a child graph else one of the other die; the
sequencer keeps a graph whose lists it accepts, and refuses any other, one outside space 0x0 among them: a RUN so refused completes with status 0x10,
its bay as before. A killed one ends at once. -/
def GraphsStart : Prop :=
  (∀ (s : State) (graph : Nat) (g : Graph), s.graphAt graph = some g → g.killed = true →
    (g.stat = .waiting → exec (.sequencerAssign graph) s = .next (finishGraph s graph)) ∧
    (g.stat = .assigned → exec (.graphAccept graph) s = .next (finishGraph s graph)) ∧
    (g.stat = .betweenSteps → exec (.stepStart graph) s = .next (finishGraph s graph))) ∧
  (∀ (s : State) (graph : Nat) (g : Graph), s.graphAt graph = some g → g.killed = false → g.stat = .waiting →
    let takes (n : Nat) : Prop := exec (.sequencerAssign graph) s = .next ({ s with seqs := wr s.seqs n (some graph) }.modGraph graph fun g =>
      { g with seq := some n, die := n / 16, stat := .assigned })
    let home := match g.parent with | some _ => g.die | none => homeDie (s.effNow g.bay).cores
    (∀ n, freeSeq s g.bay home = some n → takes n) ∧
    (freeSeq s g.bay home = none → g.parent = none → exec (.sequencerAssign graph) s = .next s) ∧
    (freeSeq s g.bay home = none → g.parent ≠ none → ∀ n, freeSeq s g.bay (1 - g.die) = some n → takes n) ∧
    (freeSeq s g.bay home = none → freeSeq s g.bay (1 - g.die) = none → exec (.sequencerAssign graph) s = .next s)) ∧
  (∀ (s : State) (bay die n : Nat), freeSeq s bay die = some n →
    16 * die ≤ n ∧ n < 16 * die + 16 ∧ rd s.seqs n none = none ∧ ∀ m, 16 * die ≤ m → m < n → rd s.seqs m none ≠ none) ∧
  (∀ (s : State) (graph : Nat) (g : Graph), s.graphAt graph = some g → g.killed = false → g.stat = .assigned →
    (∀ s1, acceptGraph s g = (s1, none) → exec (.graphAccept graph) s = .next (refuseGraph s1 g)) ∧
    (∀ s1 g', acceptGraph s g = (s1, some g') → exec (.graphAccept graph) s = .next (s1.modGraph graph fun _ => g'))) ∧
  (∀ (s : State) (g : Graph) (r : Run), g.parent = none → s.runAt g.run = some r →
    (∀ p ∈ s.packets, p.id = r.packet → { p with done := some (0x10, 0xFFFF) } ∈ (refuseGraph s g).packets) ∧
    (∀ b x, b ∈ s.bays → b.bay = r.bay → r.before = some x → { b with eff := x.1, phase0 := x.2 } ∈ (refuseGraph s g).bays)) ∧
  (∀ (d : List W64), descBad d = false →
    let w (i : Nat) : W64 := (d[i]?).getD 0
    1 ≤ ((w 0).extractLsb' 0 16).toNat ∧ ((w 0).extractLsb' 0 16).toNat ≤ 4096 ∧ (w 0).extractLsb' 16 16 ≠ 0 ∧ (w 0).extractLsb' 38 26 = 0 ∧
      (w 1).toNat % 64 = 0 ∧ (w 2).toNat % 128 = 0 ∧ (w 3).toNat % 32 = 0 ∧ (w 4).toNat % 32 = 0 ∧ (w 5).toNat ≤ 64 ∧ (w 7).toNat % 8 = 0) ∧
  (∀ (n : Nat) (succ : List (List Nat)), succBad n succ = false →
    (∀ i l, succ[i]? = some l → l.Nodup ∧ ∀ j ∈ l, j < n ∧ j ≠ i) ∧ (succ.map List.length).sum ≤ 16384) ∧
  (∀ (s s1 : State) (g g' : Graph), acceptGraph s g = (s1, some g') → g.desc.toNat < 2 ^ 60)

/-- R325, R327, R343, R344, R351: a step starts once every linked stream has: its schedule record is read, a checkpoint taken if it asks
for one, an entry an event, the buffers of a RUN treated as their modes ask before its first step, and the
step begun with its registers, its absent tasks ended and its roots released. -/
def StepsRun : Prop :=
  (∀ (s : State) (graph : Nat) (g : Graph), s.graphAt graph = some g → g.killed = false → g.stat = .betweenSteps →
    (g.parent = none → (∃ p ∈ s.parts, p.run = some g.run ∧ p.sparge = true ∧ p.started = false ∧ p.done = false) →
      exec (.stepStart graph) s = .next s) ∧
    (g.parent ≠ none ∨ (∀ p ∈ s.parts, p.run = some g.run → p.sparge = true → p.started = true ∨ p.done = true) →
      (g.ckptJob = none → ∀ s1 c, readSched s g = (s1, .inr c) → exec (.stepStart graph) s = .next (failGraph s1 g c)) ∧
      (g.ckptJob = none → ∀ s1 ws, readSched s g = (s1, .inl ws) →
        let asks := g.cken = true ∧ (((ws[14]?).getD 0).getLsbD 0) = true
        (¬asks → exec (.stepStart graph) s = .next (beginStep (beforeFirst s1 g) g ws false)) ∧
        (asks → exec (.stepStart graph) s = .next
          (s1.modGraph graph fun x => { x with ckptJob := some { back := false, left := g.ckpts, words := ws } }))) ∧
      (∀ j, g.ckptJob = some j →
        (∀ c left, j.left = c :: left → CopiesOne s graph g j c left (.stepStart graph)) ∧
        (j.left = [] →
          let g2 := { g with ckptStep := some g.step }
          exec (.stepStart graph) s = .next (beginStep (beforeFirst (s.modGraph graph fun _ => g2) g2) g2 j.words false)))) ∧
      (∀ r, s.runAt g.run = some r → beforeFirst s g = if r.graph = g.id ∧ g.step = 0 then dropBuffers s r else s)) ∧
  (∀ (s : State) (graph : Nat) (g : Graph), s.graphAt graph = some g → g.stat = .running →
    let s1 := s.modGraph graph fun g => { g with boosted := false }
    let ends := exec (.stepEnd graph) s
    (StepOpen s graph g ∨ (g.rerun = true ∧ g.killed = false) → ends = .next s) ∧
    (¬StepOpen s graph g → g.killed = true → ends = .next (finishGraph s1 graph)) ∧
    (¬StepOpen s graph g → g.killed = false → g.rerun = false →
      (g.haltf = true → g.faultedStep = true → ends = .next (finishGraph (countUnrun s1 g (unrun g)) graph)) ∧
      (g.haltf = false ∨ g.faultedStep = false →
        (g.nstep ≤ g.step + 1 → ends = .next (finishGraph s1 graph)) ∧
        (g.step + 1 < g.nstep → ends = .next (s1.modGraph graph fun g => { g with step := g.step + 1, stat := .betweenSteps })))))

/-- R343, R345, R349: a task's end is counted in its graph, those above it and its RUN; a graph task's is noted in its retire record
with the children still in its child set, and lowers its successors' counts, a child's in its parent's child set, and a deadline
handler's nowhere else; what a deadline handler started, itself included, is in no attempt of a step. -/
def TasksEnd : Prop :=
  (∀ (s : State) (task : Nat) (t : Task) (how : End), s.taskAt task = some t → t.stat = .ended how →
    let s1 := countEnd (dropTask s task) t.run t.graph t.step t.index how t.ofHandler
    let fault := match how with | .faulted _ => true | _ => false
    (t.kind = .graph → exec (.taskEnd task) s =
      .next (endTask (s1.modGraph t.graph fun g =>
        { g with faultedStep := g.faultedStep || fault, past := g.past ++ [(task, t.index, how)] }) t.graph t.index (endCore t)
        t.children.length how)) ∧
    (∀ p o, t.kind = .child p o → exec (.taskEnd task) s = .next (childEnded (s1.modGraph t.graph fun g =>
      { g with faultedStep := g.faultedStep || (fault && (!t.ofHandler || g.ofHandler)) }) p o how)) ∧
    (t.kind = .deadline → exec (.taskEnd task) s = .next s1)) ∧
  (∀ (s : State) (run graph step index : Nat) (how : End) (handler : Bool) (g : Graph), g ∈ s.graphs →
    let g' := if (chainOf s graph).contains g.id then
        { g with nRet := g.nRet + (endCounts how).1, nSkip := g.nSkip + (endCounts how).2.1, nFault := g.nFault + (endCounts how).2.2.1,
                 nKill := g.nKill + (endCounts how).2.2.2
                 base := if handler then (g.base.1 + (endCounts how).1, g.base.2.1 + (endCounts how).2.1,
                   g.base.2.2.1 + (endCounts how).2.2.1, g.base.2.2.2 + (endCounts how).2.2.2) else g.base
                 firstCause := match how with | .faulted c => some (g.firstCause.getD c) | _ => g.firstCause }
      else g
    g' ∈ (countEnd s run graph step index how handler).graphs)

/-- R334, R350: a stage's deadline is evaluated once in a step: with every task of the stage ended nothing happens; otherwise an event of
cause 0x138 names the first of them, the graph is boosted, the bay's handler is started, and DLSTOP kills
them, those still completing their work included. -/
def DeadlinesExpire : Prop :=
  ∀ (s : State) (graph stage : Nat) (g : Graph), s.graphAt graph = some g → g.stat = .running → stage < 16 →
    let dl := (rd g.dl stage 0).toNat * 1024
    let s1 := s.modGraph graph fun g => { g with expired := g.expired ||| BitVec.ofNat 16 (2 ^ stage) }
    let i : Instr := .stageDeadlineExpiry graph stage
    (dl = 0 ∨ s.now < g.trel + dl ∨ g.expired.getLsbD stage = true ∨ g.ckptJob ≠ none → exec i s = .next s) ∧
    (0 < dl → g.trel + dl ≤ s.now → g.expired.getLsbD stage = false → g.ckptJob = none →
      (unended s g stage = [] → exec i s = .next s1) ∧
      (∀ first rest, unended s g stage = first :: rest → ∀ s2 ok, startHandler s1 g stage (rest.length + 1) = (s2, ok) →
        let s3 := (logEvent s2 g.bay first g.step 12 0x138 0 0 (w64 stage) (w64 (rest.length + 1 + if ok then 0 else 2 ^ 63))).modGraph graph
          fun g => { g with boosted := true }
        exec i s = .next (if (s3.eff g.bay).dlstop then
            ((s3.tasks.filter fun t => t.graph == graph && t.kind == .graph && (first :: rest).contains t.index).map (·.id)).foldl
              killUnended s3
          else s3)))

/-- R352, R364: a step asked to run again has its tasks and child graphs killed without record; when they are gone its ends are taken
out of the counts, its checkpoint is copied back, an entry an event, and it begins again, once. A deadline
handler and what it started are none of the step's. -/
def StepsRunAgain : Prop :=
  ∀ (s : State) (graph : Nat) (g : Graph), s.graphAt graph = some g → g.stat = .running →
    let again := exec (.stepRerun graph) s
    (g.rerun = false ∨ g.reran = true ∨ g.killed = true ∨ g.ckptStep ≠ some g.step → again = .next s) ∧
    (g.rerun = true → g.reran = false → g.killed = false → g.ckptStep = some g.step →
      let own (ofHandler : Bool) : Bool := !ofHandler || g.ofHandler
      let mine := (s.tasks.filter fun t => t.graph == graph && t.kind != .deadline && own t.ofHandler).map (·.id)
      let s0 := mine.foldl (fun s i => kill s i .discard) s
      let below := (s0.graphs.filter fun x => own x.ofHandler && match x.parent with | some p => p.1 == graph && !x.killed | none => false).map (·.id)
      (StepOpen s graph g → again = .next (below.foldl (fun s i => killGraph (killFuel s) s i .discard) s0)) ∧
      (¬StepOpen s graph g → g.ckptJob = none → again = .next ((uncount (undoAttempt s g) g).modGraph graph fun x =>
        { x with ckptJob := some { back := true, left := g.ckpts } })) ∧
      (¬StepOpen s graph g → ∀ j, g.ckptJob = some j →
        (∀ c left, j.left = c :: left → CopiesOne s graph g j c left (.stepRerun graph)) ∧
        (j.left = [] →
          (∀ s1 c, readSched s g = (s1, .inr c) → again = .next (failGraph s1 g c)) ∧
          (∀ s1 ws, readSched s g = (s1, .inl ws) → again = .next (beginStep s1 g ws true)))))

/-- R335 to R338, R363: in a deterministic bay the first task in commit order commits once it has left its core: its work is published
by the model's commitWork, which makes later tasks that have read it start again. A running one for which the arena has no line commits and goes on, unless it
is to start again. -/
def TasksCommit : Prop :=
  (∀ (s : State) (bay : Nat) (t : Task), firstUncommitted s bay = some t →
    let cleared (t : Task) : Task :=
      { t with shadow := [], readSet := [], fadds := [], cask := [], wrote := [], starved := false }
    (∀ how, t.stat = .done how → exec (.detCommit bay) s =
      .next ((commitWork s t).modTask t.id fun t => { cleared t with stat := .ended how })) ∧
    (t.stat = .running →
      let full := (s.eff bay).det = true ∧ t.starved = true ∧ t.aborted = false
      (full → exec (.detCommit bay) s =
        .next ((commitWork s t).modTask t.id fun t => { cleared t with unshadowed := true })) ∧
      (¬full → exec (.detCommit bay) s = .next s))) ∧
  (∀ (s : State) (bay : Nat) (t : Task), firstUncommitted s bay = some t →
    t ∈ s.tasks ∧ t.bay = bay ∧ ∀ u ∈ s.tasks, u.bay = bay → (∀ how, u.stat ≠ .ended how) →
      (rd t.rec_ 4 0).toNat < (rd u.rec_ 4 0).toNat ∨ ((rd t.rec_ 4 0).toNat = (rd u.rec_ 4 0).toNat ∧ t.index ≤ u.index))

end Sys2Proof.Claims

/-- R325, R327, R334 to R345, R348 to R352, R363, R364: the Mash sequencers. Model's own choices: assumptions 24, 55, 56, 61, 68, 69, 71
(a checkpoint copies an entry an event) and 72. -/
def Obligations.GraphEvents : Prop :=
  GraphsStart ∧ StepsRun ∧ TasksEnd ∧ DeadlinesExpire ∧ StepsRunAgain ∧ TasksCommit

/-! ### Weight streams and linked copies -/

namespace Sys2Proof.Claims

/-- A weight buffer after a portion has been written into its next half (R367). -/
def Filled (w : WBuf) (b : BitVec 524288) (w' : WBuf) : Prop :=
  (w.nextFill = false → w' = { w with half0 := b, full0 := true, nextFill := true }) ∧
  (w.nextFill = true → w' = { w with half1 := b, full1 := true, nextFill := false })

/-- A part changed (R327). -/
def partIs (s : State) (id : Nat) (f : Part → Part) : State := { s with parts := s.parts.map fun (x : Part) => if x.id = id then f x else x }

/-- A part has ended well: a linked one is done, and counts as a retired task of its RUN; one of firmware's is gone (R327, R345). -/
def partEnds (s : State) (p : Part) : State :=
  match p.run with
  | some run => (partIs s p.id fun x => { x with done := true }).modRun run fun r => { r with nRet := r.nRet + 1 }
  | none => { s with parts := s.parts.filter fun x => x.id != p.id }

end Sys2Proof.Claims

/-- R327, R365 to R369, R182: a valid program takes the lowest free channel of its group's die unless its group has a running
stream; each portion goes into the next half of every subscriber once all are empty and there is one; a stream whose last portion
has been written completes, and one whose graph has ended is stopped; a linked copy copies its blocks; firmware starts a program of
its own. Model's own choices: assumptions 67, 70 and 102. -/
def Obligations.SpargeEvents : Prop :=
  (∀ (s : State) (id : Nat) (p : Part), s.parts.find? (fun x => x.id == id) = some p → p.sparge = true → p.started = false →
    p.done = false → partRuns s p = true →
    let grp := ((rd p.words 3 0).extractLsb' 0 7).toNat
    let i : Instr := .spargeStart id
    let runs (ch : Nat) : Prop := ∃ q, partOn s ch = some q ∧ ((rd q.words 3 0).extractLsb' 0 7).toNat = grp
    ((∃ ch, ch < 64 ∧ runs ch) → exec i s = .next s) ∧
    ((∀ ch, ch < 64 → ¬runs ch) → ∀ ch, grp / 64 * 32 ≤ ch → ch < grp / 64 * 32 + 32 → (rd s.sparge ch {}).part = none →
      (∀ c, grp / 64 * 32 ≤ c → c < ch → (rd s.sparge c {}).part ≠ none) →
      exec i s = .next (partIs { s with sparge := wr s.sparge ch { part := some id } } id fun p => { p with started := true })) ∧
    ((∀ c, grp / 64 * 32 ≤ c → c < grp / 64 * 32 + 32 → (rd s.sparge c {}).part ≠ none) → exec i s = .next s)) ∧
  (∀ (s : State) (ch : Nat) (p : Part), partOn s ch = some p →
    let c := rd s.sparge ch {}
    let grp := ((rd p.words 3 0).extractLsb' 0 7).toNat
    let subs := subscribers s grp
    let empty (x : Nat × Nat) : Prop :=
      let w := rd (s.core x.1).e.wb x.2 {}
      (w.nextFill = false ∧ w.full0 = false) ∨ (w.nextFill = true ∧ w.full1 = false)
    let bay := p.bay
    let i : Instr := .spargePortionWrite ch
    (c.park ≠ none ∨ portions p.words ≤ c.portion ∨ subs = [] ∨ (∃ x ∈ subs, ¬empty x) ∨ savedSubscriber s grp = true →
      exec i s = .next s) ∧
    (c.park = none → c.portion < portions p.words → subs ≠ [] → (∀ x ∈ subs, empty x) → savedSubscriber s grp = false →
      (∀ s1 e, streamBlocks s bay p.words 512 (512 * c.portion) c.block = (s1, .inr e) → exec i s = .next
        (if e.replayable then { s1 with sparge := wr s1.sparge ch { c with park := some (.wanting e.cause e.addr e.walk e.rp) } }
         else partFaulted (freeSparge s1 ch) p.id e.cause e.addr)) ∧
      (∀ s1 b used, streamBlocks s bay p.words 512 (512 * c.portion) c.block = (s1, .inl (b, used)) →
        ∃ t, exec i s = .next t ∧ (rd t.sparge ch {}).portion = (if ch < 64 then c.portion + 1 else 0) ∧
          (∀ x ∈ subs, Filled (rd (s1.core x.1).e.wb x.2 {}) (BitVec.ofNat 524288 (ofBytes b)) (rd (t.core x.1).e.wb x.2 {})) ∧
          ∀ n k, (n, k) ∉ subs → rd (t.core n).e.wb k {} = rd (s1.core n).e.wb k {}))) ∧
  (∀ (s : State) (grp n k : Nat), (n, k) ∈ subscribers s grp ↔
    n < 320 ∧ k < 2 ∧ (s.core n).task.isSome = true ∧ (rd (s.core n).e.wb k {}).group = some grp) ∧
  (∀ (p : Vector W64 8), portions p = ((((rd p 3 0).extractLsb' 48 16).toNat + 1) * (rd p 2 0).toNat + 65535) / 65536) ∧
  (∀ (s : State) (ch : Nat) (p : Part), partOn s ch = some p →
    let written := (rd s.sparge ch {}).portion
    (portions p.words ≤ written →
      exec (.spargeStreamComplete ch) s = .next (partEnds (freeSparge s ch) p) ∧
      exec (.spargeStreamStop ch) s = .next s) ∧
    (written < portions p.words → exec (.spargeStreamComplete ch) s = .next s ∧
      (p.run = none → exec (.spargeStreamStop ch) s = .next s) ∧
      (∀ run, p.run = some run → runEnded s run = false → exec (.spargeStreamStop ch) s = .next s) ∧
      (∀ run, p.run = some run → runEnded s run = true →
        let step := (((s.runAt run).bind fun r => s.graphAt r.graph).map (·.step)).getD 0
        let s1 := s.modRun run fun r =>
          { r with nKill := r.nKill + 1, fails := r.fails ++ [{ via := [], step := step, index := 0xFFFF, cause := 0, killed := true }] }
        exec (.spargeStreamStop ch) s = .next (partIs (freeSparge s1 ch) p.id fun p => { p with done := true })))) ∧
  (∀ (s : State) (id : Nat) (p : Part), s.parts.find? (fun x => x.id == id) = some p → p.sparge = false → p.done = false → ∀ run, p.run = some run →
    (runAccepted s run = false → exec (.linkedCopyComplete id) s = .next s) ∧
    (runAccepted s run = true →
      let copy := fwCopy s p.bay (rd p.words 0 0) (rd p.words 1 0) ((rd p.words 2 0).toNat / 64)
      (∀ s1 f, copy = (s1, some f) → exec (.linkedCopyComplete id) s = .next (partFaulted s1 id f.1 f.2)) ∧
      (∀ s1, copy = (s1, none) → exec (.linkedCopyComplete id) s = .next (partEnds s1 p)))) ∧
  (∀ (s : State) (bay : Nat) (ws : List W64),
    let p : Vector W64 8 := Vector.ofFn fun i => (ws[i.val]?).getD 0
    (spargeBad p = true ∨ s.bayAt bay = none → firmwareProgram s bay ws = s) ∧
    (spargeBad p = false → s.bayAt bay ≠ none → (firmwareProgram s bay ws).parts =
      s.parts ++ [{ id := s.fresh, run := none, bay := bay, sparge := true, words := p }]))

/-! ### Rings and packets -/

namespace Sys2Proof.Claims

/-- The next packet of a ring starts: it is there to be read, at its place, and no packet of the ring that holds later ones is open
(R320, R321). -/
def NextPacket (s : State) (n : Nat) (w : Vector W64 8) : Prop :=
  let r := rd s.rings n {}
  r.w0.getLsbD 63 = true ∧ r.w0.getLsbD 62 = false ∧ r.head < r.tail ∧
  (∀ p ∈ s.packets, p.ring = n → pKind p.words ≠ 2 ∧ pKind p.words ≠ 3 ∧ pKind p.words ≠ 4 ∧ pKind p.words ≠ 6) ∧
  w = recordOf (pocRead s ((r.w0.extractLsb' 0 48).toNat + 64 * (r.head % 2 ^ ((r.w0.extractLsb' 48 4).toNat + 6))) 64)

/-- An instruction is the start of a packet that `which` selects, which then does `act`, or is refused by what every packet shares:
otherwise nothing happens (R321, R322). -/
def Starts (i : Nat → Instr) (which : Vector W64 8 → Prop) (act : State → Packet → State) : Prop :=
  ∀ (s : State) (n : Nat),
    ((∀ w, ¬NextPacket s n w) → exec (i n) s = .next s) ∧
    (∀ w, NextPacket s n w → (¬which w → exec (i n) s = .next s) ∧
      (which w → ∀ p s1, takePacket s n w = (p, s1) →
        (∀ st, refusal s1 w = some st → exec (i n) s = .next (donePacket s1 p.id st 0xFFFF)) ∧
        (refusal s1 w = none → exec (i n) s = .next (act s1 p))))

/-- Word `i` of a packet. -/
def pwd (p : Packet) (i : Nat) : W64 := rd p.words i 0

/-- A packet that has done all it does. -/
def finished (s : State) (p : Packet) (st : Nat) : State := donePacket s p.id st 0xFFFF

/-- R319 to R321: the ring registers, the tail line and the reading of packets. -/
def RingsRead : Prop :=
  (∀ (s : State) (n : Nat) (w0 w1 : W64), n < 64 → w0.getLsbD 63 = true →
    let r := rd s.rings n {}
    (r.w0.getLsbD 63 = false → ∃ q, exec (.ringEnable n w0 w1) s = .next { s with rings := wr s.rings n q } ∧ q.head = 0 ∧ q.tail = 0 ∧
      q.w0.extractLsb' 0 52 = w0.extractLsb' 0 52 ∧ q.w0.extractLsb' 52 10 = 0 ∧ q.w0.getLsbD 63 = true ∧
      q.w1 = w1 &&& 0x0000FFFFFFFFFFC0) ∧
    (r.w0.getLsbD 63 = true → ∃ q, exec (.ringEnable n w0 w1) s = .next { s with rings := wr s.rings n q } ∧ q.head = r.head ∧
      q.tail = r.tail ∧ q.w1 = r.w1 ∧ q.w0.extractLsb' 0 52 = r.w0.extractLsb' 0 52)) ∧
  (∀ (s : State) (n : Nat), n < 64 → ∃ q, exec (.ringErrClear n) s = .next { s with rings := wr s.rings n q } ∧
    q.w0.getLsbD 62 = false ∧ q.w0.getLsbD 63 = (rd s.rings n {}).w0.getLsbD 63 ∧ q.head = (rd s.rings n {}).head) ∧
  (∀ (s : State) (n : Nat), n < 64 →
    let r := rd s.rings n {}
    let tail := (pocRead8 s ((r.w1.extractLsb' 6 42).toNat * 64)).toNat
    let size := 2 ^ ((r.w0.extractLsb' 48 4).toNat + 6)
    (r.w0.getLsbD 63 = false ∨ r.w0.getLsbD 62 = true → exec (.ringTailUpdate n) s = .next s) ∧
    (r.w0.getLsbD 63 = true → r.w0.getLsbD 62 = false → ∃ q, exec (.ringTailUpdate n) s = .next { s with rings := wr s.rings n q } ∧
      q.head = r.head ∧
      (r.head ≤ tail → tail ≤ r.head + size → q = { r with tail := tail }) ∧
      (tail < r.head ∨ r.head + size < tail → q.w0.getLsbD 62 = true ∧ q.tail = r.head))) ∧
  (∀ (s : State) (n : Nat) (w : Vector W64 8) (p : Packet) (s1 : State), n < 64 → takePacket s n w = (p, s1) →
    p.ring = n ∧ p.words = w ∧ p.done = none ∧ s1.packets = s.packets ++ [p] ∧
      (rd s1.rings n {}).head = (rd s.rings n {}).head + 1 ∧ (rd s1.rings n {}).tail = (rd s.rings n {}).tail)

/-- R316 to R318, R333, R334, R402: bays are created, modified and killed; a modify that its image, its budget, its new parent or its Loft makes
impossible has no effect; any other writes the bay's own values and inheritance from the image, and its effective values and Loft extents with them, the
units it loses or gains zeroed; bay 0 keeps its parent, its inheritance and its Loft. -/
def BaysChange : Prop :=
  Starts .bayCreate (fun w => pKind w = 2 ∧ pOp w = 0) createBay ∧
  Starts .bayModify (fun w => pKind w = 2 ∧ pOp w = 1) modifyBay ∧
  Starts .bayKill (fun w => pKind w = 2 ∧ pOp w = 2) (fun s p =>
    if pBay p.words = 0 then finished s p 0x12 else killBay s (pBay p.words) 2) ∧
  (∀ (s : State) (p : Packet), readImage s (pwd p 3) = none → createBay s p = finished s p 0x10) ∧
  (∀ (s : State) (p : Packet) (w : List W64), readImage s (pwd p 3) = some w →
    let parent := (((w[0]?).getD 0).extractLsb' 12 12).toNat
    let ovr : BitVec 16 := ((w[0]?).getD 0).extractLsb' 48 16
    (s.bayAt parent = none → createBay s p = finished s p 0x11) ∧
    (∀ u, s.bayAt parent = some u → u.killing = none →
      (imageBad ovr w = true → createBay s p = finished s p 0x10) ∧
      (imageBad ovr w = false → (budgetBad ovr (imageVals w) = true ∨ 7 ≤ u.depth ∨ 4096 ≤ s.bays.length) →
        createBay s p = finished s p 0x12) ∧
      (imageBad ovr w = false → budgetBad ovr (imageVals w) = false → u.depth < 7 → s.bays.length < 4096 →
        let b : Bay := { bay := pBay p.words, parent := parent, depth := u.depth + 1, ovr := ovr, own := imageVals w }
        let eff := { s with bays := s.bays ++ [b] }.effNow b.bay
        (carve s parent b.bay eff.loft.toNat (coresIn eff.cores) = none → createBay s p = finished s p 0x12) ∧
        (∀ xs, carve s parent b.bay eff.loft.toNat (coresIn eff.cores) = some xs → createBay s p =
          finished (zeroExtents { s with bays := s.bays ++ [{ b with eff := eff, extents := xs }] } xs) p 0)))) ∧
  (∀ (s : State) (p : Packet) (w : List W64) (b : Bay), readImage s (pwd p 3) = some w → s.bayAt (pBay p.words) = some b → pBay p.words ≠ 0 →
    let parent := (((w[0]?).getD 0).extractLsb' 12 12).toNat
    let ovr : BitVec 16 := ((w[0]?).getD 0).extractLsb' 48 16
    (imageBad ovr w = true → modifyBay s p = finished s p 0x10) ∧
    (imageBad ovr w = false → budgetBad ovr (imageVals w) = true → modifyBay s p = finished s p 0x12) ∧
    (imageBad ovr w = false → budgetBad ovr (imageVals w) = false → parent ≠ b.parent →
      ∀ st, reparentBad s (pBay p.words) parent = some st → modifyBay s p = finished s p st) ∧
    (imageBad ovr w = false → budgetBad ovr (imageVals w) = false → (parent = b.parent ∨ reparentBad s (pBay p.words) parent = none) →
      let moved := if parent = b.parent then s else reparent s (pBay p.words) parent
      let s1 := moved.modBay (pBay p.words) fun b => { b with own := imageVals w, ovr := ovr }
      let eff := s1.effNow (pBay p.words)
      let fits := refitAll s parent b eff.loft.toNat (coresIn eff.cores)
      (fits = none → modifyBay s p = finished s p 0x12) ∧
      (∀ xs, fits = some xs →
        let kept := xs.filter fun x => x.units != 0
        let gone := unitsLost b.extents kept
        let inUse := ∃ c ∈ s.bays, c.bay ≠ 0 ∧ c.parent = pBay p.words ∧ ∃ x ∈ gone, holdsUnit c x.core x.first = true
        (inUse → modifyBay s p = finished s p 0x12) ∧
        (¬inUse → modifyBay s p = finished (zeroExtents (s1.modBay (pBay p.words) fun b => { b with eff := eff, extents := kept })
          (gone ++ unitsLost kept b.extents)) p 0)))) ∧
  (∀ (s : State) (p : Packet) (w : List W64) (b : Bay), readImage s (pwd p 3) = some w → s.bayAt 0 = some b → pBay p.words = 0 →
    let own : BayVals := { imageVals w with loft := b.own.loft }
    let s1 := s.modBay 0 fun b => { b with own := own }
    imageBad b.ovr w = false → budgetBad b.ovr own = false → (∀ c ∈ s.bays, c.bay = 0 → c.ovr = b.ovr) →
      modifyBay s p = finished (s1.modBay 0 fun b => { b with eff := s1.effNow 0 }) p 0) ∧
  (∀ (s : State) (n : Nat) (status : BitVec 8) (b : Bay), b ∈ s.bays → (subtree s n).contains b.bay = true → b.killing = none →
    (∀ t ∈ s.tasks, (subtree s n).contains t.bay = false) → { b with killing := some status } ∈ (killBay s n status).bays)

/-- R322 to R324, R327, R402: a RUN starts its graph in its bay, or is refused, and its bay then keeps the values it had. What a bay takes
anew when its only RUN starts is the model's choice (assumption 103). -/
def RunsStart : Prop :=
  Starts .runPacket (fun w => pKind w = 1) startRun ∧
  (∀ (s : State) (p : Packet),
    let bay := pBay p.words
    let eff := s.effNow bay
    let s0 := openBay s bay
    let old := s.bayAt bay
    (eff.ptroot = 0 ∨ eff.savebase = 0 ∨ eff.flogbase = 0 → startRun s p = finished s p 0x12) ∧
    (eff.ptroot ≠ 0 → eff.savebase ≠ 0 → eff.flogbase ≠ 0 →
      (∀ s1, readBuffers s0 p.words = (s1, none) → startRun s p = finished (giveBack s1 old) p 0x13) ∧
      (∀ s1 bufs, readBuffers s0 p.words = (s1, some bufs) →
        let run := s1.fresh
        (∀ s2, readLinks s1.bump.2 run p.words = (s2, none) → startRun s p = finished (giveBack s2 old) p 0x13) ∧
        (∀ s2 parts, readLinks s1.bump.2 run p.words = (s2, some parts) →
          let g : Graph := { id := s2.fresh, run := run, bay := bay, desc := pwd p 2 }
          let t := startRun s p
          t.graphs = s2.graphs ++ [g] ∧ t.parts = s2.parts ++ parts ∧ t.packets = s2.packets ∧
            ∃ r : Run, t.runs = (s2.runs.map fun x => if x.bay = bay then { x with before := none } else x) ++ [r] ∧
              ((∀ x ∈ s2.runs, x.bay ≠ bay) → r.before = old.map fun b => (b.eff, b.phase0)) ∧ r.id = run ∧ r.packet = p.id ∧ r.bay = bay ∧ r.graph = g.id ∧ r.seed = pwd p 5 ∧
              r.buffers = bufs)))) ∧
  (∀ (latch : W64) (ws : List W64) (b : Buffer), bufferOf latch ws = some b →
    let w0 := (ws[0]?).getD 0
    let w1 := (ws[1]?).getD 0
    w0.extractLsb' 60 4 = 0 ∧ b.len = (w1.extractLsb' 0 32).toNat ∧ b.len ≠ 0 ∧ b.acc = w0.extractLsb' 56 2 ∧ b.acc ≠ 0 ∧
      b.mode = (w0.extractLsb' 50 3).toNat ∧ b.mode ≤ 4 ∧ b.col = w0.extractLsb' 53 3 ∧ b.ored = w0.getLsbD 58 ∧
      b.addr = BitVec.ofNat 64 ((w0.extractLsb' 0 50).toNat * 64)) ∧
  (∀ (s : State) (w : Vector W64 8) (s1 : State) (l : List Buffer), readBuffers s w = (s1, some l) →
    l.length ≤ 1024 ∧ (l.filter fun b => b.obj.isSome).length ≤ 32)

/-- R223, R268, R271, R322, R357, R399: copies, fences, signals and configuration. -/
def PacketsAct : Prop :=
  Starts .copyPacket (fun w => pKind w = 3) (fun s p =>
    match fwCopy s (pBay p.words) (pwd p 2) (pwd p 3) ((pwd p 4).toNat / 64) with
    | (s, none) => finished s p 0
    | (s, some f) => donePacket s p.id 4 (w64 (0xFFFF + f.1.toNat * 2 ^ 16))) ∧
  Starts .fencePacket (fun w => pKind w = 4) (fun s _ => s) ∧
  Starts .signalPacket (fun w => pKind w = 5) (fun s _ => s) ∧
  Starts .configRidgeBarrier (fun w => pKind w = 6 ∧ pSub w = 0) (fun s p =>
    let n := ((pwd p 3).extractLsb' 0 12).toNat
    let based (b : Bay) : Bay := if b.eff.phbar.toNat = n then { b with phase0 := 0 } else b
    finished ({ s with bays := s.bays.map based }.modBarrier n fun _ =>
      { target := ((pwd p 3).extractLsb' 12 16).toNat, scope := (pwd p 3).extractLsb' 28 3 }) p 0) ∧
  Starts .configPublishSlot (fun w => pKind w = 6 ∧ pSub w = 1) (fun s p =>
    let n := ((pwd p 3).extractLsb' 0 8).toNat
    match pubRecord s n (pBay p.words) fun i => pwd p (4 + i) with
    | none => finished s p 0x10
    | some x => finished { s with pubs := wr s.pubs n x } p 0) ∧
  Starts .configTranslationInvalidation (fun w => pKind w = 6 ∧ pSub w = 2) (fun s p =>
    forgetRange s (pBay p.words) (pwd p 3).toNat ((pwd p 3).toNat + (pwd p 4).toNat)) ∧
  Starts .configCaskPolicy (fun w => pKind w = 6 ∧ pSub w = 3) (fun s p =>
    match policyFrom (pwd p 4) (pwd p 5) with
    | none => finished s p 0x10
    | some pol =>
      let s1 := s.modBay (pBay p.words) fun b => { b with policies := wr b.policies ((pwd p 3).extractLsb' 0 6).toNat pol }
      let keeps (r : Run) : Run := if r.bay = pBay p.words then { r with policies := r.policies ++ policyBytes pol } else r
      finished { s1 with runs := s1.runs.map keeps } p 0) ∧
  (∀ (s : State) (slot bay : Nat) (w : Nat → W64) (x : PubSlot), pubRecord s slot bay w = some x →
    x.vbase = (w 0).extractLsb' 16 40 ∧ x.b0 = (w 1).extractLsb' 16 32 ∧ x.b1 = (w 2).extractLsb' 16 32 ∧ x.nblk = (w 3).extractLsb' 0 32 ∧
      x.nblk ≠ 0 ∧ x.sel = (w 3).getLsbD 50 ∧ x.en = (w 3).getLsbD 51 ∧ x.bay = BitVec.ofNat 12 bay) ∧
  (∀ (w4 w5 : W64),
    let ok := w4.extractLsb' 53 11 = 0 ∧ (w4.extractLsb' 49 4 = 6 ∨ w4.extractLsb' 49 4 = 7 ∨ w4.extractLsb' 49 4 = 8) ∧ w5.extractLsb' 32 32 ≠ 0
    (policyFrom w4 w5).isSome = true ↔ ok)

/-- R321 to R323, R325, R345, R397: a packet that has completed writes its record, and leaves; a RUN that was not refused leaves its manifest
entry, the 64 newest being kept, and has its buffers written back as their modes ask. -/
def PacketsComplete : Prop :=
  (∀ (s : State) (id : Nat) (p : Packet), s.packets.find? (fun x => x.id == id) = some p →
    (packetEnd s p = none → exec (.packetCompletionRecord id) s = .next s) ∧
    (∀ st w2, packetEnd s p = some (st, w2) → runOf s p = none →
      let s1 := writeCompletion s p (completionWords s p st w2 none)
      exec (.packetCompletionRecord id) s = .next (reapBays { s1 with packets := s1.packets.filter fun q => q.id != id })) ∧
    (∀ st w2 r, packetEnd s p = some (st, w2) → runOf s p = some r →
      let m := s.manifest ++ [manifestEntry s p r st]
      let s0 := pushBuffers { s with manifest := m.drop (m.length - 64) } r
      let s1 := writeCompletion s0 p (completionWords s0 p st w2 (some r))
      let s2 : State := { s1 with
        runs := s1.runs.filter fun x => x.id != r.id
        graphs := s1.graphs.filter fun x => x.run != r.id
        parts := s1.parts.filter fun x => x.run != some r.id }
      exec (.packetCompletionRecord id) s = .next (reapBays { s2 with packets := s2.packets.filter fun q => q.id != id }))) ∧
  (∀ (s : State) (p : Packet) (st : Nat) (w2 : W64) (r : Option Run), st < 256 → ∃ w0 w1 w4 w5,
    completionWords s p st w2 r = [w0, w1, w2, BitVec.ofNat 64 s.now, w4, w5, 0, 0] ∧
      w0.extractLsb' 0 8 = BitVec.ofNat 8 st ∧ (w0.extractLsb' 8 8).toNat = pKind p.words ∧
      w0.extractLsb' 32 32 = (pwd p 0).extractLsb' 32 32 ∧
      ∀ x, r = some x → (w1.extractLsb' 0 16).toNat = min x.nRet 0xFFFF ∧ (w1.extractLsb' 16 16).toNat = min x.nSkip 0xFFFF ∧
        (w1.extractLsb' 32 16).toNat = min x.nFault 0xFFFF ∧ (w1.extractLsb' 48 16).toNat = min x.nKill 0xFFFF ∧
        (w4.extractLsb' 0 32).toNat = min x.nRet 0xFFFFFFFF ∧ (w5.extractLsb' 32 32).toNat = min x.nKill 0xFFFFFFFF) ∧
  (∀ (s : State) (p : Packet), p.done = none → pKind p.words = 4 ∨ pKind p.words = 5 →
    packetEnd s p = if s.packets.any (fun q => q.ring == p.ring && decide (q.id < p.id)) then none else some (0, 0xFFFF)) ∧
  (∀ (s : State) (w : Vector W64 8),
    (packetBad w = true → refusal s w = some 0x10) ∧
    (packetBad w = false → pKind w = 2 → pOp w = 0 → refusal s w = if (s.bayAt (pBay w)).isSome then some 0x11 else none) ∧
    (packetBad w = false → ¬(pKind w = 2 ∧ pOp w = 0) → refusal s w =
      if (s.bayAt (pBay w)).any (fun b => b.killing.isNone) then none else some 0x11))

end Sys2Proof.Claims

/-- R316 to R327, R333, R334, R345, R357, R397, R399, R402: rings and packets. Model's own choices: assumptions 33, 74, 75, 76, 77,
78 and 103. -/
def Obligations.PacketEvents : Prop := RingsRead ∧ BaysChange ∧ RunsStart ∧ PacketsAct ∧ PacketsComplete

/-! ### Other packages, links, the host and service -/

namespace Sys2Proof.Claims

/-- A class-5 event has been noted: a record of it is in bay 0's log, and a corrected error has been counted (R307, R398). -/
def noted (s : State) (cause : BitVec 9) : State :=
  let s1 := match cause.toNat with
    | 0x140 | 0x148 | 0x150 | 0x158 | 0x160 | 0x168 =>
      let k := (cause.toNat - 0x140) / 8
      { s with telemetry := { s.telemetry with corrected := wr s.telemetry.corrected k (rd s.telemetry.corrected k 0 + 1) } }
    | _ => s
  logRecord s1 0 (eventWords s1 0 0xFFFF 0 13 cause 0 0 0 0)

/-- What a package sends (R371 to R376). -/
def sends (s : State) (x : Sent) : State := { s with sent := s.sent ++ [x] }

/-- A link's state changed. -/
def linkIs (s : State) (n : Nat) (f : Link → Link) : State := { s with links := wr s.links n (f (rd s.links n {})) }

/-- R374, R379: link and port errors: retries, lane failures, lost flits, links that go down, and accesses that end with kind 6; a counted access
once it has left, a copy by its unacknowledged writes, else by its reads. -/
def LinkErrors : Prop :=
  (∀ (s : State) (link : Nat),
    let l := rd s.links link {}
    exec (.flitCrcRetry link) s = .next (noted s 0x160) ∧
    (l.spares ≠ 0 → exec (.laneFailure link) s = .next (noted (linkIs s link fun l => { l with spares := l.spares - 1 }) 0x163)) ∧
    (l.spares = 0 → exec (.laneFailure link) s = .next (noted (linkIs s link fun l => { l with lanes := l.lanes - 1 }) 0x165))) ∧
  (∀ (s : State) (link : Nat), link < 12 →
    let l := rd s.links link {}
    let s1 := linkIs { s with regs := { s.regs with plkRoute := s.regs.plkRoute.map fun w => w &&& ~~~(BitVec.ofNat 64 (2 ^ link)) } } link
      fun l => { l with up := false, unacked := [] }
    exec (.linkDown link) s = .next (l.unacked.foldl (fun s f => sendSync s f.1 f.2) (noted s1 0x166))) ∧
  (∀ (s : State) (pkg : Nat) (op : RemoteOp),
    (linkTo s pkg 0 = none → sendSync s pkg op = s) ∧
    (∀ l, linkTo s pkg 0 = some l → sendSync s pkg op =
      linkIs (sends s (.flit l pkg 0 op)) l fun k => { k with unacked := k.unacked ++ [(pkg, op)] })) ∧
  (∀ (s : State) (link port core id : Nat),
    exec (.flitLost link core id) s = .next (loseAccess (noted s 0x161) core id
      (fun a => a.done && a.pieces.any fun p => usesLink (noted s 0x161) link p.loc)
      (copyPart (usesLink (noted s 0x161) link)) 6) ∧
    exec (.cxlPoisonedCompletion port core id) s = .next (losePortRead (noted s 0x169) port core id) ∧
    exec (.cxlCompletionTimeout port core id) s = .next (losePortRead (noted s 0x16E) port core id)) ∧
  (∀ (which : Loc → Bool) (x : Copy),
    let writes := ∃ n ∈ x.away, ∃ g, x.gran[n]? = some g ∧ g.2.2 = false ∧ which g.1 = true
    (writes → copyPart which x = some 6) ∧ (¬writes → copyPart which x = if x.src.any which then some 5 else none)) ∧
  (∀ (s : State) (core kind : Nat) (a : XAcc), a.info.ctx = .user → core < 320 → (s.core core).stop = none →
    ∃ fi, ((loseCounted s core a kind).core core).stop = some { b := s.now, why := .fault, faults := [fi] } ∧
      fi.cause = class2 (accClass a.kind) kind ∧ fi.async = true ∧ fi.levelE = true)

/-- R286, R287, R370 to R372, R375, R376, R378: what other packages and the host do to memory, Lofts and barriers, and what
they are answered. -/
def RemoteRequests : Prop :=
  (∀ (s : State) (r : RemoteRequest), r.target ≠ s.regs.plkSelf.toNat →
    (linkTo s r.target r.offset = none → exec (.remoteRequestArrival r) s = .next s) ∧
    (∀ l, linkTo s r.target r.offset = some l → exec (.remoteRequestArrival r) s = .next (sends s (.forward l r)))) ∧
  (∀ (s : State) (pkg group offset : Nat), loftWindow s offset = none →
    let req (op : RemoteOp) : Instr := .remoteRequestArrival ⟨pkg, group, s.regs.plkSelf.toNat, offset, op⟩
    let ok (n : Nat) (r w : Bool) : Prop := eavAllows s pkg group offset n r w false = true
    let denied : Host.Outcome State Fault Refusal := .next (sends s (.denied pkg 4))
    (∀ n, offset + n ≤ 2 ^ 39 → (ok n true false → exec (req (.read n)) s = .next (sends s (.readData pkg (pocRead s offset n)))) ∧
      (¬ok n true false → exec (req (.read n)) s = denied)) ∧
    (∀ d, offset + d.length ≤ 2 ^ 39 →
      (ok d.length false true → exec (req (.write d)) s = .next (sends (throughWrite s offset d) (.ack pkg))) ∧
      (¬ok d.length false true → exec (req (.write d)) s = denied)) ∧
    (∀ op wide x c, let n := if wide then 8 else 4
      offset + n ≤ 2 ^ 39 →
      let old := pocRead s offset n
      (ok n true true → exec (req (.atomic op wide x c)) s = .next (sends
        (pocWrite s offset (toBytes n (amoNew op.toNat (8 * n) (ofBytes old) x.toNat c.toNat))) (.readData pkg old))) ∧
      (¬ok n true true → exec (req (.atomic op wide x c)) s = denied))) ∧
  (∀ (s : State) (pkg group offset : Nat) (w : W64) (core place : Nat), loftWindow s offset = some (w, core, place) →
    let req (op : RemoteOp) : Instr := .remoteRequestArrival ⟨pkg, group, s.regs.plkSelf.toNat, offset, op⟩
    let from_ := w.getLsbD 54 = true ∨ (w.extractLsb' 55 6).toNat = pkg
    let denied : Host.Outcome State Fault Refusal := .next (sends s (.denied pkg 4))
    (∀ n, offset + n ≤ 2 ^ 39 →
      (from_ ∧ w.getLsbD 62 = true → exec (req (.read n)) s = .next (sends s (.readData pkg (memRead (s.core core).loft place n)))) ∧
      (¬(from_ ∧ w.getLsbD 62 = true) → exec (req (.read n)) s = denied)) ∧
    (∀ d, offset + d.length ≤ 2 ^ 39 →
      (from_ ∧ w.getLsbD 61 = true → exec (req (.write d)) s =
        .next (sends ((heal s (.loft core) place d.length).modCore core fun c => { c with loft := memWrite c.loft place d }) (.ack pkg))) ∧
      (¬(from_ ∧ w.getLsbD 61 = true) → exec (req (.write d)) s = denied)) ∧
    (∀ op wide x c, offset + (if wide then 8 else 4) ≤ 2 ^ 39 → exec (req (.atomic op wide x c)) s = denied)) ∧
  (∀ (s : State) (pkg group offset n : Nat),
    let req (op : RemoteOp) : Instr := .remoteRequestArrival ⟨pkg, group, s.regs.plkSelf.toNat, offset, op⟩
    offset ≤ 2 ^ 39 →
    (∀ len, (s.barrier n).target ≠ 0 →
      (∀ b, addPend (s.barrier n) (-Int.ofNat len) = some b → exec (req (.post n len)) s = .next (s.modBarrier n fun _ => b)) ∧
      (addPend (s.barrier n) (-Int.ofNat len) = none → exec (req (.post n len)) s = .next (sends s (.postFault pkg 0x100)))) ∧
    (∀ child b x, (s.barrier n).target ≠ 0 → arriveAt (s.barrier n) (some (pkg, child)) = some (b, x) →
      exec (req (.childArrival n child)) s = .next (s.modBarrier n fun _ => b)) ∧
    ((s.barrier n).target = 0 → ∀ len child, exec (req (.post n len)) s = .next (sends s (.postFault pkg 0x102)) ∧
      exec (req (.childArrival n child)) s = .next s) ∧
    exec (req (.treeCompletion n)) s = .next (if (s.barrier n).closed then completePhase s n else s) ∧
    (∀ link k, exec (req (.syncAck link k)) s = .next (linkIs s link fun l => { l with unacked := l.unacked.drop k })) ∧
    (∀ d, exec (req (.reply d)) s = .next s)) ∧
  (∀ (s : State) (stack package group offset len : Nat), offset + len ≤ 2 ^ 39 → offset / 2048 % 8 = stack →
    exec (.longReachReadArrival stack package group offset len) s = .next (sends s
      (if eavAllows s package group offset len true false true then .readData package (systemRead s offset len) else .denied package 4))) ∧
  (∀ (s : State) (address len : Nat) (data : List Byte), address + max len data.length ≤ 2 ^ 39 →
    exec (.hostCxlMemAccess address len data) s = .next
      (if data = [] then sends s (.hostRead (pocRead s address len)) else pocWrite s address data)) ∧
  (∀ (s : State) (address : Nat) (data : List Byte),
    let cxl (a : Nat) : Prop := target a = .host ∨ target a = .pool
    let last := address + data.length - 1
    let line := address / 64 * 64
    (data = [] → cxl address → exec (.cxlCacheSnoop address data) s = .next (sends s (.snoopData line (pocRead s line 64)))) ∧
    (data ≠ [] → cxl address → cxl last →
      let s1 := heal ((granules address data.length).foldl dropSector s) .phys address data.length
      exec (.cxlCacheSnoop address data) s = .next { s1 with mem := memWrite s1.mem address data }) ∧
    (¬cxl address ∨ (data ≠ [] ∧ ¬cxl last) → exec (.cxlCacheSnoop address data) s = .next s))

/-- R319, R353, R370 to R381: writes of BAR0: each register keeps the bits it has, and nothing else listed or not listed changes. -/
def Bar0Writes : Prop :=
  ∀ (s : State) (v : W64),
    let writes (o : Nat) : Host.Outcome State Fault Refusal := exec (.registerWrite o v) s
    let sets (o : Nat) (r : Regs) : Prop := writes o = .next { s with regs := r }
    (∀ o, o % 8 ≠ 0 → writes o = .next s) ∧
    (∀ n, n < 64 → writes (16 * n) = .next (writeRing s n (some v) none) ∧ writes (16 * n + 8) = .next (writeRing s n none (some v))) ∧
    writes 0x400 = .next (writeFq s v s.fq.w1) ∧ writes 0x408 = .next (writeFq s s.fq.w0 v) ∧ writes 0x410 = .next (writeVerdict s v) ∧
    (∀ o, (0x418 ≤ o ∧ o < 0x1000) ∨ (0x1008 ≤ o ∧ o < 0x2000) ∨ (0x3008 ≤ o ∧ o < 0x3100) ∨ (0x3300 ≤ o ∧ o < 0x3400) ∨
      (0x3500 ≤ o ∧ o < 0x3800) ∨ 0x3A00 ≤ o → writes o = .next s) ∧
    sets 0x1000 { s.regs with eavCtl := v.getLsbD 0 } ∧
    (∀ n, n < 256 →
      let x := rd s.regs.eavAct n (0, 0)
      sets (0x2000 + 16 * n) { s.regs with eavAct := wr s.regs.eavAct n (v &&& 0xFFFF0000007FFFFF, x.2) } ∧
      sets (0x2000 + 16 * n + 8) { s.regs with eavAct := wr s.regs.eavAct n (x.1, v &&& 0x00000000007FFFFF) }) ∧
    sets 0x3000 { s.regs with plkSelf := v.setWidth 6 } ∧
    (∀ n, n < 64 → sets (0x3100 + 8 * n) { s.regs with plkRoute := wr s.regs.plkRoute n (v &&& 0x80000000000FFFFF) } ∧
      sets (0x3800 + 8 * n) { s.regs with rdgTree := wr s.regs.rdgTree n (v &&& 0x800000003FFFFFFF) }) ∧
    (∀ n, n < 16 →
      let x := rd s.regs.plkLwin n (0, 0)
      sets (0x3400 + 16 * n) { s.regs with plkLwin := wr s.regs.plkLwin n (v &&& 0xFFFFE000007FFFFF, x.2) } ∧
      sets (0x3400 + 16 * n + 8) { s.regs with plkLwin := wr s.regs.plkLwin n (x.1, v &&& 0x000000FFFFFFFFFF) })

end Sys2Proof.Claims

/-- R286, R287, R319, R353, R370 to R381: links, ports, other packages and the host's registers. Model's own choices: assumptions
5, 12, 50, 80, 81 and 82. -/
def Obligations.LinkEvents : Prop := LinkErrors ∧ RemoteRequests ∧ Bar0Writes

/-- R258, R387 to R392: scrubbing, sparing, row repair and core repair. A spare that a core takes is one of its die's that no core has taken. -/
def Sys2Proof.Claims.RepairsServed : Prop :=
  (∀ (s : State) (stack address : Nat),
    exec (.patrolScrub stack address false) s = .next s ∧ exec (.patrolScrub stack address true) s = .next (noted s 0x140) ∧
    exec (.hbmChannelSparing stack true) s = .next (noted s 0x143) ∧
    exec (.hbmChannelSparing stack false) s =
      .next (noted (noted { s with hbmDegraded := wr s.hbmDegraded stack true } 0x144) 0x145)) ∧
  (∀ (s : State) (n : Nat),
    exec (.rowRepair .thatch n .repaired) s = .next (noted s 0x14B) ∧ exec (.rowRepair .thatch n .noSpare) s = .next (noted s 0x14C) ∧
    exec (.rowRepair .thatch n .wayDisabled) s = .next s ∧
    exec (.rowRepair .l2 n .repaired) s = .next (noted s 0x153) ∧ exec (.rowRepair .l2 n .noSpare) s = .next (noted s 0x154) ∧
    exec (.rowRepair .l2 n .wayDisabled) s = .next (noted (trimSlice { s with l2Ways := wr s.l2Ways n (rd s.l2Ways n 0 - 1) } n) 0x155)) ∧
  (∀ (s : State) (core : Nat) (spare : Bool),
    320 ≤ core ∨ (s.core core).offline = true ∨ spare = (rd s.spares (core / 160) []).isEmpty → exec (.coreRepair core spare) s = .next s) ∧
  (∀ (s : State) (core : Nat), core < 320 → (s.core core).offline = false →
    let die := core / 160
    let spares := rd s.spares die []
    (spares ≠ [] →
      let s1 := (logRepair s core true).bump.2
      ∃ n ∈ spares, exec (.coreRepair core true) s =
        .next ((stopForRepair { s1 with spares := wr s1.spares die (spares.filter (· != n)) } core).modCore core fun c =>
          { c with physical := n, tlb := [], dcache := [] })) ∧
    (spares = [] → exec (.coreRepair core false) s = .next (retireIndex (logRepair s core false) core)))

/-- R352, R364, R389, R390: range reports. A report is of an uncorrectable error of a unit, over whole granules. It names the tasks that have
read the bytes or whose dirty bytes they were, as the state shows them or the event says, those that live and those that have ended in a RUN in
progress; a scrub or host report names none. The first report of a graph task in a step runs its task or step again; any other delivers the fault:
as the end of the access, copy or stream op that read the bytes. A Sparge stream that read them stops as a faulted part. -/
def Sys2Proof.Claims.ErrorsServed : Prop :=
  (∀ (s : State) (r : LossReport),
    let unit (causes : List (BitVec 9)) (granule : Nat) : Prop := r.cause ∈ causes ∧ r.len ≠ 0 ∧ r.len % granule = 0
    let named := namedBy s r
    let s1 := loseDirty (loseStream s r) r
    let event := exec (.uncorrectableError r) s
    (¬unit [0x141, 0x142] 32 → ¬unit [0x149, 0x14A, 0x151, 0x152, 0x159] 128 → event = .next s) ∧
    (unit [0x141, 0x142] 32 ∨ unit [0x149, 0x14A, 0x151, 0x152, 0x159] 128 →
      (named = [] → event = .next (writeReport s1 0 0xFFFF 0 r 0)) ∧
      (named ≠ [] → event = .next (named.foldl (fun s id => affected s r named.length id) s1)))) ∧
  (∀ (s : State) (r : LossReport) (id : Nat),
    let shown : Prop :=
      (∃ n, r.core = some n ∧ (r.reader = .access ∨ r.reader = .copyOrStream) ∧ (s.core n).task = some id) ∨
      (∃ n, r.core = some n ∧ r.reader = .writeBack ∧ (s.core n).l1Task = some id) ∨
      (∃ ch p, r.core = none ∧ r.reader = .copyOrStream ∧ r.access = some ch ∧ partOn s ch = some p ∧
        id ∈ subscriberTasks s ((rd p.words 3 0).extractLsb' 0 7).toNat)
    id ∈ namedBy s r ↔ r.reader ≠ .scrub ∧ r.reader ≠ .host ∧ (shown ∨ id ∈ r.tasks) ∧
      ((s.taskAt id).isSome = true ∨ (pastTask s id).isSome = true ∨ (goneTask s id).isSome = true)) ∧
  (∀ (s : State) (r : LossReport) (ch : Nat) (p : Part), r.reader = .copyOrStream → r.core = none → r.access = some ch → partOn s ch = some p →
    loseStream s r = partFaulted (freeSparge s ch) p.id 0x0AE r.address) ∧
  (∀ (s : State) (t : Task) (r : LossReport) (n k : Nat), t.stat = .running ∨ t.stat = .saving → r.core = some n → r.access = some k →
    n ∈ t.cores →
    (r.kind ≠ 7 → deliverLoss s t r = loseAccess s n k (fun _ => true) (fun _ => some r.kind.toNat) 6) ∧
    (r.kind = 7 → streamInUse s n k = true → deliverLoss s t r = loseFibre s n k r.address)) ∧
  (∀ (s : State) (r : LossReport) (count id : Nat) (t : Task) (g : Graph), s.taskAt id = some t →
    let s1 := dropReported (writeReport s t.bay ((rd t.rec_ 0 0).extractLsb' 0 16).toNat t.step r count) t r
    s1.graphAt t.graph = some g →
    let first := t.kind = .graph ∧ g.stat = .running ∧ g.step = t.step ∧ g.reported.contains t.index = false
    (first → let s2 := noteReported (dropCaskEntry (dropMiss s1 t r) t) g.id t.index
      affected s r count id = if g.ckptStep = some g.step ∧ g.reran = false then
          kill (s2.modGraph g.id fun g => { g with rerun := true }) id .discard
        else kill s2 id .again) ∧
    (¬first → affected s r count id = deliverLoss s1 t r)) ∧
  (∀ (s : State) (r : LossReport) (count id : Nat), s.taskAt id = none →
    (pastTask s id = none → ∀ bay index step, goneTask s id = some (bay, index, step) →
      affected s r count id = writeReport s bay index step r count) ∧
    (∀ g index how, pastTask s id = some (g, index, how) →
      let s1 := writeReport s g.bay index g.step r count
      (g.reported.contains index = true → affected s r count id = s1) ∧
      (g.reported.contains index = false →
        ∀ s2 b, seqRead (noteReported s1 g.id index) g.bay (g.tasksAddr + w64 (64 * index)) 64 64 = (s2, some b) →
        let s3 := dropCaskEntry s2
          { id := id, bay := g.bay, graph := g.id, run := g.run, kind := .graph, index := index, step := g.step, rec_ := recordOf b }
        affected s r count id = if g.ckptStep = some g.step ∧ g.reran = false then s3.modGraph g.id fun g => { g with rerun := true }
          else runAgain s3 g id index how)))

/-- R316, R334, R393 to R395: firmware updates, recalibration, clock steps, shutdown and reset. A checked image starts when the old one's stream
stands at a bundle boundary; a recalibration stalls a core that holds a task at its next boundary; a clock goes one step at a time; a
thermal shutdown kills every bay below bay 0 and every task, and the package powers down when no core holds one. -/
def Sys2Proof.Claims.PackageServed : Prop :=
  (∀ (s : State) (core : Nat) (image digest : List Byte),
    let update := exec (.firmwareUpdate core image digest) s
    let stopped := s.modCore core fun c =>
      { c with
        e := { c.e with
          emitQ := c.e.emitQ.filter fun x => decide (x.ctx = .user)
          slotQ := c.e.slotQ.map (·.filter fun o => decide (o.info.ctx = .user)) }
        dmiss := c.dmiss.filter fun d => decide (d.entry.ctx = .user)
        fwNext := some image }
    (320 ≤ core → update = .next s) ∧
    (core < 320 → shake256 image ≠ digest → update = .next (noted s 0x179)) ∧
    (core < 320 → shake256 image = digest → update = .next (startImage core stopped))) ∧
  (∀ (s : State) (core : Nat), core < 320 →
    ((s.core core).fwNext = none → startImage core s = s) ∧
    (∀ image, (s.core core).fwNext = some image →
      (firmwareRuns (s.core core).e = true → startImage core s = s) ∧
      (firmwareRuns (s.core core).e = false → startImage core s = noted
        { s.modCore core (fun c => { c with image := image, fwNext := none, fw := { pc := Config.firmwareEntry image } }) with
          epoch := s.epoch + 1 } 0x17B))) ∧
  (∀ (s : State) (die cluster cycles : Nat),
    let first := 160 * die + 8 * cluster
    (2 ≤ die ∨ 20 ≤ cluster ∨ 24000 < cycles → exec (.recalibration die cluster cycles) s = .next s) ∧
    (die < 2 → cluster < 20 → cycles ≤ 24000 → exec (.recalibration die cluster cycles) s = .next (noted ((List.range 8).foldl (fun t i =>
      t.modCore (first + i) fun c => askStall c t.now cycles) s) 0x173))) ∧
  (∀ (c : Core) (now d : Nat),
    (c.task = none → askStall c now d = stallCore c now d) ∧
    (c.task ≠ none → ∃ b x, askStall c now d = { c with stallWant := some (b, x) } ∧ d ≤ x ∧
      (c.stallWant = none → b = now ∧ x = d) ∧ ∀ b' x', c.stallWant = some (b', x') → b = b' ∧ x = max x' d)) ∧
  (∀ (s : State) (n : Nat), n < 320 →
    ((s.core n).stallWant = none ∨ betweenBeats (s.core n).e = true → startStall n s = s) ∧
    (betweenBeats (s.core n).e = false → ∀ b d, (s.core n).stallWant = some (b, d) →
      startStall n s = s.modCore n fun c => stallCore { c with stallWant := none } (s.now + 1) d)) ∧
  (∀ (c : Core) (now d : Nat), (stallCore c now d).stallUntil = max c.stallUntil (now + d) ∧
    (stallCore c now d).e.landings =
      (c.e.landings.map fun l => { l with at_ := l.at_ + (max c.stallUntil (now + d) - max now c.stallUntil) }) ∧
    (stallCore c now d).scratch = c.scratch ∧ (stallCore c now d).loft = c.loft) ∧
  (∀ (s : State) (die : Nat) (step : ClockStep) (cause : BitVec 9),
    let s1 := { s with clock := wr s.clock die step }
    let down := cause = 0x170 ∨ cause = 0x171 ∨ cause = 0x175
    let old := clockCode (rd s.clock die .full)
    let change := exec (.clockStep die step cause) s
    (die < 2 → clockCode step = old + 1 → down → change = .next (noted s1 cause)) ∧
    (die < 2 → clockCode step + 1 = old → cause = 0 → change = .next s1) ∧
    (2 ≤ die ∨ (¬(clockCode step = old + 1 ∧ down) ∧ ¬(clockCode step + 1 = old ∧ cause = 0)) → change = .next s)) ∧
  clockCode .full = 0 ∧ clockCode .mhz1050 = 1 ∧ clockCode .mhz900 = 2 ∧ clockCode .mhz600 = 3 ∧
  (∀ (s : State) (die : Nat),
    let below := (s.bays.filter fun b => b.bay != 0 && b.parent == 0).map (·.bay)
    let s1 := below.foldl (fun s n => killBay s n 2) s
    let s2 := { s1 with
      runs := s1.runs.map fun (r : Run) => { r with killed := true }
      graphs := s1.graphs.map fun (g : Graph) => { g with killed := true } }
    let s3 := { (s2.tasks.map (·.id)).foldl (fun s id => kill s id .record) s2 with shutdown := some die }
    exec (.thermalShutdown die) s = .next (powerOff s3)) ∧
  (∀ (s : State) (die : Nat), s.shutdown = some die →
    ((∃ n, n < 320 ∧ (s.core n).task ≠ none) → powerOff s = s) ∧
    ((∀ n, n < 320 → (s.core n).task = none) →
      powerOff s = sends { s with shutdown := none, powered := Vector.replicate 2 false } (.powerDown die))) ∧
  (∀ (s : State), exec .packageReset s =
    .next { State.reset with mem := ((s.l2.map (·.pa)).foldl l2Evict s).mem, fresh := s.fresh, sent := s.sent })

/-- R396 to R398: measurements, the signed manifest and telemetry. A measurement is the SHAKE256 digest of what its index measures, that of index 15
the images in force in the order of the cores; the keys and signatures of the boot chain are free. -/
def Sys2Proof.Claims.PackageAnswers : Prop :=
  (∀ (s : State) (index : Nat),
    (1 ≤ index → index ≤ 15 → exec (.getMeasurements index) s = .next (sends s (.doe (shake256 (measured s index))))) ∧
    (index = 0x40 → ∃ sig, sig.length = 114 ∧ exec (.getMeasurements index) s = .next (sends s (.doe (s.manifest.flatten ++ sig)))) ∧
    (index = 0 ∨ (15 < index ∧ index ≠ 0x40) → exec (.getMeasurements index) s = .next s)) ∧
  (∀ (s : State), exec .telemetryRead s = .next (sends s (.doe (telemetryBytes s))))

/-- R316, R334, R352, R364, R387 to R398: service over hours. Model's own choices: assumptions 1 (what a package reset keeps and writes back),
15, 16, 17, 26, 82, 83, 91, 113 and 115. -/
def Obligations.ServiceEvents : Prop := RepairsServed ∧ ErrorsServed ∧ PackageServed ∧ PackageAnswers

/-! ### Encodings, steps, reset, memory and frames -/

namespace Sys2Proof.Claims

/-- The generator instructions that touch their own context alone, with the g register each writes (R108 to R114, R121, R123). A GPREP also
starts a fetch (R50), whose whole next state GeneratorControlFlow gives. -/
def gDest : Instr → Option (Option Reg)
  | .gadd d _ _ | .gsub d _ _ | .gmul d _ _ | .gmulh d _ _ | .gmulhn d _ _ | .gdiv d _ _ | .gdivn d _ _ | .grem d _ _ | .gremn d _ _
  | .gand d _ _ | .gor d _ _ | .gxor d _ _ | .gshl d _ _ | .gshr d _ _ | .gsra d _ _ | .gmin d _ _ | .gmax d _ _ => some (some d)
  | .gaddi d _ _ | .gandi d _ _ | .gori d _ _ | .gxori d _ _ | .gshli d _ _ | .gshri d _ _ | .gsrai d _ _ => some (some d)
  | .gli d _ | .glih d _ | .gjal d _ | .gjalr d _ | .glpget d _ _ | .gms d _ | .cget d _ => some (some d)
  | .gcmp _ _ _ _ | .gcmpi _ _ _ _ | .gbr _ | .gbrf _ | .gnop | .cset _ _ => some none
  | _ => none

/-- Conditions on a CPWP: its FN tells it from a CPWP.OOB, which has the same opcode (R212). -/
def fnFits : Instr → Prop
  | .cpwp f => f.fn.getLsbD 0 = false
  | .cpwpOob f => f.fn.getLsbD 0 = true
  | _ => True

/-- The bits of a slot field (R73). -/
def slotBits (sl : Slot) : Nat :=
  match sl with
  | .s => 48
  | .v0 | .v1 => 64
  | .m => 40
  | .x0 | .x1 => 56

end Sys2Proof.Claims

/-- R83, R95, R171, R196, R213: the words that the spec works out from its encodings decode to the instructions it gives them for. -/
def Obligations.WorkedWords : Prop :=
  decodeGen 0x00000030 = .ok (.emit 0) ∧ decodeGen 0x000001B0 = .ok (.emit 3) ∧ decodeGen 0xFFFE5291 = .ok (.gaddi 5 5 (-1)) ∧
  decodeGen 0x00012345000003C0 = .ok (.gli 7 0x12345) ∧ decodeGen 0 = .ok (.gadd 0 0 0) ∧
  decodeSlot .s 0x00A004014502 = some (.saddi { tagw := 0, taga := 0b1010, pred := 0, imm := 64, a := 5, dst := 5 }) ∧
  decodeSlot .v0 0x000000101000C622 = some (.vfmul { tagw := 0, taga := 0, xtra := 0, beats := 0, neg := 0, sat := 0, rnd := 0, etype := 8, msk := 0, bk := 1, c := 0, b := 0, a := 6, dst := 6 }) ∧
  decodeSlot .v0 0x00D1C01050004832 = some (.vtopk { tagw := 0, taga := 0b1101, xtra := 7, beats := 0, neg := 0, sat := 0, rnd := 0, etype := 8, msk := 1, bk := 1, c := 0, b := 0, a := 2, dst := 8 }) ∧
  decodeSlot .m 0x00082403E3 = some (.macc { tagw := 0, taga := 0, mode := 0b10, bsrc := 0, ma := 2, fb := 1, fa := 0, sel := 0, beats := 31 }) ∧
  decodeSlot .x0 0x0400000018A486 = some (.sst { tagw := 0b00000100, taga := 0, pol := 0, col := 0, ofs := 3, base := 5, reg := 9 }) ∧
  decodeSlot .x0 0x01000000594110 = some (.cpgo { tagw := 1, taga := 0, rsv := 0, sc := 0, q := 0, tmo := 0, fn := 0, c := 11, b := 10, a := 2 })

/-- R94 to R96: for every well-formed generator instruction, decoding its word gives it back, with every operand at every value;
and a word that decodes has no other reading: encoding what it decodes to gives its bits. Model's own choices: assumption 11. -/
def Obligations.GeneratorRoundTrip : Prop :=
  (∀ (i : Instr) (len w : Nat), i.wf = true → encodeGen i = some (len, w) →
    decodeGen w = .ok i ∧ genLength w = len ∧ w < 2 ^ (8 * len)) ∧
  (∀ (i : Instr) (w : Nat), decodeGen w = .ok i → i.wf = true ∧ encodeGen i = some (genLength w, w % 2 ^ (8 * genLength w)))

/-- R77 to R81, R97 to R100, R212: for every op of a slot, decoding its field gives it back, with every field at every value; and
encoding what a field decodes to gives its bits. -/
def Obligations.SlotRoundTrip : Prop :=
  (∀ (sl : Slot) (i : Instr) (w : Nat), fnFits i → encodeSlot sl i = some w → decodeSlot sl w = some i ∧ w < 2 ^ slotBits sl) ∧
  (∀ (sl : Slot) (i : Instr) (w : Nat), decodeSlot sl w = some i → fnFits i ∧ encodeSlot sl i = some (w % 2 ^ slotBits sl))

/-- R5, R94, R95, R101, R395: a step of a generator context fetches the word at its program counter and executes the instruction that it
decodes to, or raises the fault of what it is; a step of a slot executes the op at the head of its queue. Steps that are no
instruction words execute as they stand, and the end of the schedule lays out the moves of a new cycle. Nothing moves on a die in a
period of the reference without an edge of its clock, whose cores then stand still. Model's own choices: assumptions 3, 9, 19, 39,
91 and 105 (a context whose read may still fault tries no instruction). -/
def Obligations.StepRunsDecoded : Prop :=
  (∀ (s : State) (n : Nat) (x : Ctx) (r : List Move), s.sched = .gen n x :: r → rd s.powered (n / 160) false = true →
    rd s.clockEdge (n / 160) true = true →
    let counted (t u : State) : State :=
      if x = .firmware ∧ hasIssued t u n x = true then u.modCore n fun c => { c with fwUsed := c.fwUsed + 1 } else u
    let s1 := { s with sched := r, cur := { core := n, ctx := x } }
    let ready := coreRuns s1 n x = true ∧ (curG s1).wait = none ∧ (curG s1).readyAt ≤ s.now ∧ ∀ l ∈ (curG s1).loads, l.firm = false
    (¬ready → step s = .next s1) ∧
    (ready → ∀ s2 e, fetch s1 n (curG s1).pc = (s2, .inr e) → step s = .next (counted s2 (genFault s2 e.cause e.addr e.det0 e.det1))) ∧
    (ready → ∀ s2 w, fetch s1 n (curG s1).pc = (s2, .inl w) →
      let s3 := { s2 with cur := { s2.cur with bits := BitVec.ofNat 64 w } }
      (∀ i, decodeGen w = .ok i → (x = .user → step s = exec i s3) ∧
        (∀ t, exec i s3 = .next t → step s = .next (counted s3 t)) ∧ ((∀ t, exec i s3 ≠ .next t) → step s = exec i s3)) ∧
      (∀ e, decodeGen w = .bad e → step s = .next (counted s3 (genFault s3 (match e with
        | .reservedOpcode => 0x040 | .reservedFunction => 0x041 | .reservedField => 0x042 | .steerInvalid => 0x048) 0 0 0))))) ∧
  (∀ (s : State) (n : Nat) (sl : Slot) (r : List Move), s.sched = .slot n sl :: r → rd s.powered (n / 160) false = true →
    rd s.clockEdge (n / 160) true = true →
    let s1 := { s with sched := r }
    (headOp s1 n sl = none → step s = .next s1) ∧
    (∀ o, headOp s1 n sl = some o →
      let s2 := { s1 with cur := { core := n, ctx := o.info.ctx, slot := sl, info := o.info, bits := o.bits } }
      (∀ i, decodeSlot sl o.bits.toNat = some i → step s = exec i s2) ∧
      (decodeSlot sl o.bits.toNat = none → streamRuns s2 n = true → unitReady s2 n sl = true →
        (s2.core n).e.tags &&& fieldTagw sl o.bits = 0 → step s = opFaults s2 0))) ∧
  (∀ (s : State) (i : Instr) (r : List Move), s.sched = .op i :: r → step s = exec i { s with sched := r }) ∧
  (∀ (s : State) (r : List Move), s.sched = .tick :: r → ∃ t, step s = .next t ∧ t.now = s.now + 1 ∧ t.mem = s.mem ∧ t.sched = r ∧
    ∀ n, n < 320 → rd s.clockEdge (n / 160) true = false → t.core n = holdCore (s.core n) 1) ∧
  (∀ (s : State), s.sched = [] → step s = .next { s with sched := plan s }) ∧
  (∀ (s : State) (n : Nat) (x : Ctx) (r : List Move), s.sched = .gen n x :: r → rd s.powered (n / 160) false = false →
    step s = .fault .poweredDown) ∧
  (∀ (s : State) (n : Nat) (m : Move) (r : List Move), s.sched = m :: r → ((∃ x, m = .gen n x) ∨ (∃ sl, m = .slot n sl)) →
    rd s.powered (n / 160) false = true → rd s.clockEdge (n / 160) true = false → step s = .next { s with sched := r })

/-- R21, R46, R47, R66, R223, R257, R316, R319, R329, R339, R355, R370 to R380: what reset leaves, where the spec gives the value. Model's own choice:
assumption 1 (that the L1s and the dictionary caches are empty at a package reset, which the spec says of a task's start alone, R72 and R291). -/
def Obligations.ResetState : Prop :=
  let s := State.reset
  s.now = 0 ∧ s.tasks = [] ∧ s.runs = [] ∧ s.graphs = [] ∧ s.packets = [] ∧ s.bays = [Bay.root] ∧ s.regs.dspAge = 65536 ∧
  (∀ n, rd s.rings n {} = {}) ∧ (∀ n, rd s.seqs n none = none) ∧ (∀ n, (s.barrier n).target = 0) ∧ s.regs.eavCtl = false ∧
  s.fq.w0 = 0 ∧ s.fq.w1 = 0 ∧ (∀ n, rd s.regs.l2w n 0 = 0) ∧ (∀ n, rd s.cask n [] = []) ∧
  (∀ n, n < 320 →
    let c := s.core n
    let e := c.e
    c.task = none ∧ c.stop = none ∧ c.fwShare = 4 ∧ c.l1 = [] ∧ c.dcache = [] ∧ e.emitQ = [] ∧ e.tags = 0 ∧
    e.cL = 0 ∧ e.cS = 0 ∧ e.cC = 0 ∧ e.cT = 0 ∧ e.landings = [] ∧ e.snapshot = [] ∧ e.probe = 0 ∧ e.alatch = none ∧ e.gq = [] ∧
    (∀ k, sReg e k = 0 ∧ vReg e k = 0 ∧ mReg e k = BitVec.allOnes 512 ∧ rd e.ma k 0 = 0 ∧ (k < 16 → qReg e k = decide (k = 0))) ∧
    (∀ k, k < 4 → rd e.fm k 0 = 6 ∧ rd e.oq k [] = []) ∧ (∀ sl, slotQ e sl = []) ∧
    ∀ x, let g := c.gctx x
      (∀ r, gReg g r = 0) ∧ (∀ k, rd g.k k {} = {}) ∧ (∀ k, (rd g.lp k {}).active = false) ∧ (∀ k, rd g.c k 0 = 0) ∧
        (∀ k, (rd g.fb k {}).valid = false) ∧ g.hbase = 0 ∧ g.tmo = BitVec.allOnes 64 ∧ g.eprog = 0 ∧ g.handler = false)

/-- The model's canonical form of a memory (assumption 2 says what an unlisted byte reads as): a read after a write gives what was written there and
what stood before elsewhere, zeroing a range reads so, equal memories are equal data, and the memories after reset have the form. -/
def Obligations.MemoryCanonical : Prop :=
  (∀ (m : Mem) (a x : Nat) (l : List Byte), Memory.wf m = true →
    memGet (memWrite m a l) x = if h : a ≤ x ∧ x < a + l.length then l[x - a]'(by omega) else memGet m x) ∧
  (∀ (m : Mem) (a n x : Nat), Memory.wf m = true → memGet (zeroRange m a n) x = if a ≤ x ∧ x < a + n then 0 else memGet m x) ∧
  (∀ (m : Mem) (a n i : Nat), i < n → (memRead m a n)[i]? = some (memGet m (a + i))) ∧
  (∀ (m m' : Mem), Memory.wf m = true → Memory.wf m' = true → (∀ a, memGet m a = memGet m' a) → m = m') ∧
  (∀ (a : Nat), memGet [] a = 0) ∧ State.reset.memWf

/-- Every step keeps every memory of the package in canonical form (the model's invariant). Model's own choices: assumption 2. -/
def Obligations.MemoryStaysCanonical : Prop :=
  ∀ (s t : State), s.memWf → step s = .next t → t.memWf

/-- R295, R302, R395: every instruction, op and event has an effect in every state: its meaning answers a next state, its
exceptions included, and a step stops only where a core would move whose die has powered down. Model's own choices: assumptions
88 and 89. -/
def Obligations.EveryStepAnswers : Prop :=
  (∀ (i : Instr) (s : State), ∃ t, exec i s = .next t) ∧
  (∀ (s : State), (∃ t, step s = .next t) ∨ (step s = .fault .poweredDown ∧ ∃ n m r, s.sched = m :: r ∧
    ((∃ x, m = .gen n x) ∨ m = .port n ∨ (∃ sl, m = .slot n sl) ∨ m = .begin n ∨ m = .finish n ∨ ∃ l, m = .l1WriteBack n l) ∧ rd s.powered (n / 160) false = false))

/-- R103, R108 to R114, R121, R123: the frame of the generator instructions that touch their own context alone: whatever one answers,
memory, every other core and everything outside its context keep their values, and so does every g register but its own. -/
def Obligations.GeneratorFrame : Prop :=
  ∀ (s t : State) (i : Instr) (dest : Option Reg), gDest i = some dest → s.cur.ctx = .user → exec i s = .next t →
    let n := s.cur.core
    { t with cores := s.cores } = s ∧ (∀ k, k ≠ n → t.core k = s.core k) ∧
    (t.core n).scratch = (s.core n).scratch ∧ (t.core n).loft = (s.core n).loft ∧ (t.core n).l1 = (s.core n).l1 ∧
    (t.core n).fw = (s.core n).fw ∧ { (t.core n).e with user := (s.core n).e.user } = (s.core n).e ∧
    (∀ r, dest ≠ some r → gReg (curG t) r = gReg (curG s) r) ∧
    (curG t).fb = (curG s).fb ∧ (curG t).handler = (curG s).handler ∧ (curG t).loads = (curG s).loads ∧
    (curG t).hbase = (curG s).hbase ∧ (curG t).tmo = (curG s).tmo ∧ (curG t).eseq = (curG s).eseq ∧
    (dest ≠ none → (curG t).k = (curG s).k ∧ (curG t).c = (curG s).c)

namespace Sys2Proof.Claims

/-- The general registers of an engine: s, q, v, m and ma. -/
def SameRegisters (e e' : Engine) : Prop :=
  ∀ k, sReg e' k = sReg e k ∧ qReg e' k = qReg e k ∧ vReg e' k = vReg e k ∧ mReg e' k = mReg e k ∧ rd e'.ma k 0 = rd e.ma k 0

/-- A scratchpad as the stores that its core's cycle ends with leave it (R200). -/
def dueScratch (c : Core) : Mem := c.endStores.foldl (fun m p => memSet m p.1 p.2) c.scratch

/-- The spans that an op of the X slots stores to, addresses and lengths as it computes them (R201, R217, R243); none for AMO, PREF, the ops that
wait and those of other slots. -/
def storesTo (s : State) (i : Instr) : Option (List (W64 × Nat)) :=
  match i with
  | .vld _ | .sld _ | .vlds _ | .invl _ | .wbl _ | .gapush _ | .fload _ | .xnop _ | .cpgo _ | .cpstop _ | .cpwp _ | .cpwpOob _ | .wssub _
  | .wsuns _ | .rel _ | .bind _ | .unbind _ | .barr _ | .bexp _ | .fopen _ | .fclose _ | .fnext _ | .fint _ | .funi _ | .fskip _ | .fchild _
  | .fpos _ | .fval _ | .fend _ => some []
  | .vst f => some [(xmPlace s f 512, 512)]
  | .sst f => some [(xmPlace s f 8, 8)]
  | .vsts f => some (strided s f)
  | .scpush f =>
    some ((List.range (sReg (curE s) f.fn.toNat).toNat).map fun i =>
      (sReg (curE s) f.b.toNat + BitVec.ofNat 64 (lane (vReg (curE s) f.a.toNat).toNat 32 i), 2 ^ f.c.toNat))
  | .fsave f => some [(sReg (curE s) f.b.toNat, 64)]
  | _ => none

/-- A byte of the package's memory lies at a physical place of some length. -/
def coversPa (pa len x : Nat) : Prop := ∃ i, i < len ∧ (x = ownPa pa + i ∨ x = ownPa (pa + i))

/-- A piece of an access covers a byte of the package's memory, or of a core's Loft. -/
def coversMem (p : Piece) (x : Nat) : Prop := ∃ pa, p.loc = .phys pa ∧ coversPa pa p.len x
def coversLoft (l : Loc) (len k y : Nat) : Prop := ∃ off, l = .loft k off ∧ off ≤ y ∧ y < off + len

/-- A core has written a byte of memory and not yet written it back: it is dirty in its L1, or a buffered store covers it (R253, R273). -/
def unwritten (c : Core) (x : Nat) : Prop :=
  (∃ l ∈ c.l1, ∃ i, i < 128 ∧ l.dirty.getLsbD i = true ∧ coversPa (l.pa * 128 + i) 1 x) ∨
    ∃ w ∈ c.wbuf, ∃ pa, w.loc = .phys pa ∧ coversPa pa w.data.length x

/-- The L2's copy of a byte, when it is clean, is what memory holds: nothing has been written behind it (R255, R288). -/
def current (s : State) (x : Nat) : Prop :=
  ∀ e, l2Sector s (x / 64) = some e → e.dirty = true ∨ e.back.toNat / 2 ^ (8 * (x % 64)) % 256 = (memGet s.mem x).toNat

end Sys2Proof.Claims

/-- R62, R139 to R196: the frame of the ops of the S, V and M slots that the user context has emitted: at issue, whatever one answers, memory, every other
core (but for the banks of a gang leader's scratchpad that a member's latch op holds), the scratchpad, the generator contexts and the s, q, v,
m and ma registers keep their values: results land later. -/
def Sys2Proof.Claims.ArithmeticFrame : Prop :=
  ∀ (s t : State) (i : Instr), (encodeSlot .s i).isSome = true ∨ (encodeSlot .v0 i).isSome = true ∨ (encodeSlot .m i).isSome = true →
    s.cur.ctx = .user → s.cur.info.ctx = .user → exec i s = .next t →
    let n := s.cur.core
    { t with cores := s.cores, fresh := s.fresh } = s ∧
    (∀ k, k ≠ n → t.core k = { s.core k with e := { (s.core k).e with mBusy := (t.core k).e.mBusy } }) ∧
    (t.core n).scratch = (s.core n).scratch ∧ (t.core n).endStores = (s.core n).endStores ∧ (t.core n).loft = (s.core n).loft ∧
    (t.core n).l1 = (s.core n).l1 ∧ (t.core n).wbuf = (s.core n).wbuf ∧
    (t.core n).fw = (s.core n).fw ∧ (t.core n).e.user = (s.core n).e.user ∧ SameRegisters (s.core n).e (t.core n).e

/-- R197 to R206, R212, R214, R217 to R227, R237 to R243: the frame of the ops of the X slots, but for AMO, PREF and those that wait, that the user
context has emitted: at issue, whatever one answers, memory, the Lofts, every other core, the L1, the generator contexts and the s, q, v, m and
ma registers keep their values, and of the scratchpad nothing but the bytes that the op stores to is due to be written as the cycle ends. -/
def Sys2Proof.Claims.TransferFrame : Prop :=
  ∀ (s t : State) (i : Instr) (spans : List (W64 × Nat)), storesTo s i = some spans → s.cur.ctx = .user → s.cur.info.ctx = .user → s.memWf →
    exec i s = .next t →
    let n := s.cur.core
    t.mem = s.mem ∧ (∀ k, k ≠ n → t.core k = s.core k) ∧
    (t.core n).scratch = (s.core n).scratch ∧ (t.core n).loft = (s.core n).loft ∧ (t.core n).l1 = (s.core n).l1 ∧ (t.core n).wbuf = (s.core n).wbuf ∧
    (t.core n).fw = (s.core n).fw ∧ (t.core n).e.user = (s.core n).e.user ∧ SameRegisters (s.core n).e (t.core n).e ∧
    ∀ x, (∀ p ∈ spans, ¬(p.1.toNat / 2 ^ 60 = 1 ∧ p.1.toNat % 2 ^ 20 ≤ x ∧ x < p.1.toNat % 2 ^ 20 + p.2)) →
      memGet (dueScratch (t.core n)) x = memGet (dueScratch (s.core n)) x

/-- R199, R200, R203, R209, R273: the frame of stores as they are performed, of a task without a shadow: a counted store, the older ones of its slot being
performed, and a granule of a copy change no byte of a Loft, a scratchpad or memory but those of their own places, those that the core has written
and not yet written back, and those of which the L2 held an older copy. -/
def Sys2Proof.Claims.StoreFrame : Prop :=
  (∀ (s t : State) (core id : Nat) (a : XAcc), core < 320 → s.memWf → shadowTask s (s.core core).task = none →
    (s.core core).e.xacc.find? (fun x => x.id = id) = some a → a.kind = .store → a.info.ctx = .user →
    (∀ x ∈ (s.core core).e.xacc, x.slot = a.slot → x.id ≤ a.id → x = a ∨ x.done = true) →
    exec (.storePerformed core id) s = .next t →
    (∀ x, (∀ p ∈ a.pieces, ¬coversMem p x) → ¬unwritten (s.core core) x → current s x → memGet t.mem x = memGet s.mem x) ∧
    (∀ k y, k < 320 → (∀ p ∈ a.pieces, ¬coversLoft p.loc p.len k y) → (∀ w ∈ (s.core core).wbuf, ¬coversLoft w.loc w.data.length k y) →
      memGet (t.core k).loft y = memGet (s.core k).loft y) ∧
    (∀ k y, k < 320 → (∀ p ∈ a.pieces, ∀ off, p.loc = .scratch off → k = core → ¬(off ≤ y ∧ y < off + p.len)) →
      memGet (t.core k).scratch y = memGet (s.core k).scratch y) ∧
    (∀ k, k < 320 → SameRegisters (s.core k).e (t.core k).e)) ∧
  (∀ (s t : State) (core ch id n : Nat) (x : Copy) (g : Loc × BitVec 32 × Bool), core < 320 → s.memWf →
    shadowTask s (s.core core).task = none → (chanOf s core ch).copies.find? (fun y => y.k = id) = some x → x.gran[n]? = some g →
    exec (.copyDelivery core ch id n) s = .next t →
    let at_ : Piece := { va := 0, loc := g.1, len := 4, pol := .uc, group := 0 }
    (∀ y, ¬coversMem at_ y → current s y → memGet t.mem y = memGet s.mem y) ∧
    (∀ k y, k < 320 → ¬coversLoft g.1 4 k y → memGet (t.core k).loft y = memGet (s.core k).loft y) ∧
    (∀ k y, k < 320 → (∀ off, g.1 = .scratch off → k = core → ¬(off ≤ y ∧ y < off + 4)) →
      memGet (t.core k).scratch y = memGet (s.core k).scratch y) ∧
    (∀ k, k < 320 → (t.core k).l1 = (s.core k).l1 ∧ SameRegisters (s.core k).e (t.core k).e))

/-- R62, R139 to R217, R243, R273: frames of the slot ops: at issue, and of stores and copies as they are performed. Model's own choices: assumptions 41
and 104. -/
def Obligations.SlotFrame : Prop := ArithmeticFrame ∧ TransferFrame ∧ StoreFrame

/-! ### Statements of several parts -/

/-- R108, R109: every arithmetic, logic, shift and constant instruction of the generator. -/
def Obligations.GeneratorArithmetic : Prop := GeneratorRegisterForms ∧ GeneratorImmediateForms ∧ GeneratorShiftAmounts

/-- R50, R51, R53, R95, R110 to R112: compares, prepared branches, branches and jumps. -/
def Obligations.GeneratorControlFlow : Prop := GeneratorComparesAndPrepares ∧ GeneratorBranches ∧ GeneratorJumps

/-- R52 to R54, R113, R114: starting loops, and the loop registers as they are read and written (the count 0 is the model's
choice, assumption 25). -/
def Obligations.GeneratorLoopControl : Prop := GeneratorLoops ∧ LoopRegisters

/-- R121, R123, R136: step, compose and control registers. Model's own choices: assumption 6 (CLDD reads its entry in the Loft in the cycle
in which it issues). -/
def Obligations.GeneratorSpecialRegisters : Prop := StepAndComposeRegisters ∧ ControlRegisters

/-- R117, R103: atomics and the replies of generator reads. Model's own choices: assumptions 6, 55 and 105. -/
def Obligations.GeneratorAtomics : Prop := AtomicValues ∧ AtomicsAndReplies

/-- R55, R119, R120: the emit instructions. Model's own choices: assumption 94 (EMITN's index range, 0x05A, before its patch registers,
0x059). -/
def Obligations.Emission : Prop := EmitOneEntry ∧ EmitManyEntries ∧ EmitNextEntry ∧ EmitStream

/-- R104, R105, R124, R126: waits of the generator, from issue to completion or expiry. Model's own choices: assumption 6 (GSYNC's MEM
always holds, since generator stores and atomics are performed at their issue). -/
def Obligations.GeneratorWaits : Prop := WaitsAtIssue ∧ JoinStatusWords ∧ WaitsEnd

/-- R127, R346, R347, R384: task queues. Model's own choices: assumption 57. -/
def Obligations.TaskQueueing : Prop := QueueInstructionsIssue ∧ TaskQueues

/-- R128, R129, R137, R138: barriers, returns, fences and yields of the generator. Model's own choices: assumptions 6, 46, 58 and
64. -/
def Obligations.TaskEnds : Prop := GeneratorBarriers ∧ TaskReturn ∧ FenceAndYield

/-- R131 to R133, R354 to R363: the Cask instructions. Model's own choices: assumption 59. -/
def Obligations.CaskInstructions : Prop := CaskDecision ∧ CaskStoreAndSkip

/-- R143, R146, R147: the S ops on masks and channel fields, and SWAIT. -/
def Obligations.ScalarStateOps : Prop := ScalarMask ∧ ScalarChannelField ∧ ScalarWait

/-- R150 to R156: integer lane ops, selects and moves. Model's own choices: assumption 85 (a batch vector as second operand, BK 10, is read
as lanes of the op's width). -/
def Obligations.VectorLaneOps : Prop := VectorElementwiseInteger ∧ VectorSelectAndMove

/-- R153 to R160: widening, comparing and lane-moving ops. Model's own choices: assumption 85 (a batch vector as second operand, BK 10, is
read as lanes of the op's width). -/
def Obligations.VectorShapeOps : Prop := VectorWidenAndCompare ∧ VectorMoveLanes

/-- R171 to R174: VTOPK, VRAND, CKPROBE and VPOPQ. Model's own choices: assumption 85. -/
def Obligations.VectorSelectionOps : Prop := VectorTopK ∧ RandomProbeAndPop

/-- R167 to R170: conversions, packing and unpacking. Model's own choices: assumptions 84 and 85. -/
def Obligations.VectorFormats : Prop := VectorConversions ∧ BlockPacking

/-- R185 to R188: MACC, from issue to its beats. Model's own choices: assumptions 47, 48, 51 and 84. -/
def Obligations.MatrixAccumulate : Prop := MatrixAccumulateIssues ∧ MatrixAccumulateBeats

/-- R199 to R202, R297: counted accesses as they complete. Model's own choices: assumptions 7 and 20. -/
def Obligations.AccessCompletion : Prop := CountedCompletions ∧ AccessesPerformed

/-- R198, R218 to R226: the waits of the X slots. Model's own choices: assumptions 7 (an ACQ performs the older
accesses of its slot first), 21, 44 and 46. -/
def Obligations.TransferWaiting : Prop := TransferWaits ∧ TransferWaitsEnd

/-- R206 to R213, R223 to R225, R376 to R378: barriers and copies as they proceed. Model's own choices: assumptions 7, 35, 43,
44, 49 and 55. -/
def Obligations.TransferEvents : Prop := BarrierEvents ∧ CopyEvents

/-- R57 to R65, R73 to R75, R299: bundles as they expand and results as they land. Model's own choices: assumptions 31, 38, 40 and
41. -/
def Obligations.EngineStream : Prop := BundlesExpand ∧ ResultsLand

/-- R229 to R247: fibre ops, from issue through examination, steps and openings to completion. Model's own choices: assumptions 13, 22 and 52. -/
def Obligations.FibreOps : Prop := FibreOpsIssue ∧ FibreExamination ∧ FibreSteps ∧ FibreOpenings ∧ FibreOpsRun
end

