-- ==== Sys2Proof/Laws/Dispatch.lean ====
section
/-! SUPPORT. What `exec` answers for each constructor: its own meaning. -/

namespace Sys2Proof.Machine

theorem exec_gadd (d a b : Reg) (s : State) : exec (.gadd d a b) s = execGadd d a b s := rfl
theorem exec_gsub (d a b : Reg) (s : State) : exec (.gsub d a b) s = execGsub d a b s := rfl
theorem exec_gmul (d a b : Reg) (s : State) : exec (.gmul d a b) s = execGmul d a b s := rfl
theorem exec_gmulh (d a b : Reg) (s : State) : exec (.gmulh d a b) s = execGmulh d a b s := rfl
theorem exec_gmulhn (d a b : Reg) (s : State) : exec (.gmulhn d a b) s = execGmulhn d a b s := rfl
theorem exec_gdiv (d a b : Reg) (s : State) : exec (.gdiv d a b) s = execGdiv d a b s := rfl
theorem exec_gdivn (d a b : Reg) (s : State) : exec (.gdivn d a b) s = execGdivn d a b s := rfl
theorem exec_grem (d a b : Reg) (s : State) : exec (.grem d a b) s = execGrem d a b s := rfl
theorem exec_gremn (d a b : Reg) (s : State) : exec (.gremn d a b) s = execGremn d a b s := rfl
theorem exec_gand (d a b : Reg) (s : State) : exec (.gand d a b) s = execGand d a b s := rfl
theorem exec_gor (d a b : Reg) (s : State) : exec (.gor d a b) s = execGor d a b s := rfl
theorem exec_gxor (d a b : Reg) (s : State) : exec (.gxor d a b) s = execGxor d a b s := rfl
theorem exec_gshl (d a b : Reg) (s : State) : exec (.gshl d a b) s = execGshl d a b s := rfl
theorem exec_gshr (d a b : Reg) (s : State) : exec (.gshr d a b) s = execGshr d a b s := rfl
theorem exec_gsra (d a b : Reg) (s : State) : exec (.gsra d a b) s = execGsra d a b s := rfl
theorem exec_gmin (d a b : Reg) (s : State) : exec (.gmin d a b) s = execGmin d a b s := rfl
theorem exec_gmax (d a b : Reg) (s : State) : exec (.gmax d a b) s = execGmax d a b s := rfl
theorem exec_gaddi (d a : Reg) (imm : BitVec 15) (s : State) : exec (.gaddi d a imm) s = execGaddi d a imm s := rfl
theorem exec_gandi (d a : Reg) (imm : BitVec 15) (s : State) : exec (.gandi d a imm) s = execGandi d a imm s := rfl
theorem exec_gori (d a : Reg) (imm : BitVec 15) (s : State) : exec (.gori d a imm) s = execGori d a imm s := rfl
theorem exec_gxori (d a : Reg) (imm : BitVec 15) (s : State) : exec (.gxori d a imm) s = execGxori d a imm s := rfl
theorem exec_gshli (d a : Reg) (sh : BitVec 6) (s : State) : exec (.gshli d a sh) s = execGshli d a sh s := rfl
theorem exec_gshri (d a : Reg) (sh : BitVec 6) (s : State) : exec (.gshri d a sh) s = execGshri d a sh s := rfl
theorem exec_gsrai (d a : Reg) (sh : BitVec 6) (s : State) : exec (.gsrai d a sh) s = execGsrai d a sh s := rfl
theorem exec_gjalr (d a : Reg) (s : State) : exec (.gjalr d a) s = execGjalr d a s := rfl
theorem exec_glpget (d : Reg) (n f : BitVec 2) (s : State) : exec (.glpget d n f) s = execGlpget d n f s := rfl
theorem exec_glpset (n f : BitVec 2) (a : Reg) (s : State) : exec (.glpset n f a) s = execGlpset n f a s := rfl
theorem exec_gamo (d a b : Reg) (op : BitVec 4) (z : BitVec 1) (col : BitVec 3) (s : State) : exec (.gamo d a b op z col) s = execGamo d a b op z col s := rfl
theorem exec_gms (d : Reg) (n : BitVec 4) (s : State) : exec (.gms d n) s = execGms d n s := rfl
theorem exec_gsync (d b : Reg) (flags : BitVec 6) (s : State) : exec (.gsync d b flags) s = execGsync d b flags s := rfl
theorem exec_gcmp (k : BitVec 4) (cc : BitVec 3) (a b : Reg) (s : State) : exec (.gcmp k cc a b) s = execGcmp k cc a b s := rfl
theorem exec_gbr (k : BitVec 4) (s : State) : exec (.gbr k) s = execGbr k s := rfl
theorem exec_gbrf (k : BitVec 4) (s : State) : exec (.gbrf k) s = execGbrf k s := rfl
theorem exec_gfb (k : BitVec 4) (n : BitVec 3) (a b : Reg) (s : State) : exec (.gfb k n a b) s = execGfb k n a b s := rfl
theorem exec_launchT (k : BitVec 4) (a b : Reg) (s : State) : exec (.launchT k a b) s = execLaunchT k a b s := rfl
theorem exec_launchG (k : BitVec 4) (a b : Reg) (s : State) : exec (.launchG k a b) s = execLaunchG k a b s := rfl
theorem exec_join (k : BitVec 4) (a b : Reg) (s : State) : exec (.join k a b) s = execJoin k a b s := rfl
theorem exec_qpush (k : BitVec 4) (n : BitVec 2) (a b : Reg) (s : State) : exec (.qpush k n a b) s = execQpush k n a b s := rfl
theorem exec_qpop (k : BitVec 4) (n : BitVec 2) (a b : Reg) (s : State) : exec (.qpop k n a b) s = execQpop k n a b s := rfl
theorem exec_gbwait (k : BitVec 4) (a b : Reg) (s : State) : exec (.gbwait k a b) s = execGbwait k a b s := rfl
theorem exec_ckdecide (k : BitVec 4) (a : Reg) (s : State) : exec (.ckdecide k a) s = execCkdecide k a s := rfl
theorem exec_emit (idx : BitVec 16) (s : State) : exec (.emit idx) s = execEmit idx s := rfl
theorem exec_emitp (idx : BitVec 16) (mask : BitVec 4) (gp : Reg) (s : State) : exec (.emitp idx mask gp) s = execEmitp idx mask gp s := rfl
theorem exec_emitl (mask : BitVec 4) (a : Reg) (s : State) : exec (.emitl mask a) s = execEmitl mask a s := rfl
theorem exec_emits (a b : Reg) (s : State) : exec (.emits a b) s = execEmits a b s := rfl
theorem exec_cldd (idx : BitVec 16) (s : State) : exec (.cldd idx) s = execCldd idx s := rfl
theorem exec_cset (n : BitVec 3) (a : Reg) (s : State) : exec (.cset n a) s = execCset n a s := rfl
theorem exec_cget (d : Reg) (n : BitVec 3) (s : State) : exec (.cget d n) s = execCget d n s := rfl
theorem exec_tret (a : Reg) (s : State) : exec (.tret a) s = execTret a s := rfl
theorem exec_gbarr (a : Reg) (cols : BitVec 8) (s : State) : exec (.gbarr a cols) s = execGbarr a cols s := rfl
theorem exec_ckstore (d a b : Reg) (s : State) : exec (.ckstore d a b) s = execCkstore d a b s := rfl
theorem exec_gtrap (imm : BitVec 15) (s : State) : exec (.gtrap imm) s = execGtrap imm s := rfl
theorem exec_geret (st : BitVec 1) (s : State) : exec (.geret st) s = execGeret st s := rfl
theorem exec_gcrr (d : Reg) (n : BitVec 15) (s : State) : exec (.gcrr d n) s = execGcrr d n s := rfl
theorem exec_gcrw (n : BitVec 15) (a : Reg) (s : State) : exec (.gcrw n a) s = execGcrw n a s := rfl
theorem exec_gli (d : Reg) (w2 : BitVec 32) (s : State) : exec (.gli d w2) s = execGli d w2 s := rfl
theorem exec_glih (d : Reg) (w2 : BitVec 32) (s : State) : exec (.glih d w2) s = execGlih d w2 s := rfl
theorem exec_gcmpi (k : BitVec 4) (cc : BitVec 3) (a : Reg) (w2 : BitVec 32) (s : State) : exec (.gcmpi k cc a w2) s = execGcmpi k cc a w2 s := rfl
theorem exec_gprepPc (k : BitVec 4) (w2 : BitVec 32) (s : State) : exec (.gprepPc k w2) s = execGprepPc k w2 s := rfl
theorem exec_gprepReg (k : BitVec 4) (a : Reg) (w2 : BitVec 32) (s : State) : exec (.gprepReg k a w2) s = execGprepReg k a w2 s := rfl
theorem exec_gjal (d : Reg) (w2 : BitVec 32) (s : State) : exec (.gjal d w2) s = execGjal d w2 s := rfl
theorem exec_gloop (n : BitVec 2) (a : Reg) (w2 : BitVec 32) (s : State) : exec (.gloop n a w2) s = execGloop n a w2 s := rfl
theorem exec_gloopRe (n : BitVec 2) (a : Reg) (s : State) : exec (.gloopRe n a) s = execGloopRe n a s := rfl
theorem exec_gld (d a : Reg) (t : BitVec 3) (pol : BitVec 2) (w2 : BitVec 32) (s : State) : exec (.gld d a t pol w2) s = execGld d a t pol w2 s := rfl
theorem exec_gst (a b : Reg) (t pol : BitVec 2) (col : BitVec 3) (w2 : BitVec 32) (s : State) : exec (.gst a b t pol col w2) s = execGst a b t pol col w2 s := rfl
theorem exec_gpref (a : Reg) (l : BitVec 1) (w2 : BitVec 32) (s : State) : exec (.gpref a l w2) s = execGpref a l w2 s := rfl
theorem exec_emitn (idx : BitVec 16) (mask : BitVec 4) (gp : Reg) (n : BitVec 15) (s : State) : exec (.emitn idx mask gp n) s = execEmitn idx mask gp n s := rfl
theorem exec_genLoadReply (core : Nat) (ctx : Ctx) (id : Nat) (s : State) : exec (.genLoadReply core ctx id) s = execGenLoadReply core ctx id s := rfl
theorem exec_snop (f : SOp) (s : State) : exec (.snop f) s = execSnop f s := rfl
theorem exec_sadd (f : SOp) (s : State) : exec (.sadd f) s = execSadd f s := rfl
theorem exec_saddi (f : SIOp) (s : State) : exec (.saddi f) s = execSaddi f s := rfl
theorem exec_ssub (f : SOp) (s : State) : exec (.ssub f) s = execSsub f s := rfl
theorem exec_smul (f : SOp) (s : State) : exec (.smul f) s = execSmul f s := rfl
theorem exec_sand (f : SOp) (s : State) : exec (.sand f) s = execSand f s := rfl
theorem exec_sor (f : SOp) (s : State) : exec (.sor f) s = execSor f s := rfl
theorem exec_sxor (f : SOp) (s : State) : exec (.sxor f) s = execSxor f s := rfl
theorem exec_sshl (f : SOp) (s : State) : exec (.sshl f) s = execSshl f s := rfl
theorem exec_sshr (f : SOp) (s : State) : exec (.sshr f) s = execSshr f s := rfl
theorem exec_ssra (f : SOp) (s : State) : exec (.ssra f) s = execSsra f s := rfl
theorem exec_smin (f : SOp) (s : State) : exec (.smin f) s = execSmin f s := rfl
theorem exec_smax (f : SOp) (s : State) : exec (.smax f) s = execSmax f s := rfl
theorem exec_sli (f : SIOp) (s : State) : exec (.sli f) s = execSli f s := rfl
theorem exec_scmp (f : SOp) (s : State) : exec (.scmp f) s = execScmp f s := rfl
theorem exec_scmpi (f : SIOp) (s : State) : exec (.scmpi f) s = execScmpi f s := rfl
theorem exec_ssel (f : SOp) (s : State) : exec (.ssel f) s = execSsel f s := rfl
theorem exec_sms (f : SOp) (s : State) : exec (.sms f) s = execSms f s := rfl
theorem exec_sfb (f : SOp) (s : State) : exec (.sfb f) s = execSfb f s := rfl
theorem exec_ssetfm (f : SOp) (s : State) : exec (.ssetfm f) s = execSsetfm f s := rfl
theorem exec_ssetma (f : SOp) (s : State) : exec (.ssetma f) s = execSsetma f s := rfl
theorem exec_ssetch (f : SOp) (s : State) : exec (.ssetch f) s = execSsetch f s := rfl
theorem exec_ssetmk (f : SOp) (s : State) : exec (.ssetmk f) s = execSsetmk f s := rfl
theorem exec_swait (f : SOp) (s : State) : exec (.swait f) s = execSwait f s := rfl
theorem exec_stime (f : SOp) (s : State) : exec (.stime f) s = execStime f s := rfl
theorem exec_spred (f : SOp) (s : State) : exec (.spred f) s = execSpred f s := rfl
theorem exec_vnop (f : VOp) (s : State) : exec (.vnop f) s = execVnop f s := rfl
theorem exec_vadd (f : VOp) (s : State) : exec (.vadd f) s = execVadd f s := rfl
theorem exec_vsub (f : VOp) (s : State) : exec (.vsub f) s = execVsub f s := rfl
theorem exec_vmul (f : VOp) (s : State) : exec (.vmul f) s = execVmul f s := rfl
theorem exec_vmulh (f : VOp) (s : State) : exec (.vmulh f) s = execVmulh f s := rfl
theorem exec_vmad (f : VOp) (s : State) : exec (.vmad f) s = execVmad f s := rfl
theorem exec_vwadd (f : VOp) (s : State) : exec (.vwadd f) s = execVwadd f s := rfl
theorem exec_vwmul (f : VOp) (s : State) : exec (.vwmul f) s = execVwmul f s := rfl
theorem exec_vsadd (f : VOp) (s : State) : exec (.vsadd f) s = execVsadd f s := rfl
theorem exec_vssub (f : VOp) (s : State) : exec (.vssub f) s = execVssub f s := rfl
theorem exec_vmin (f : VOp) (s : State) : exec (.vmin f) s = execVmin f s := rfl
theorem exec_vmax (f : VOp) (s : State) : exec (.vmax f) s = execVmax f s := rfl
theorem exec_vabs (f : VOp) (s : State) : exec (.vabs f) s = execVabs f s := rfl
theorem exec_vand (f : VOp) (s : State) : exec (.vand f) s = execVand f s := rfl
theorem exec_vor (f : VOp) (s : State) : exec (.vor f) s = execVor f s := rfl
theorem exec_vxor (f : VOp) (s : State) : exec (.vxor f) s = execVxor f s := rfl
theorem exec_vshl (f : VOp) (s : State) : exec (.vshl f) s = execVshl f s := rfl
theorem exec_vshr (f : VOp) (s : State) : exec (.vshr f) s = execVshr f s := rfl
theorem exec_vsra (f : VOp) (s : State) : exec (.vsra f) s = execVsra f s := rfl
theorem exec_vclz (f : VOp) (s : State) : exec (.vclz f) s = execVclz f s := rfl
theorem exec_vpopc (f : VOp) (s : State) : exec (.vpopc f) s = execVpopc f s := rfl
theorem exec_vcmp (f : VOp) (s : State) : exec (.vcmp f) s = execVcmp f s := rfl
theorem exec_vsel (f : VOp) (s : State) : exec (.vsel f) s = execVsel f s := rfl
theorem exec_vmov (f : VOp) (s : State) : exec (.vmov f) s = execVmov f s := rfl
theorem exec_vbcast (f : VOp) (s : State) : exec (.vbcast f) s = execVbcast f s := rfl
theorem exec_viota (f : VOp) (s : State) : exec (.viota f) s = execViota f s := rfl
theorem exec_vperm (f : VOp) (s : State) : exec (.vperm f) s = execVperm f s := rfl
theorem exec_vrot (f : VOp) (s : State) : exec (.vrot f) s = execVrot f s := rfl
theorem exec_vcmprs (f : VOp) (s : State) : exec (.vcmprs f) s = execVcmprs f s := rfl
theorem exec_vexpnd (f : VOp) (s : State) : exec (.vexpnd f) s = execVexpnd f s := rfl
theorem exec_vscan (f : VOp) (s : State) : exec (.vscan f) s = execVscan f s := rfl
theorem exec_vred (f : VOp) (s : State) : exec (.vred f) s = execVred f s := rfl
theorem exec_vfadd (f : VOp) (s : State) : exec (.vfadd f) s = execVfadd f s := rfl
theorem exec_vfsub (f : VOp) (s : State) : exec (.vfsub f) s = execVfsub f s := rfl
theorem exec_vfmul (f : VOp) (s : State) : exec (.vfmul f) s = execVfmul f s := rfl
theorem exec_vfma (f : VOp) (s : State) : exec (.vfma f) s = execVfma f s := rfl
theorem exec_vfmin (f : VOp) (s : State) : exec (.vfmin f) s = execVfmin f s := rfl
theorem exec_vfmax (f : VOp) (s : State) : exec (.vfmax f) s = execVfmax f s := rfl
theorem exec_vfcmp (f : VOp) (s : State) : exec (.vfcmp f) s = execVfcmp f s := rfl
theorem exec_vfdiv (f : VOp) (s : State) : exec (.vfdiv f) s = execVfdiv f s := rfl
theorem exec_vfsqrt (f : VOp) (s : State) : exec (.vfsqrt f) s = execVfsqrt f s := rfl
theorem exec_vfrcp (f : VOp) (s : State) : exec (.vfrcp f) s = execVfrcp f s := rfl
theorem exec_vfrsq (f : VOp) (s : State) : exec (.vfrsq f) s = execVfrsq f s := rfl
theorem exec_vfexp2 (f : VOp) (s : State) : exec (.vfexp2 f) s = execVfexp2 f s := rfl
theorem exec_vflog2 (f : VOp) (s : State) : exec (.vflog2 f) s = execVflog2 f s := rfl
theorem exec_vfsin (f : VOp) (s : State) : exec (.vfsin f) s = execVfsin f s := rfl
theorem exec_vfcos (f : VOp) (s : State) : exec (.vfcos f) s = execVfcos f s := rfl
theorem exec_vftanh (f : VOp) (s : State) : exec (.vftanh f) s = execVftanh f s := rfl
theorem exec_vfscan (f : VOp) (s : State) : exec (.vfscan f) s = execVfscan f s := rfl
theorem exec_vfred (f : VOp) (s : State) : exec (.vfred f) s = execVfred f s := rfl
theorem exec_vtopk (f : VOp) (s : State) : exec (.vtopk f) s = execVtopk f s := rfl
theorem exec_vcvt (f : VOp) (s : State) : exec (.vcvt f) s = execVcvt f s := rfl
theorem exec_vpkgm (f : VOp) (s : State) : exec (.vpkgm f) s = execVpkgm f s := rfl
theorem exec_vupgm (f : VOp) (s : State) : exec (.vupgm f) s = execVupgm f s := rfl
theorem exec_vpkmx (f : VOp) (s : State) : exec (.vpkmx f) s = execVpkmx f s := rfl
theorem exec_vupmx (f : VOp) (s : State) : exec (.vupmx f) s = execVupmx f s := rfl
theorem exec_vrand (f : VOp) (s : State) : exec (.vrand f) s = execVrand f s := rfl
theorem exec_ckprobe (f : VOp) (s : State) : exec (.ckprobe f) s = execCkprobe f s := rfl
theorem exec_vpopq (f : VOp) (s : State) : exec (.vpopq f) s = execVpopq f s := rfl
theorem exec_mnop (f : MOp) (s : State) : exec (.mnop f) s = execMnop f s := rfl
theorem exec_mlda (f : MOp) (s : State) : exec (.mlda f) s = execMlda f s := rfl
theorem exec_mldat (f : MOp) (s : State) : exec (.mldat f) s = execMldat f s := rfl
theorem exec_macc (f : MOp) (s : State) : exec (.macc f) s = execMacc f s := rfl
theorem exec_mzero (f : MOp) (s : State) : exec (.mzero f) s = execMzero f s := rfl
theorem exec_mswap (f : MOp) (s : State) : exec (.mswap f) s = execMswap f s := rfl
theorem exec_mdrain (f : MOp) (s : State) : exec (.mdrain f) s = execMdrain f s := rfl
theorem exec_mdrainc (f : MOp) (s : State) : exec (.mdrainc f) s = execMdrainc f s := rfl
theorem exec_maccld (f : MOp) (s : State) : exec (.maccld f) s = execMaccld f s := rfl
theorem exec_mmask (f : MOp) (s : State) : exec (.mmask f) s = execMmask f s := rfl
theorem exec_mgang (f : MOp) (s : State) : exec (.mgang f) s = execMgang f s := rfl
theorem exec_mwrel (f : MOp) (s : State) : exec (.mwrel f) s = execMwrel f s := rfl
theorem exec_xnop (f : XROp) (s : State) : exec (.xnop f) s = execXnop f s := rfl
theorem exec_vld (f : XMOp) (s : State) : exec (.vld f) s = execVld f s := rfl
theorem exec_vst (f : XMOp) (s : State) : exec (.vst f) s = execVst f s := rfl
theorem exec_vlds (f : XMOp) (s : State) : exec (.vlds f) s = execVlds f s := rfl
theorem exec_vsts (f : XMOp) (s : State) : exec (.vsts f) s = execVsts f s := rfl
theorem exec_sld (f : XMOp) (s : State) : exec (.sld f) s = execSld f s := rfl
theorem exec_sst (f : XMOp) (s : State) : exec (.sst f) s = execSst f s := rfl
theorem exec_pref (f : XMOp) (s : State) : exec (.pref f) s = execPref f s := rfl
theorem exec_invl (f : XROp) (s : State) : exec (.invl f) s = execInvl f s := rfl
theorem exec_wbl (f : XROp) (s : State) : exec (.wbl f) s = execWbl f s := rfl
theorem exec_amo (f : XROp) (s : State) : exec (.amo f) s = execAmo f s := rfl
theorem exec_countedReply (core id : Nat) (s : State) : exec (.countedReply core id) s = execCountedReply core id s := rfl
theorem exec_storePerformed (core id : Nat) (s : State) : exec (.storePerformed core id) s = execStorePerformed core id s := rfl
theorem exec_cpgo (f : XROp) (s : State) : exec (.cpgo f) s = execCpgo f s := rfl
theorem exec_cpstop (f : XROp) (s : State) : exec (.cpstop f) s = execCpstop f s := rfl
theorem exec_cpdrain (f : XROp) (s : State) : exec (.cpdrain f) s = execCpdrain f s := rfl
theorem exec_cpwp (f : XROp) (s : State) : exec (.cpwp f) s = execCpwp f s := rfl
theorem exec_cpwpOob (f : XROp) (s : State) : exec (.cpwpOob f) s = execCpwpOob f s := rfl
theorem exec_copyIssue (core ch : Nat) (s : State) : exec (.copyIssue core ch) s = execCopyIssue core ch s := rfl
theorem exec_cpgoPhasedStart (core ch : Nat) (s : State) : exec (.cpgoPhasedStart core ch) s = execCpgoPhasedStart core ch s := rfl
theorem exec_gatherIndexRead (core ch : Nat) (s : State) : exec (.gatherIndexRead core ch) s = execGatherIndexRead core ch s := rfl
theorem exec_copyDelivery (core ch k n : Nat) (s : State) : exec (.copyDelivery core ch k n) s = execCopyDelivery core ch k n s := rfl
theorem exec_copyBytePost (core ch k : Nat) (s : State) : exec (.copyBytePost core ch k) s = execCopyBytePost core ch k s := rfl
theorem exec_gapush (f : XROp) (s : State) : exec (.gapush f) s = execGapush f s := rfl
theorem exec_gatherElementArrival (core id : Nat) (s : State) : exec (.gatherElementArrival core id) s = execGatherElementArrival core id s := rfl
theorem exec_gdpop (f : XROp) (s : State) : exec (.gdpop f) s = execGdpop f s := rfl
theorem exec_scpush (f : XROp) (s : State) : exec (.scpush f) s = execScpush f s := rfl
theorem exec_wssub (f : XROp) (s : State) : exec (.wssub f) s = execWssub f s := rfl
theorem exec_wsuns (f : XROp) (s : State) : exec (.wsuns f) s = execWsuns f s := rfl
theorem exec_fence (f : XROp) (s : State) : exec (.fence f) s = execFence f s := rfl
theorem exec_acq (f : XROp) (s : State) : exec (.acq f) s = execAcq f s := rfl
theorem exec_rel (f : XROp) (s : State) : exec (.rel f) s = execRel f s := rfl
theorem exec_relIncrement (core id : Nat) (s : State) : exec (.relIncrement core id) s = execRelIncrement core id s := rfl
theorem exec_bind (f : XROp) (s : State) : exec (.bind f) s = execBind f s := rfl
theorem exec_unbind (f : XROp) (s : State) : exec (.unbind f) s = execUnbind f s := rfl
theorem exec_publish (f : XROp) (s : State) : exec (.publish f) s = execPublish f s := rfl
theorem exec_barr (f : XROp) (s : State) : exec (.barr f) s = execBarr f s := rfl
theorem exec_bexp (f : XROp) (s : State) : exec (.bexp f) s = execBexp f s := rfl
theorem exec_bwait (f : XROp) (s : State) : exec (.bwait f) s = execBwait f s := rfl
theorem exec_barrierArrival (core id : Nat) (s : State) : exec (.barrierArrival core id) s = execBarrierArrival core id s := rfl
theorem exec_barrierPhaseComplete (n : Nat) (s : State) : exec (.barrierPhaseComplete n) s = execBarrierPhaseComplete n s := rfl
theorem exec_barrierChildClose (n : Nat) (s : State) : exec (.barrierChildClose n) s = execBarrierChildClose n s := rfl
theorem exec_treeCompletionArrival (n : Nat) (s : State) : exec (.treeCompletionArrival n) s = execTreeCompletionArrival n s := rfl
theorem exec_fopen (f : XROp) (s : State) : exec (.fopen f) s = execFopen f s := rfl
theorem exec_fclose (f : XROp) (s : State) : exec (.fclose f) s = execFclose f s := rfl
theorem exec_fnext (f : XROp) (s : State) : exec (.fnext f) s = execFnext f s := rfl
theorem exec_fint (f : XROp) (s : State) : exec (.fint f) s = execFint f s := rfl
theorem exec_funi (f : XROp) (s : State) : exec (.funi f) s = execFuni f s := rfl
theorem exec_fskip (f : XROp) (s : State) : exec (.fskip f) s = execFskip f s := rfl
theorem exec_fchild (f : XROp) (s : State) : exec (.fchild f) s = execFchild f s := rfl
theorem exec_fpos (f : XROp) (s : State) : exec (.fpos f) s = execFpos f s := rfl
theorem exec_fsave (f : XROp) (s : State) : exec (.fsave f) s = execFsave f s := rfl
theorem exec_fload (f : XROp) (s : State) : exec (.fload f) s = execFload f s := rfl
theorem exec_fval (f : XROp) (s : State) : exec (.fval f) s = execFval f s := rfl
theorem exec_fend (f : XROp) (s : State) : exec (.fend f) s = execFend f s := rfl
theorem exec_replayableFaultPark (core : Nat) (agent : Agent) (n : Nat) (s : State) : exec (.replayableFaultPark core agent n) s = execReplayableFaultPark core agent n s := rfl
theorem exec_quantumExpiry (core : Nat) (s : State) : exec (.quantumExpiry core) s = execQuantumExpiry core s := rfl
theorem exec_yieldThresholdExpiry (core : Nat) (s : State) : exec (.yieldThresholdExpiry core) s = execYieldThresholdExpiry core s := rfl
theorem exec_contextSaveComplete (core : Nat) (s : State) : exec (.contextSaveComplete core) s = execContextSaveComplete core s := rfl
theorem exec_contextRestoreComplete (core : Nat) (s : State) : exec (.contextRestoreComplete core) s = execContextRestoreComplete core s := rfl
theorem exec_dispatch (die : Nat) (s : State) : exec (.dispatch die) s = execDispatch die s := rfl
theorem exec_gangReserve (die task : Nat) (s : State) : exec (.gangReserve die task) s = execGangReserve die task s := rfl
theorem exec_taskRetire (core : Nat) (s : State) : exec (.taskRetire core) s = execTaskRetire core s := rfl
theorem exec_taskEnd (task : Nat) (s : State) : exec (.taskEnd task) s = execTaskEnd task s := rfl
theorem exec_stepStart (graph : Nat) (s : State) : exec (.stepStart graph) s = execStepStart graph s := rfl
theorem exec_stepEnd (graph : Nat) (s : State) : exec (.stepEnd graph) s = execStepEnd graph s := rfl
theorem exec_stageDeadlineExpiry (graph stage : Nat) (s : State) : exec (.stageDeadlineExpiry graph stage) s = execStageDeadlineExpiry graph stage s := rfl
theorem exec_stepRerun (graph : Nat) (s : State) : exec (.stepRerun graph) s = execStepRerun graph s := rfl
theorem exec_sequencerAssign (graph : Nat) (s : State) : exec (.sequencerAssign graph) s = execSequencerAssign graph s := rfl
theorem exec_graphAccept (graph : Nat) (s : State) : exec (.graphAccept graph) s = execGraphAccept graph s := rfl
theorem exec_queueService (graph q : Nat) (s : State) : exec (.queueService graph q) s = execQueueService graph q s := rfl
theorem exec_ringToQueueMove (graph q : Nat) (s : State) : exec (.ringToQueueMove graph q) s = execRingToQueueMove graph q s := rfl
theorem exec_detCommit (bay : Nat) (s : State) : exec (.detCommit bay) s = execDetCommit bay s := rfl
theorem exec_packetCompletionRecord (packet : Nat) (s : State) : exec (.packetCompletionRecord packet) s = execPacketCompletionRecord packet s := rfl
theorem exec_spargeStart (part : Nat) (s : State) : exec (.spargeStart part) s = execSpargeStart part s := rfl
theorem exec_spargePortionWrite (ch : Nat) (s : State) : exec (.spargePortionWrite ch) s = execSpargePortionWrite ch s := rfl
theorem exec_spargeStreamComplete (ch : Nat) (s : State) : exec (.spargeStreamComplete ch) s = execSpargeStreamComplete ch s := rfl
theorem exec_spargeStreamStop (ch : Nat) (s : State) : exec (.spargeStreamStop ch) s = execSpargeStreamStop ch s := rfl
theorem exec_linkedCopyComplete (part : Nat) (s : State) : exec (.linkedCopyComplete part) s = execLinkedCopyComplete part s := rfl
theorem exec_barrierExpectationArrival (core id : Nat) (s : State) : exec (.barrierExpectationArrival core id) s = execBarrierExpectationArrival core id s := rfl
theorem exec_gyield (s : State) : exec (.gyield) s = execGyield s := rfl
theorem exec_gifence (s : State) : exec (.gifence) s = execGifence s := rfl
theorem exec_ckskip (s : State) : exec (.ckskip) s = execCkskip s := rfl
theorem exec_gnop (s : State) : exec (.gnop) s = execGnop s := rfl
theorem exec_emitnEntryPlace (core : Nat) (ctx : Ctx) (s : State) : exec (.emitnEntryPlace core ctx) s = execEmitnEntryPlace core ctx s := rfl
theorem exec_genWaitComplete (core : Nat) (ctx : Ctx) (s : State) : exec (.genWaitComplete core ctx) s = execGenWaitComplete core ctx s := rfl
theorem exec_genWaitTimeout (core : Nat) (ctx : Ctx) (s : State) : exec (.genWaitTimeout core ctx) s = execGenWaitTimeout core ctx s := rfl
theorem exec_expandBundle (core : Nat) (s : State) : exec (.expandBundle core) s = execExpandBundle core s := rfl
theorem exec_dictionaryMissFill (core : Nat) (s : State) : exec (.dictionaryMissFill core) s = execDictionaryMissFill core s := rfl
theorem exec_exposedResultLands (core : Nat) (s : State) : exec (.exposedResultLands core) s = execExposedResultLands core s := rfl
theorem exec_feedbackWrite (core : Nat) (s : State) : exec (.feedbackWrite core) s = execFeedbackWrite core s := rfl
theorem exec_swaitComplete (core : Nat) (s : State) : exec (.swaitComplete core) s = execSwaitComplete core s := rfl
theorem exec_vBeat (core : Nat) (slot : Slot) (s : State) : exec (.vBeat core slot) s = execVBeat core slot s := rfl
theorem exec_maccBeat (core : Nat) (s : State) : exec (.maccBeat core) s = execMaccBeat core s := rfl
theorem exec_drainRowPush (core : Nat) (s : State) : exec (.drainRowPush core) s = execDrainRowPush core s := rfl
theorem exec_xWaitComplete (core : Nat) (slot : Slot) (s : State) : exec (.xWaitComplete core slot) s = execXWaitComplete core slot s := rfl
theorem exec_xWaitTimeout (core : Nat) (slot : Slot) (s : State) : exec (.xWaitTimeout core slot) s = execXWaitTimeout core slot s := rfl
theorem exec_fibreOpComplete (core : Nat) (slot : Slot) (s : State) : exec (.fibreOpComplete core slot) s = execFibreOpComplete core slot s := rfl
theorem exec_pageWalk (core : Nat) (va : W64) (s : State) : exec (.pageWalk core va) s = execPageWalk core va s := rfl
theorem exec_fqVerdictReplay (token : Nat) (s : State) : exec (.fqVerdictReplay token) s = execFqVerdictReplay token s := rfl
theorem exec_fqVerdictRefuse (token : Nat) (s : State) : exec (.fqVerdictRefuse token) s = execFqVerdictRefuse token s := rfl
theorem exec_fqEnable (w0 w1 : W64) (s : State) : exec (.fqEnable w0 w1) s = execFqEnable w0 w1 s := rfl
theorem exec_stopBoundary (core : Nat) (s : State) : exec (.stopBoundary core) s = execStopBoundary core s := rfl
theorem exec_snapshotEntryLands (core : Nat) (s : State) : exec (.snapshotEntryLands core) s = execSnapshotEntryLands core s := rfl
theorem exec_ringTailUpdate (ring : Nat) (s : State) : exec (.ringTailUpdate ring) s = execRingTailUpdate ring s := rfl
theorem exec_ringEnable (ring : Nat) (w0 w1 : W64) (s : State) : exec (.ringEnable ring w0 w1) s = execRingEnable ring w0 w1 s := rfl
theorem exec_ringErrClear (ring : Nat) (s : State) : exec (.ringErrClear ring) s = execRingErrClear ring s := rfl
theorem exec_runPacket (ring : Nat) (s : State) : exec (.runPacket ring) s = execRunPacket ring s := rfl
theorem exec_bayCreate (ring : Nat) (s : State) : exec (.bayCreate ring) s = execBayCreate ring s := rfl
theorem exec_bayModify (ring : Nat) (s : State) : exec (.bayModify ring) s = execBayModify ring s := rfl
theorem exec_bayKill (ring : Nat) (s : State) : exec (.bayKill ring) s = execBayKill ring s := rfl
theorem exec_copyPacket (ring : Nat) (s : State) : exec (.copyPacket ring) s = execCopyPacket ring s := rfl
theorem exec_fencePacket (ring : Nat) (s : State) : exec (.fencePacket ring) s = execFencePacket ring s := rfl
theorem exec_signalPacket (ring : Nat) (s : State) : exec (.signalPacket ring) s = execSignalPacket ring s := rfl
theorem exec_configRidgeBarrier (ring : Nat) (s : State) : exec (.configRidgeBarrier ring) s = execConfigRidgeBarrier ring s := rfl
theorem exec_configPublishSlot (ring : Nat) (s : State) : exec (.configPublishSlot ring) s = execConfigPublishSlot ring s := rfl
theorem exec_configTranslationInvalidation (ring : Nat) (s : State) : exec (.configTranslationInvalidation ring) s = execConfigTranslationInvalidation ring s := rfl
theorem exec_configCaskPolicy (ring : Nat) (s : State) : exec (.configCaskPolicy ring) s = execConfigCaskPolicy ring s := rfl
theorem exec_remoteRequestArrival (r : RemoteRequest) (s : State) : exec (.remoteRequestArrival r) s = execRemoteRequestArrival r s := rfl
theorem exec_flitCrcRetry (link : Nat) (s : State) : exec (.flitCrcRetry link) s = execFlitCrcRetry link s := rfl
theorem exec_laneFailure (link : Nat) (s : State) : exec (.laneFailure link) s = execLaneFailure link s := rfl
theorem exec_flitLost (link core id : Nat) (s : State) : exec (.flitLost link core id) s = execFlitLost link core id s := rfl
theorem exec_linkDown (link : Nat) (s : State) : exec (.linkDown link) s = execLinkDown link s := rfl
theorem exec_cxlPoisonedCompletion (port core id : Nat) (s : State) : exec (.cxlPoisonedCompletion port core id) s = execCxlPoisonedCompletion port core id s := rfl
theorem exec_cxlCompletionTimeout (port core id : Nat) (s : State) : exec (.cxlCompletionTimeout port core id) s = execCxlCompletionTimeout port core id s := rfl
theorem exec_registerWrite (offset : Nat) (value : W64) (s : State) : exec (.registerWrite offset value) s = execRegisterWrite offset value s := rfl
theorem exec_patrolScrub (stack address : Nat) (corrected : Bool) (s : State) : exec (.patrolScrub stack address corrected) s = execPatrolScrub stack address corrected s := rfl
theorem exec_uncorrectableError (r : LossReport) (s : State) : exec (.uncorrectableError r) s = execUncorrectableError r s := rfl
theorem exec_coreRepair (core : Nat) (spareLeft : Bool) (s : State) : exec (.coreRepair core spareLeft) s = execCoreRepair core spareLeft s := rfl
theorem exec_hbmChannelSparing (stack : Nat) (spareLeft : Bool) (s : State) : exec (.hbmChannelSparing stack spareLeft) s = execHbmChannelSparing stack spareLeft s := rfl
theorem exec_firmwareUpdate (core : Nat) (image digest : List Byte) (s : State) : exec (.firmwareUpdate core image digest) s = execFirmwareUpdate core image digest s := rfl
theorem exec_recalibration (die cluster cycles : Nat) (s : State) : exec (.recalibration die cluster cycles) s = execRecalibration die cluster cycles s := rfl
theorem exec_clockStep (die : Nat) (step : ClockStep) (cause : BitVec 9) (s : State) : exec (.clockStep die step cause) s = execClockStep die step cause s := rfl
theorem exec_thermalShutdown (die : Nat) (s : State) : exec (.thermalShutdown die) s = execThermalShutdown die s := rfl
theorem exec_packageReset (s : State) : exec (.packageReset) s = execPackageReset s := rfl
theorem exec_getMeasurements (index : Nat) (s : State) : exec (.getMeasurements index) s = execGetMeasurements index s := rfl
theorem exec_telemetryRead (s : State) : exec (.telemetryRead) s = execTelemetryRead s := rfl
theorem exec_hostCxlMemAccess (address len : Nat) (data : List Byte) (s : State) : exec (.hostCxlMemAccess address len data) s = execHostCxlMemAccess address len data s := rfl
theorem exec_cxlCacheSnoop (address : Nat) (data : List Byte) (s : State) : exec (.cxlCacheSnoop address data) s = execCxlCacheSnoop address data s := rfl
theorem exec_longReachReadArrival (stack package group offset len : Nat) (s : State) : exec (.longReachReadArrival stack package group offset len) s = execLongReachReadArrival stack package group offset len s := rfl
theorem exec_rowRepair (unit : RepairUnit) (index : Nat) (outcome : RepairOutcome) (s : State) : exec (.rowRepair unit index outcome) s = execRowRepair unit index outcome s := rfl

end Sys2Proof.Machine
end

