-- ==== Sys2Proof/Laws/State.lean ====
section
/-! SUPPORT. What each update of the state leaves alone and what it changes: one small lemma per field and update. -/

namespace Sys2Proof.Machine

/-! ### Register files -/

theorem rd_eq {α : Type} {n : Nat} (v : Vector α n) (i : Nat) (d : α) (h : i < n) : rd v i d = v[i] := by
  unfold rd
  rw [List.getD_eq_getElem _ _ (by simpa using h)]
  simp

theorem rd_ge {α : Type} {n : Nat} (v : Vector α n) (i : Nat) (d : α) (h : n ≤ i) : rd v i d = d := by
  unfold rd
  rw [List.getD_eq_default _ _ (by simpa using h)]

/-- An entry just written reads as written. -/
theorem rd_wr_same {α : Type} {n : Nat} (v : Vector α n) (i : Nat) (x d : α) (h : i < n) : rd (wr v i x) i d = x := by
  rw [rd_eq _ _ _ h]; simp [wr, h]

/-- Writing one entry leaves the others. -/
theorem rd_wr_ne {α : Type} {n : Nat} (v : Vector α n) (i j : Nat) (x d : α) (h : i ≠ j) : rd (wr v i x) j d = rd v j d := by
  by_cases hj : j < n
  · rw [rd_eq _ _ _ hj, rd_eq _ _ _ hj]
    by_cases hi : i < n
    · simp [wr, hi, h]
    · simp [wr, hi]
  · rw [rd_ge _ _ _ (Nat.le_of_not_lt hj), rd_ge _ _ _ (Nat.le_of_not_lt hj)]

/-- Writing back what is there changes nothing. -/
theorem wr_rd_self {α : Type} {n : Nat} (v : Vector α n) (i : Nat) (d : α) : wr v i (rd v i d) = v := by
  by_cases hi : i < n
  · rw [rd_eq _ _ _ hi]
    ext j hj
    simp only [wr, hi, dite_true, Vector.getElem_set]
    by_cases e : i = j <;> simp [e]
  · simp [wr, hi]

/-- The later of two writes of an entry stands. -/
theorem wr_wr {α : Type} {n : Nat} (v : Vector α n) (i : Nat) (x y : α) : wr (wr v i x) i y = wr v i y := by
  by_cases hi : i < n
  · ext j hj
    simp only [wr, hi, dite_true, Vector.getElem_set]
    by_cases e : i = j <;> simp [e]
  · simp [wr, hi]

/-! ### Cores -/

@[simp] theorem core_setCore_same (s : State) (n : Nat) (c : Core) (h : n < 320) : (s.setCore n c).core n = c :=
  rd_wr_same _ _ _ _ h

@[simp] theorem core_setCore_ne (s : State) (n m : Nat) (c : Core) (h : n ≠ m) : (s.setCore n c).core m = s.core m :=
  rd_wr_ne _ _ _ _ _ h

@[simp] theorem setCore_setCore (s : State) (n : Nat) (c c' : Core) : (s.setCore n c).setCore n c' = s.setCore n c' := by
  simp only [State.setCore, wr_wr]

@[simp] theorem setCore_self (s : State) (n : Nat) : s.setCore n (s.core n) = s := by
  simp only [State.setCore, State.core, wr_rd_self]

theorem modCore_def (s : State) (n : Nat) (f : Core → Core) : s.modCore n f = s.setCore n (f (s.core n)) := rfl

@[simp] theorem core_modCore_same (s : State) (n : Nat) (f : Core → Core) (h : n < 320) : (s.modCore n f).core n = f (s.core n) := by
  rw [modCore_def, core_setCore_same _ _ _ h]

@[simp] theorem core_modCore_ne (s : State) (n m : Nat) (f : Core → Core) (h : n ≠ m) : (s.modCore n f).core m = s.core m := by
  rw [modCore_def, core_setCore_ne _ _ _ _ h]

/-- Two changes of one core are one. -/
theorem modCore_modCore (s : State) (n : Nat) (f g : Core → Core) (h : n < 320) :
    (s.modCore n f).modCore n g = s.modCore n (fun c => g (f c)) := by
  simp only [modCore_def, core_setCore_same _ _ _ h, setCore_setCore]

@[simp] theorem gctx_setG_same (c : Core) (x : Ctx) (g : GenCtx) : (c.setG x g).gctx x = g := by cases x <;> rfl

theorem gctx_setG_ne (c : Core) (x y : Ctx) (g : GenCtx) (h : x ≠ y) : (c.setG x g).gctx y = c.gctx y := by
  cases x <;> cases y <;> first | exact absurd rfl h | rfl

@[simp] theorem setG_setG (c : Core) (x : Ctx) (g g' : GenCtx) : (c.setG x g).setG x g' = c.setG x g' := by cases x <;> rfl

@[simp] theorem setG_self (c : Core) (x : Ctx) : c.setG x (c.gctx x) = c := by cases x <;> rfl

/-- Two changes of one generator context are one. -/
theorem modG_modG (s : State) (n : Nat) (x : Ctx) (f g : GenCtx → GenCtx) (h : n < 320) :
    (s.modG n x f).modG n x g = s.modG n x (fun c => g (f c)) := by
  simp only [State.modG, modCore_modCore _ _ _ _ h, gctx_setG_same, setG_setG]

/-- Two changes of one engine are one. -/
theorem modE_modE (s : State) (n : Nat) (f g : Engine → Engine) (h : n < 320) :
    (s.modE n f).modE n g = s.modE n (fun c => g (f c)) := by
  simp only [State.modE, modCore_modCore _ _ _ _ h]

@[simp] theorem core_modE_same (s : State) (n : Nat) (f : Engine → Engine) (h : n < 320) : ((s.modE n f).core n).e = f (s.core n).e := by
  simp [State.modE, h]

/-! ### What replacing a core leaves -/

@[simp] theorem now_setCore (s : State) (n : Nat) (c : Core) : (s.setCore n c).now = s.now := rfl
@[simp] theorem sched_setCore (s : State) (n : Nat) (c : Core) : (s.setCore n c).sched = s.sched := rfl
@[simp] theorem cur_setCore (s : State) (n : Nat) (c : Core) : (s.setCore n c).cur = s.cur := rfl
@[simp] theorem fresh_setCore (s : State) (n : Nat) (c : Core) : (s.setCore n c).fresh = s.fresh := rfl
@[simp] theorem mem_setCore (s : State) (n : Nat) (c : Core) : (s.setCore n c).mem = s.mem := rfl
@[simp] theorem l2_setCore (s : State) (n : Nat) (c : Core) : (s.setCore n c).l2 = s.l2 := rfl
@[simp] theorem lost_setCore (s : State) (n : Nat) (c : Core) : (s.setCore n c).lost = s.lost := rfl
@[simp] theorem clusterTlb_setCore (s : State) (n : Nat) (c : Core) : (s.setCore n c).clusterTlb = s.clusterTlb := rfl
@[simp] theorem tables_setCore (s : State) (n : Nat) (c : Core) : (s.setCore n c).tables = s.tables := rfl
@[simp] theorem bays_setCore (s : State) (n : Nat) (c : Core) : (s.setCore n c).bays = s.bays := rfl
@[simp] theorem tasks_setCore (s : State) (n : Nat) (c : Core) : (s.setCore n c).tasks = s.tasks := rfl
@[simp] theorem graphs_setCore (s : State) (n : Nat) (c : Core) : (s.setCore n c).graphs = s.graphs := rfl
@[simp] theorem runs_setCore (s : State) (n : Nat) (c : Core) : (s.setCore n c).runs = s.runs := rfl
@[simp] theorem parts_setCore (s : State) (n : Nat) (c : Core) : (s.setCore n c).parts = s.parts := rfl
@[simp] theorem packets_setCore (s : State) (n : Nat) (c : Core) : (s.setCore n c).packets = s.packets := rfl
@[simp] theorem seqs_setCore (s : State) (n : Nat) (c : Core) : (s.setCore n c).seqs = s.seqs := rfl
@[simp] theorem barriers_setCore (s : State) (n : Nat) (c : Core) : (s.setCore n c).barriers = s.barriers := rfl
@[simp] theorem pubs_setCore (s : State) (n : Nat) (c : Core) : (s.setCore n c).pubs = s.pubs := rfl
@[simp] theorem rings_setCore (s : State) (n : Nat) (c : Core) : (s.setCore n c).rings = s.rings := rfl
@[simp] theorem fq_setCore (s : State) (n : Nat) (c : Core) : (s.setCore n c).fq = s.fq := rfl
@[simp] theorem cask_setCore (s : State) (n : Nat) (c : Core) : (s.setCore n c).cask = s.cask := rfl
@[simp] theorem sparge_setCore (s : State) (n : Nat) (c : Core) : (s.setCore n c).sparge = s.sparge := rfl
@[simp] theorem regs_setCore (s : State) (n : Nat) (c : Core) : (s.setCore n c).regs = s.regs := rfl
@[simp] theorem links_setCore (s : State) (n : Nat) (c : Core) : (s.setCore n c).links = s.links := rfl
@[simp] theorem lastServed_setCore (s : State) (n : Nat) (c : Core) : (s.setCore n c).lastServed = s.lastServed := rfl
@[simp] theorem placed_setCore (s : State) (n : Nat) (c : Core) : (s.setCore n c).placed = s.placed := rfl
@[simp] theorem reservations_setCore (s : State) (n : Nat) (c : Core) : (s.setCore n c).reservations = s.reservations := rfl
@[simp] theorem kernels_setCore (s : State) (n : Nat) (c : Core) : (s.setCore n c).kernels = s.kernels := rfl
@[simp] theorem clock_setCore (s : State) (n : Nat) (c : Core) : (s.setCore n c).clock = s.clock := rfl
@[simp] theorem clockAcc_setCore (s : State) (n : Nat) (c : Core) : (s.setCore n c).clockAcc = s.clockAcc := rfl
@[simp] theorem clockEdge_setCore (s : State) (n : Nat) (c : Core) : (s.setCore n c).clockEdge = s.clockEdge := rfl
@[simp] theorem clockEdges_setCore (s : State) (n : Nat) (c : Core) : (s.setCore n c).clockEdges = s.clockEdges := rfl
@[simp] theorem powered_setCore (s : State) (n : Nat) (c : Core) : (s.setCore n c).powered = s.powered := rfl
@[simp] theorem shutdown_setCore (s : State) (n : Nat) (c : Core) : (s.setCore n c).shutdown = s.shutdown := rfl
@[simp] theorem spares_setCore (s : State) (n : Nat) (c : Core) : (s.setCore n c).spares = s.spares := rfl
@[simp] theorem epoch_setCore (s : State) (n : Nat) (c : Core) : (s.setCore n c).epoch = s.epoch := rfl
@[simp] theorem manifest_setCore (s : State) (n : Nat) (c : Core) : (s.setCore n c).manifest = s.manifest := rfl
@[simp] theorem telemetry_setCore (s : State) (n : Nat) (c : Core) : (s.setCore n c).telemetry = s.telemetry := rfl
@[simp] theorem l2Ways_setCore (s : State) (n : Nat) (c : Core) : (s.setCore n c).l2Ways = s.l2Ways := rfl
@[simp] theorem hbmDegraded_setCore (s : State) (n : Nat) (c : Core) : (s.setCore n c).hbmDegraded = s.hbmDegraded := rfl
@[simp] theorem sent_setCore (s : State) (n : Nat) (c : Core) : (s.setCore n c).sent = s.sent := rfl

/-! ### What changing a core leaves -/

@[simp] theorem now_modCore (s : State) (n : Nat) (f : Core → Core) : (s.modCore n f).now = s.now := rfl
@[simp] theorem sched_modCore (s : State) (n : Nat) (f : Core → Core) : (s.modCore n f).sched = s.sched := rfl
@[simp] theorem cur_modCore (s : State) (n : Nat) (f : Core → Core) : (s.modCore n f).cur = s.cur := rfl
@[simp] theorem fresh_modCore (s : State) (n : Nat) (f : Core → Core) : (s.modCore n f).fresh = s.fresh := rfl
@[simp] theorem mem_modCore (s : State) (n : Nat) (f : Core → Core) : (s.modCore n f).mem = s.mem := rfl
@[simp] theorem l2_modCore (s : State) (n : Nat) (f : Core → Core) : (s.modCore n f).l2 = s.l2 := rfl
@[simp] theorem lost_modCore (s : State) (n : Nat) (f : Core → Core) : (s.modCore n f).lost = s.lost := rfl
@[simp] theorem clusterTlb_modCore (s : State) (n : Nat) (f : Core → Core) : (s.modCore n f).clusterTlb = s.clusterTlb := rfl
@[simp] theorem tables_modCore (s : State) (n : Nat) (f : Core → Core) : (s.modCore n f).tables = s.tables := rfl
@[simp] theorem bays_modCore (s : State) (n : Nat) (f : Core → Core) : (s.modCore n f).bays = s.bays := rfl
@[simp] theorem tasks_modCore (s : State) (n : Nat) (f : Core → Core) : (s.modCore n f).tasks = s.tasks := rfl
@[simp] theorem graphs_modCore (s : State) (n : Nat) (f : Core → Core) : (s.modCore n f).graphs = s.graphs := rfl
@[simp] theorem runs_modCore (s : State) (n : Nat) (f : Core → Core) : (s.modCore n f).runs = s.runs := rfl
@[simp] theorem parts_modCore (s : State) (n : Nat) (f : Core → Core) : (s.modCore n f).parts = s.parts := rfl
@[simp] theorem packets_modCore (s : State) (n : Nat) (f : Core → Core) : (s.modCore n f).packets = s.packets := rfl
@[simp] theorem seqs_modCore (s : State) (n : Nat) (f : Core → Core) : (s.modCore n f).seqs = s.seqs := rfl
@[simp] theorem barriers_modCore (s : State) (n : Nat) (f : Core → Core) : (s.modCore n f).barriers = s.barriers := rfl
@[simp] theorem pubs_modCore (s : State) (n : Nat) (f : Core → Core) : (s.modCore n f).pubs = s.pubs := rfl
@[simp] theorem rings_modCore (s : State) (n : Nat) (f : Core → Core) : (s.modCore n f).rings = s.rings := rfl
@[simp] theorem fq_modCore (s : State) (n : Nat) (f : Core → Core) : (s.modCore n f).fq = s.fq := rfl
@[simp] theorem cask_modCore (s : State) (n : Nat) (f : Core → Core) : (s.modCore n f).cask = s.cask := rfl
@[simp] theorem sparge_modCore (s : State) (n : Nat) (f : Core → Core) : (s.modCore n f).sparge = s.sparge := rfl
@[simp] theorem regs_modCore (s : State) (n : Nat) (f : Core → Core) : (s.modCore n f).regs = s.regs := rfl
@[simp] theorem links_modCore (s : State) (n : Nat) (f : Core → Core) : (s.modCore n f).links = s.links := rfl
@[simp] theorem lastServed_modCore (s : State) (n : Nat) (f : Core → Core) : (s.modCore n f).lastServed = s.lastServed := rfl
@[simp] theorem placed_modCore (s : State) (n : Nat) (f : Core → Core) : (s.modCore n f).placed = s.placed := rfl
@[simp] theorem reservations_modCore (s : State) (n : Nat) (f : Core → Core) : (s.modCore n f).reservations = s.reservations := rfl
@[simp] theorem kernels_modCore (s : State) (n : Nat) (f : Core → Core) : (s.modCore n f).kernels = s.kernels := rfl
@[simp] theorem clock_modCore (s : State) (n : Nat) (f : Core → Core) : (s.modCore n f).clock = s.clock := rfl
@[simp] theorem clockAcc_modCore (s : State) (n : Nat) (f : Core → Core) : (s.modCore n f).clockAcc = s.clockAcc := rfl
@[simp] theorem clockEdge_modCore (s : State) (n : Nat) (f : Core → Core) : (s.modCore n f).clockEdge = s.clockEdge := rfl
@[simp] theorem clockEdges_modCore (s : State) (n : Nat) (f : Core → Core) : (s.modCore n f).clockEdges = s.clockEdges := rfl
@[simp] theorem powered_modCore (s : State) (n : Nat) (f : Core → Core) : (s.modCore n f).powered = s.powered := rfl
@[simp] theorem shutdown_modCore (s : State) (n : Nat) (f : Core → Core) : (s.modCore n f).shutdown = s.shutdown := rfl
@[simp] theorem spares_modCore (s : State) (n : Nat) (f : Core → Core) : (s.modCore n f).spares = s.spares := rfl
@[simp] theorem epoch_modCore (s : State) (n : Nat) (f : Core → Core) : (s.modCore n f).epoch = s.epoch := rfl
@[simp] theorem manifest_modCore (s : State) (n : Nat) (f : Core → Core) : (s.modCore n f).manifest = s.manifest := rfl
@[simp] theorem telemetry_modCore (s : State) (n : Nat) (f : Core → Core) : (s.modCore n f).telemetry = s.telemetry := rfl
@[simp] theorem l2Ways_modCore (s : State) (n : Nat) (f : Core → Core) : (s.modCore n f).l2Ways = s.l2Ways := rfl
@[simp] theorem hbmDegraded_modCore (s : State) (n : Nat) (f : Core → Core) : (s.modCore n f).hbmDegraded = s.hbmDegraded := rfl
@[simp] theorem sent_modCore (s : State) (n : Nat) (f : Core → Core) : (s.modCore n f).sent = s.sent := rfl

/-! ### What changing an engine leaves -/

@[simp] theorem now_modE (s : State) (n : Nat) (f : Engine → Engine) : (s.modE n f).now = s.now := rfl
@[simp] theorem sched_modE (s : State) (n : Nat) (f : Engine → Engine) : (s.modE n f).sched = s.sched := rfl
@[simp] theorem cur_modE (s : State) (n : Nat) (f : Engine → Engine) : (s.modE n f).cur = s.cur := rfl
@[simp] theorem fresh_modE (s : State) (n : Nat) (f : Engine → Engine) : (s.modE n f).fresh = s.fresh := rfl
@[simp] theorem mem_modE (s : State) (n : Nat) (f : Engine → Engine) : (s.modE n f).mem = s.mem := rfl
@[simp] theorem l2_modE (s : State) (n : Nat) (f : Engine → Engine) : (s.modE n f).l2 = s.l2 := rfl
@[simp] theorem lost_modE (s : State) (n : Nat) (f : Engine → Engine) : (s.modE n f).lost = s.lost := rfl
@[simp] theorem clusterTlb_modE (s : State) (n : Nat) (f : Engine → Engine) : (s.modE n f).clusterTlb = s.clusterTlb := rfl
@[simp] theorem tables_modE (s : State) (n : Nat) (f : Engine → Engine) : (s.modE n f).tables = s.tables := rfl
@[simp] theorem bays_modE (s : State) (n : Nat) (f : Engine → Engine) : (s.modE n f).bays = s.bays := rfl
@[simp] theorem tasks_modE (s : State) (n : Nat) (f : Engine → Engine) : (s.modE n f).tasks = s.tasks := rfl
@[simp] theorem graphs_modE (s : State) (n : Nat) (f : Engine → Engine) : (s.modE n f).graphs = s.graphs := rfl
@[simp] theorem runs_modE (s : State) (n : Nat) (f : Engine → Engine) : (s.modE n f).runs = s.runs := rfl
@[simp] theorem parts_modE (s : State) (n : Nat) (f : Engine → Engine) : (s.modE n f).parts = s.parts := rfl
@[simp] theorem packets_modE (s : State) (n : Nat) (f : Engine → Engine) : (s.modE n f).packets = s.packets := rfl
@[simp] theorem seqs_modE (s : State) (n : Nat) (f : Engine → Engine) : (s.modE n f).seqs = s.seqs := rfl
@[simp] theorem barriers_modE (s : State) (n : Nat) (f : Engine → Engine) : (s.modE n f).barriers = s.barriers := rfl
@[simp] theorem pubs_modE (s : State) (n : Nat) (f : Engine → Engine) : (s.modE n f).pubs = s.pubs := rfl
@[simp] theorem rings_modE (s : State) (n : Nat) (f : Engine → Engine) : (s.modE n f).rings = s.rings := rfl
@[simp] theorem fq_modE (s : State) (n : Nat) (f : Engine → Engine) : (s.modE n f).fq = s.fq := rfl
@[simp] theorem cask_modE (s : State) (n : Nat) (f : Engine → Engine) : (s.modE n f).cask = s.cask := rfl
@[simp] theorem sparge_modE (s : State) (n : Nat) (f : Engine → Engine) : (s.modE n f).sparge = s.sparge := rfl
@[simp] theorem regs_modE (s : State) (n : Nat) (f : Engine → Engine) : (s.modE n f).regs = s.regs := rfl
@[simp] theorem links_modE (s : State) (n : Nat) (f : Engine → Engine) : (s.modE n f).links = s.links := rfl
@[simp] theorem lastServed_modE (s : State) (n : Nat) (f : Engine → Engine) : (s.modE n f).lastServed = s.lastServed := rfl
@[simp] theorem placed_modE (s : State) (n : Nat) (f : Engine → Engine) : (s.modE n f).placed = s.placed := rfl
@[simp] theorem reservations_modE (s : State) (n : Nat) (f : Engine → Engine) : (s.modE n f).reservations = s.reservations := rfl
@[simp] theorem kernels_modE (s : State) (n : Nat) (f : Engine → Engine) : (s.modE n f).kernels = s.kernels := rfl
@[simp] theorem clock_modE (s : State) (n : Nat) (f : Engine → Engine) : (s.modE n f).clock = s.clock := rfl
@[simp] theorem clockAcc_modE (s : State) (n : Nat) (f : Engine → Engine) : (s.modE n f).clockAcc = s.clockAcc := rfl
@[simp] theorem clockEdge_modE (s : State) (n : Nat) (f : Engine → Engine) : (s.modE n f).clockEdge = s.clockEdge := rfl
@[simp] theorem clockEdges_modE (s : State) (n : Nat) (f : Engine → Engine) : (s.modE n f).clockEdges = s.clockEdges := rfl
@[simp] theorem powered_modE (s : State) (n : Nat) (f : Engine → Engine) : (s.modE n f).powered = s.powered := rfl
@[simp] theorem shutdown_modE (s : State) (n : Nat) (f : Engine → Engine) : (s.modE n f).shutdown = s.shutdown := rfl
@[simp] theorem spares_modE (s : State) (n : Nat) (f : Engine → Engine) : (s.modE n f).spares = s.spares := rfl
@[simp] theorem epoch_modE (s : State) (n : Nat) (f : Engine → Engine) : (s.modE n f).epoch = s.epoch := rfl
@[simp] theorem manifest_modE (s : State) (n : Nat) (f : Engine → Engine) : (s.modE n f).manifest = s.manifest := rfl
@[simp] theorem telemetry_modE (s : State) (n : Nat) (f : Engine → Engine) : (s.modE n f).telemetry = s.telemetry := rfl
@[simp] theorem l2Ways_modE (s : State) (n : Nat) (f : Engine → Engine) : (s.modE n f).l2Ways = s.l2Ways := rfl
@[simp] theorem hbmDegraded_modE (s : State) (n : Nat) (f : Engine → Engine) : (s.modE n f).hbmDegraded = s.hbmDegraded := rfl
@[simp] theorem sent_modE (s : State) (n : Nat) (f : Engine → Engine) : (s.modE n f).sent = s.sent := rfl

/-! ### What changing a generator context leaves -/

@[simp] theorem now_modG (s : State) (n : Nat) (x : Ctx) (f : GenCtx → GenCtx) : (s.modG n x f).now = s.now := rfl
@[simp] theorem sched_modG (s : State) (n : Nat) (x : Ctx) (f : GenCtx → GenCtx) : (s.modG n x f).sched = s.sched := rfl
@[simp] theorem cur_modG (s : State) (n : Nat) (x : Ctx) (f : GenCtx → GenCtx) : (s.modG n x f).cur = s.cur := rfl
@[simp] theorem fresh_modG (s : State) (n : Nat) (x : Ctx) (f : GenCtx → GenCtx) : (s.modG n x f).fresh = s.fresh := rfl
@[simp] theorem mem_modG (s : State) (n : Nat) (x : Ctx) (f : GenCtx → GenCtx) : (s.modG n x f).mem = s.mem := rfl
@[simp] theorem l2_modG (s : State) (n : Nat) (x : Ctx) (f : GenCtx → GenCtx) : (s.modG n x f).l2 = s.l2 := rfl
@[simp] theorem lost_modG (s : State) (n : Nat) (x : Ctx) (f : GenCtx → GenCtx) : (s.modG n x f).lost = s.lost := rfl
@[simp] theorem clusterTlb_modG (s : State) (n : Nat) (x : Ctx) (f : GenCtx → GenCtx) : (s.modG n x f).clusterTlb = s.clusterTlb := rfl
@[simp] theorem tables_modG (s : State) (n : Nat) (x : Ctx) (f : GenCtx → GenCtx) : (s.modG n x f).tables = s.tables := rfl
@[simp] theorem bays_modG (s : State) (n : Nat) (x : Ctx) (f : GenCtx → GenCtx) : (s.modG n x f).bays = s.bays := rfl
@[simp] theorem tasks_modG (s : State) (n : Nat) (x : Ctx) (f : GenCtx → GenCtx) : (s.modG n x f).tasks = s.tasks := rfl
@[simp] theorem graphs_modG (s : State) (n : Nat) (x : Ctx) (f : GenCtx → GenCtx) : (s.modG n x f).graphs = s.graphs := rfl
@[simp] theorem runs_modG (s : State) (n : Nat) (x : Ctx) (f : GenCtx → GenCtx) : (s.modG n x f).runs = s.runs := rfl
@[simp] theorem parts_modG (s : State) (n : Nat) (x : Ctx) (f : GenCtx → GenCtx) : (s.modG n x f).parts = s.parts := rfl
@[simp] theorem packets_modG (s : State) (n : Nat) (x : Ctx) (f : GenCtx → GenCtx) : (s.modG n x f).packets = s.packets := rfl
@[simp] theorem seqs_modG (s : State) (n : Nat) (x : Ctx) (f : GenCtx → GenCtx) : (s.modG n x f).seqs = s.seqs := rfl
@[simp] theorem barriers_modG (s : State) (n : Nat) (x : Ctx) (f : GenCtx → GenCtx) : (s.modG n x f).barriers = s.barriers := rfl
@[simp] theorem pubs_modG (s : State) (n : Nat) (x : Ctx) (f : GenCtx → GenCtx) : (s.modG n x f).pubs = s.pubs := rfl
@[simp] theorem rings_modG (s : State) (n : Nat) (x : Ctx) (f : GenCtx → GenCtx) : (s.modG n x f).rings = s.rings := rfl
@[simp] theorem fq_modG (s : State) (n : Nat) (x : Ctx) (f : GenCtx → GenCtx) : (s.modG n x f).fq = s.fq := rfl
@[simp] theorem cask_modG (s : State) (n : Nat) (x : Ctx) (f : GenCtx → GenCtx) : (s.modG n x f).cask = s.cask := rfl
@[simp] theorem sparge_modG (s : State) (n : Nat) (x : Ctx) (f : GenCtx → GenCtx) : (s.modG n x f).sparge = s.sparge := rfl
@[simp] theorem regs_modG (s : State) (n : Nat) (x : Ctx) (f : GenCtx → GenCtx) : (s.modG n x f).regs = s.regs := rfl
@[simp] theorem links_modG (s : State) (n : Nat) (x : Ctx) (f : GenCtx → GenCtx) : (s.modG n x f).links = s.links := rfl
@[simp] theorem lastServed_modG (s : State) (n : Nat) (x : Ctx) (f : GenCtx → GenCtx) : (s.modG n x f).lastServed = s.lastServed := rfl
@[simp] theorem placed_modG (s : State) (n : Nat) (x : Ctx) (f : GenCtx → GenCtx) : (s.modG n x f).placed = s.placed := rfl
@[simp] theorem reservations_modG (s : State) (n : Nat) (x : Ctx) (f : GenCtx → GenCtx) : (s.modG n x f).reservations = s.reservations := rfl
@[simp] theorem kernels_modG (s : State) (n : Nat) (x : Ctx) (f : GenCtx → GenCtx) : (s.modG n x f).kernels = s.kernels := rfl
@[simp] theorem clock_modG (s : State) (n : Nat) (x : Ctx) (f : GenCtx → GenCtx) : (s.modG n x f).clock = s.clock := rfl
@[simp] theorem clockAcc_modG (s : State) (n : Nat) (x : Ctx) (f : GenCtx → GenCtx) : (s.modG n x f).clockAcc = s.clockAcc := rfl
@[simp] theorem clockEdge_modG (s : State) (n : Nat) (x : Ctx) (f : GenCtx → GenCtx) : (s.modG n x f).clockEdge = s.clockEdge := rfl
@[simp] theorem clockEdges_modG (s : State) (n : Nat) (x : Ctx) (f : GenCtx → GenCtx) : (s.modG n x f).clockEdges = s.clockEdges := rfl
@[simp] theorem powered_modG (s : State) (n : Nat) (x : Ctx) (f : GenCtx → GenCtx) : (s.modG n x f).powered = s.powered := rfl
@[simp] theorem shutdown_modG (s : State) (n : Nat) (x : Ctx) (f : GenCtx → GenCtx) : (s.modG n x f).shutdown = s.shutdown := rfl
@[simp] theorem spares_modG (s : State) (n : Nat) (x : Ctx) (f : GenCtx → GenCtx) : (s.modG n x f).spares = s.spares := rfl
@[simp] theorem epoch_modG (s : State) (n : Nat) (x : Ctx) (f : GenCtx → GenCtx) : (s.modG n x f).epoch = s.epoch := rfl
@[simp] theorem manifest_modG (s : State) (n : Nat) (x : Ctx) (f : GenCtx → GenCtx) : (s.modG n x f).manifest = s.manifest := rfl
@[simp] theorem telemetry_modG (s : State) (n : Nat) (x : Ctx) (f : GenCtx → GenCtx) : (s.modG n x f).telemetry = s.telemetry := rfl
@[simp] theorem l2Ways_modG (s : State) (n : Nat) (x : Ctx) (f : GenCtx → GenCtx) : (s.modG n x f).l2Ways = s.l2Ways := rfl
@[simp] theorem hbmDegraded_modG (s : State) (n : Nat) (x : Ctx) (f : GenCtx → GenCtx) : (s.modG n x f).hbmDegraded = s.hbmDegraded := rfl
@[simp] theorem sent_modG (s : State) (n : Nat) (x : Ctx) (f : GenCtx → GenCtx) : (s.modG n x f).sent = s.sent := rfl

/-! ### What changing a task leaves -/

@[simp] theorem now_modTask (s : State) (id : Nat) (f : Task → Task) : (s.modTask id f).now = s.now := rfl
@[simp] theorem sched_modTask (s : State) (id : Nat) (f : Task → Task) : (s.modTask id f).sched = s.sched := rfl
@[simp] theorem cur_modTask (s : State) (id : Nat) (f : Task → Task) : (s.modTask id f).cur = s.cur := rfl
@[simp] theorem fresh_modTask (s : State) (id : Nat) (f : Task → Task) : (s.modTask id f).fresh = s.fresh := rfl
@[simp] theorem cores_modTask (s : State) (id : Nat) (f : Task → Task) : (s.modTask id f).cores = s.cores := rfl
@[simp] theorem mem_modTask (s : State) (id : Nat) (f : Task → Task) : (s.modTask id f).mem = s.mem := rfl
@[simp] theorem l2_modTask (s : State) (id : Nat) (f : Task → Task) : (s.modTask id f).l2 = s.l2 := rfl
@[simp] theorem lost_modTask (s : State) (id : Nat) (f : Task → Task) : (s.modTask id f).lost = s.lost := rfl
@[simp] theorem clusterTlb_modTask (s : State) (id : Nat) (f : Task → Task) : (s.modTask id f).clusterTlb = s.clusterTlb := rfl
@[simp] theorem tables_modTask (s : State) (id : Nat) (f : Task → Task) : (s.modTask id f).tables = s.tables := rfl
@[simp] theorem bays_modTask (s : State) (id : Nat) (f : Task → Task) : (s.modTask id f).bays = s.bays := rfl
@[simp] theorem graphs_modTask (s : State) (id : Nat) (f : Task → Task) : (s.modTask id f).graphs = s.graphs := rfl
@[simp] theorem runs_modTask (s : State) (id : Nat) (f : Task → Task) : (s.modTask id f).runs = s.runs := rfl
@[simp] theorem parts_modTask (s : State) (id : Nat) (f : Task → Task) : (s.modTask id f).parts = s.parts := rfl
@[simp] theorem packets_modTask (s : State) (id : Nat) (f : Task → Task) : (s.modTask id f).packets = s.packets := rfl
@[simp] theorem seqs_modTask (s : State) (id : Nat) (f : Task → Task) : (s.modTask id f).seqs = s.seqs := rfl
@[simp] theorem barriers_modTask (s : State) (id : Nat) (f : Task → Task) : (s.modTask id f).barriers = s.barriers := rfl
@[simp] theorem pubs_modTask (s : State) (id : Nat) (f : Task → Task) : (s.modTask id f).pubs = s.pubs := rfl
@[simp] theorem rings_modTask (s : State) (id : Nat) (f : Task → Task) : (s.modTask id f).rings = s.rings := rfl
@[simp] theorem fq_modTask (s : State) (id : Nat) (f : Task → Task) : (s.modTask id f).fq = s.fq := rfl
@[simp] theorem cask_modTask (s : State) (id : Nat) (f : Task → Task) : (s.modTask id f).cask = s.cask := rfl
@[simp] theorem sparge_modTask (s : State) (id : Nat) (f : Task → Task) : (s.modTask id f).sparge = s.sparge := rfl
@[simp] theorem regs_modTask (s : State) (id : Nat) (f : Task → Task) : (s.modTask id f).regs = s.regs := rfl
@[simp] theorem links_modTask (s : State) (id : Nat) (f : Task → Task) : (s.modTask id f).links = s.links := rfl
@[simp] theorem lastServed_modTask (s : State) (id : Nat) (f : Task → Task) : (s.modTask id f).lastServed = s.lastServed := rfl
@[simp] theorem placed_modTask (s : State) (id : Nat) (f : Task → Task) : (s.modTask id f).placed = s.placed := rfl
@[simp] theorem reservations_modTask (s : State) (id : Nat) (f : Task → Task) : (s.modTask id f).reservations = s.reservations := rfl
@[simp] theorem kernels_modTask (s : State) (id : Nat) (f : Task → Task) : (s.modTask id f).kernels = s.kernels := rfl
@[simp] theorem clock_modTask (s : State) (id : Nat) (f : Task → Task) : (s.modTask id f).clock = s.clock := rfl
@[simp] theorem clockAcc_modTask (s : State) (id : Nat) (f : Task → Task) : (s.modTask id f).clockAcc = s.clockAcc := rfl
@[simp] theorem clockEdge_modTask (s : State) (id : Nat) (f : Task → Task) : (s.modTask id f).clockEdge = s.clockEdge := rfl
@[simp] theorem clockEdges_modTask (s : State) (id : Nat) (f : Task → Task) : (s.modTask id f).clockEdges = s.clockEdges := rfl
@[simp] theorem powered_modTask (s : State) (id : Nat) (f : Task → Task) : (s.modTask id f).powered = s.powered := rfl
@[simp] theorem shutdown_modTask (s : State) (id : Nat) (f : Task → Task) : (s.modTask id f).shutdown = s.shutdown := rfl
@[simp] theorem spares_modTask (s : State) (id : Nat) (f : Task → Task) : (s.modTask id f).spares = s.spares := rfl
@[simp] theorem epoch_modTask (s : State) (id : Nat) (f : Task → Task) : (s.modTask id f).epoch = s.epoch := rfl
@[simp] theorem manifest_modTask (s : State) (id : Nat) (f : Task → Task) : (s.modTask id f).manifest = s.manifest := rfl
@[simp] theorem telemetry_modTask (s : State) (id : Nat) (f : Task → Task) : (s.modTask id f).telemetry = s.telemetry := rfl
@[simp] theorem l2Ways_modTask (s : State) (id : Nat) (f : Task → Task) : (s.modTask id f).l2Ways = s.l2Ways := rfl
@[simp] theorem hbmDegraded_modTask (s : State) (id : Nat) (f : Task → Task) : (s.modTask id f).hbmDegraded = s.hbmDegraded := rfl
@[simp] theorem sent_modTask (s : State) (id : Nat) (f : Task → Task) : (s.modTask id f).sent = s.sent := rfl

/-! ### What changing a graph leaves -/

@[simp] theorem now_modGraph (s : State) (id : Nat) (f : Graph → Graph) : (s.modGraph id f).now = s.now := rfl
@[simp] theorem sched_modGraph (s : State) (id : Nat) (f : Graph → Graph) : (s.modGraph id f).sched = s.sched := rfl
@[simp] theorem cur_modGraph (s : State) (id : Nat) (f : Graph → Graph) : (s.modGraph id f).cur = s.cur := rfl
@[simp] theorem fresh_modGraph (s : State) (id : Nat) (f : Graph → Graph) : (s.modGraph id f).fresh = s.fresh := rfl
@[simp] theorem cores_modGraph (s : State) (id : Nat) (f : Graph → Graph) : (s.modGraph id f).cores = s.cores := rfl
@[simp] theorem mem_modGraph (s : State) (id : Nat) (f : Graph → Graph) : (s.modGraph id f).mem = s.mem := rfl
@[simp] theorem l2_modGraph (s : State) (id : Nat) (f : Graph → Graph) : (s.modGraph id f).l2 = s.l2 := rfl
@[simp] theorem lost_modGraph (s : State) (id : Nat) (f : Graph → Graph) : (s.modGraph id f).lost = s.lost := rfl
@[simp] theorem clusterTlb_modGraph (s : State) (id : Nat) (f : Graph → Graph) : (s.modGraph id f).clusterTlb = s.clusterTlb := rfl
@[simp] theorem tables_modGraph (s : State) (id : Nat) (f : Graph → Graph) : (s.modGraph id f).tables = s.tables := rfl
@[simp] theorem bays_modGraph (s : State) (id : Nat) (f : Graph → Graph) : (s.modGraph id f).bays = s.bays := rfl
@[simp] theorem tasks_modGraph (s : State) (id : Nat) (f : Graph → Graph) : (s.modGraph id f).tasks = s.tasks := rfl
@[simp] theorem runs_modGraph (s : State) (id : Nat) (f : Graph → Graph) : (s.modGraph id f).runs = s.runs := rfl
@[simp] theorem parts_modGraph (s : State) (id : Nat) (f : Graph → Graph) : (s.modGraph id f).parts = s.parts := rfl
@[simp] theorem packets_modGraph (s : State) (id : Nat) (f : Graph → Graph) : (s.modGraph id f).packets = s.packets := rfl
@[simp] theorem seqs_modGraph (s : State) (id : Nat) (f : Graph → Graph) : (s.modGraph id f).seqs = s.seqs := rfl
@[simp] theorem barriers_modGraph (s : State) (id : Nat) (f : Graph → Graph) : (s.modGraph id f).barriers = s.barriers := rfl
@[simp] theorem pubs_modGraph (s : State) (id : Nat) (f : Graph → Graph) : (s.modGraph id f).pubs = s.pubs := rfl
@[simp] theorem rings_modGraph (s : State) (id : Nat) (f : Graph → Graph) : (s.modGraph id f).rings = s.rings := rfl
@[simp] theorem fq_modGraph (s : State) (id : Nat) (f : Graph → Graph) : (s.modGraph id f).fq = s.fq := rfl
@[simp] theorem cask_modGraph (s : State) (id : Nat) (f : Graph → Graph) : (s.modGraph id f).cask = s.cask := rfl
@[simp] theorem sparge_modGraph (s : State) (id : Nat) (f : Graph → Graph) : (s.modGraph id f).sparge = s.sparge := rfl
@[simp] theorem regs_modGraph (s : State) (id : Nat) (f : Graph → Graph) : (s.modGraph id f).regs = s.regs := rfl
@[simp] theorem links_modGraph (s : State) (id : Nat) (f : Graph → Graph) : (s.modGraph id f).links = s.links := rfl
@[simp] theorem lastServed_modGraph (s : State) (id : Nat) (f : Graph → Graph) : (s.modGraph id f).lastServed = s.lastServed := rfl
@[simp] theorem placed_modGraph (s : State) (id : Nat) (f : Graph → Graph) : (s.modGraph id f).placed = s.placed := rfl
@[simp] theorem reservations_modGraph (s : State) (id : Nat) (f : Graph → Graph) : (s.modGraph id f).reservations = s.reservations := rfl
@[simp] theorem kernels_modGraph (s : State) (id : Nat) (f : Graph → Graph) : (s.modGraph id f).kernels = s.kernels := rfl
@[simp] theorem clock_modGraph (s : State) (id : Nat) (f : Graph → Graph) : (s.modGraph id f).clock = s.clock := rfl
@[simp] theorem clockAcc_modGraph (s : State) (id : Nat) (f : Graph → Graph) : (s.modGraph id f).clockAcc = s.clockAcc := rfl
@[simp] theorem clockEdge_modGraph (s : State) (id : Nat) (f : Graph → Graph) : (s.modGraph id f).clockEdge = s.clockEdge := rfl
@[simp] theorem clockEdges_modGraph (s : State) (id : Nat) (f : Graph → Graph) : (s.modGraph id f).clockEdges = s.clockEdges := rfl
@[simp] theorem powered_modGraph (s : State) (id : Nat) (f : Graph → Graph) : (s.modGraph id f).powered = s.powered := rfl
@[simp] theorem shutdown_modGraph (s : State) (id : Nat) (f : Graph → Graph) : (s.modGraph id f).shutdown = s.shutdown := rfl
@[simp] theorem spares_modGraph (s : State) (id : Nat) (f : Graph → Graph) : (s.modGraph id f).spares = s.spares := rfl
@[simp] theorem epoch_modGraph (s : State) (id : Nat) (f : Graph → Graph) : (s.modGraph id f).epoch = s.epoch := rfl
@[simp] theorem manifest_modGraph (s : State) (id : Nat) (f : Graph → Graph) : (s.modGraph id f).manifest = s.manifest := rfl
@[simp] theorem telemetry_modGraph (s : State) (id : Nat) (f : Graph → Graph) : (s.modGraph id f).telemetry = s.telemetry := rfl
@[simp] theorem l2Ways_modGraph (s : State) (id : Nat) (f : Graph → Graph) : (s.modGraph id f).l2Ways = s.l2Ways := rfl
@[simp] theorem hbmDegraded_modGraph (s : State) (id : Nat) (f : Graph → Graph) : (s.modGraph id f).hbmDegraded = s.hbmDegraded := rfl
@[simp] theorem sent_modGraph (s : State) (id : Nat) (f : Graph → Graph) : (s.modGraph id f).sent = s.sent := rfl

/-! ### What changing a run leaves -/

@[simp] theorem now_modRun (s : State) (id : Nat) (f : Run → Run) : (s.modRun id f).now = s.now := rfl
@[simp] theorem sched_modRun (s : State) (id : Nat) (f : Run → Run) : (s.modRun id f).sched = s.sched := rfl
@[simp] theorem cur_modRun (s : State) (id : Nat) (f : Run → Run) : (s.modRun id f).cur = s.cur := rfl
@[simp] theorem fresh_modRun (s : State) (id : Nat) (f : Run → Run) : (s.modRun id f).fresh = s.fresh := rfl
@[simp] theorem cores_modRun (s : State) (id : Nat) (f : Run → Run) : (s.modRun id f).cores = s.cores := rfl
@[simp] theorem mem_modRun (s : State) (id : Nat) (f : Run → Run) : (s.modRun id f).mem = s.mem := rfl
@[simp] theorem l2_modRun (s : State) (id : Nat) (f : Run → Run) : (s.modRun id f).l2 = s.l2 := rfl
@[simp] theorem lost_modRun (s : State) (id : Nat) (f : Run → Run) : (s.modRun id f).lost = s.lost := rfl
@[simp] theorem clusterTlb_modRun (s : State) (id : Nat) (f : Run → Run) : (s.modRun id f).clusterTlb = s.clusterTlb := rfl
@[simp] theorem tables_modRun (s : State) (id : Nat) (f : Run → Run) : (s.modRun id f).tables = s.tables := rfl
@[simp] theorem bays_modRun (s : State) (id : Nat) (f : Run → Run) : (s.modRun id f).bays = s.bays := rfl
@[simp] theorem tasks_modRun (s : State) (id : Nat) (f : Run → Run) : (s.modRun id f).tasks = s.tasks := rfl
@[simp] theorem graphs_modRun (s : State) (id : Nat) (f : Run → Run) : (s.modRun id f).graphs = s.graphs := rfl
@[simp] theorem parts_modRun (s : State) (id : Nat) (f : Run → Run) : (s.modRun id f).parts = s.parts := rfl
@[simp] theorem packets_modRun (s : State) (id : Nat) (f : Run → Run) : (s.modRun id f).packets = s.packets := rfl
@[simp] theorem seqs_modRun (s : State) (id : Nat) (f : Run → Run) : (s.modRun id f).seqs = s.seqs := rfl
@[simp] theorem barriers_modRun (s : State) (id : Nat) (f : Run → Run) : (s.modRun id f).barriers = s.barriers := rfl
@[simp] theorem pubs_modRun (s : State) (id : Nat) (f : Run → Run) : (s.modRun id f).pubs = s.pubs := rfl
@[simp] theorem rings_modRun (s : State) (id : Nat) (f : Run → Run) : (s.modRun id f).rings = s.rings := rfl
@[simp] theorem fq_modRun (s : State) (id : Nat) (f : Run → Run) : (s.modRun id f).fq = s.fq := rfl
@[simp] theorem cask_modRun (s : State) (id : Nat) (f : Run → Run) : (s.modRun id f).cask = s.cask := rfl
@[simp] theorem sparge_modRun (s : State) (id : Nat) (f : Run → Run) : (s.modRun id f).sparge = s.sparge := rfl
@[simp] theorem regs_modRun (s : State) (id : Nat) (f : Run → Run) : (s.modRun id f).regs = s.regs := rfl
@[simp] theorem links_modRun (s : State) (id : Nat) (f : Run → Run) : (s.modRun id f).links = s.links := rfl
@[simp] theorem lastServed_modRun (s : State) (id : Nat) (f : Run → Run) : (s.modRun id f).lastServed = s.lastServed := rfl
@[simp] theorem placed_modRun (s : State) (id : Nat) (f : Run → Run) : (s.modRun id f).placed = s.placed := rfl
@[simp] theorem reservations_modRun (s : State) (id : Nat) (f : Run → Run) : (s.modRun id f).reservations = s.reservations := rfl
@[simp] theorem kernels_modRun (s : State) (id : Nat) (f : Run → Run) : (s.modRun id f).kernels = s.kernels := rfl
@[simp] theorem clock_modRun (s : State) (id : Nat) (f : Run → Run) : (s.modRun id f).clock = s.clock := rfl
@[simp] theorem clockAcc_modRun (s : State) (id : Nat) (f : Run → Run) : (s.modRun id f).clockAcc = s.clockAcc := rfl
@[simp] theorem clockEdge_modRun (s : State) (id : Nat) (f : Run → Run) : (s.modRun id f).clockEdge = s.clockEdge := rfl
@[simp] theorem clockEdges_modRun (s : State) (id : Nat) (f : Run → Run) : (s.modRun id f).clockEdges = s.clockEdges := rfl
@[simp] theorem powered_modRun (s : State) (id : Nat) (f : Run → Run) : (s.modRun id f).powered = s.powered := rfl
@[simp] theorem shutdown_modRun (s : State) (id : Nat) (f : Run → Run) : (s.modRun id f).shutdown = s.shutdown := rfl
@[simp] theorem spares_modRun (s : State) (id : Nat) (f : Run → Run) : (s.modRun id f).spares = s.spares := rfl
@[simp] theorem epoch_modRun (s : State) (id : Nat) (f : Run → Run) : (s.modRun id f).epoch = s.epoch := rfl
@[simp] theorem manifest_modRun (s : State) (id : Nat) (f : Run → Run) : (s.modRun id f).manifest = s.manifest := rfl
@[simp] theorem telemetry_modRun (s : State) (id : Nat) (f : Run → Run) : (s.modRun id f).telemetry = s.telemetry := rfl
@[simp] theorem l2Ways_modRun (s : State) (id : Nat) (f : Run → Run) : (s.modRun id f).l2Ways = s.l2Ways := rfl
@[simp] theorem hbmDegraded_modRun (s : State) (id : Nat) (f : Run → Run) : (s.modRun id f).hbmDegraded = s.hbmDegraded := rfl
@[simp] theorem sent_modRun (s : State) (id : Nat) (f : Run → Run) : (s.modRun id f).sent = s.sent := rfl

/-! ### What changing a bay leaves -/

@[simp] theorem now_modBay (s : State) (n : Nat) (f : Bay → Bay) : (s.modBay n f).now = s.now := rfl
@[simp] theorem sched_modBay (s : State) (n : Nat) (f : Bay → Bay) : (s.modBay n f).sched = s.sched := rfl
@[simp] theorem cur_modBay (s : State) (n : Nat) (f : Bay → Bay) : (s.modBay n f).cur = s.cur := rfl
@[simp] theorem fresh_modBay (s : State) (n : Nat) (f : Bay → Bay) : (s.modBay n f).fresh = s.fresh := rfl
@[simp] theorem cores_modBay (s : State) (n : Nat) (f : Bay → Bay) : (s.modBay n f).cores = s.cores := rfl
@[simp] theorem mem_modBay (s : State) (n : Nat) (f : Bay → Bay) : (s.modBay n f).mem = s.mem := rfl
@[simp] theorem l2_modBay (s : State) (n : Nat) (f : Bay → Bay) : (s.modBay n f).l2 = s.l2 := rfl
@[simp] theorem lost_modBay (s : State) (n : Nat) (f : Bay → Bay) : (s.modBay n f).lost = s.lost := rfl
@[simp] theorem clusterTlb_modBay (s : State) (n : Nat) (f : Bay → Bay) : (s.modBay n f).clusterTlb = s.clusterTlb := rfl
@[simp] theorem tables_modBay (s : State) (n : Nat) (f : Bay → Bay) : (s.modBay n f).tables = s.tables := rfl
@[simp] theorem tasks_modBay (s : State) (n : Nat) (f : Bay → Bay) : (s.modBay n f).tasks = s.tasks := rfl
@[simp] theorem graphs_modBay (s : State) (n : Nat) (f : Bay → Bay) : (s.modBay n f).graphs = s.graphs := rfl
@[simp] theorem runs_modBay (s : State) (n : Nat) (f : Bay → Bay) : (s.modBay n f).runs = s.runs := rfl
@[simp] theorem parts_modBay (s : State) (n : Nat) (f : Bay → Bay) : (s.modBay n f).parts = s.parts := rfl
@[simp] theorem packets_modBay (s : State) (n : Nat) (f : Bay → Bay) : (s.modBay n f).packets = s.packets := rfl
@[simp] theorem seqs_modBay (s : State) (n : Nat) (f : Bay → Bay) : (s.modBay n f).seqs = s.seqs := rfl
@[simp] theorem barriers_modBay (s : State) (n : Nat) (f : Bay → Bay) : (s.modBay n f).barriers = s.barriers := rfl
@[simp] theorem pubs_modBay (s : State) (n : Nat) (f : Bay → Bay) : (s.modBay n f).pubs = s.pubs := rfl
@[simp] theorem rings_modBay (s : State) (n : Nat) (f : Bay → Bay) : (s.modBay n f).rings = s.rings := rfl
@[simp] theorem fq_modBay (s : State) (n : Nat) (f : Bay → Bay) : (s.modBay n f).fq = s.fq := rfl
@[simp] theorem cask_modBay (s : State) (n : Nat) (f : Bay → Bay) : (s.modBay n f).cask = s.cask := rfl
@[simp] theorem sparge_modBay (s : State) (n : Nat) (f : Bay → Bay) : (s.modBay n f).sparge = s.sparge := rfl
@[simp] theorem regs_modBay (s : State) (n : Nat) (f : Bay → Bay) : (s.modBay n f).regs = s.regs := rfl
@[simp] theorem links_modBay (s : State) (n : Nat) (f : Bay → Bay) : (s.modBay n f).links = s.links := rfl
@[simp] theorem lastServed_modBay (s : State) (n : Nat) (f : Bay → Bay) : (s.modBay n f).lastServed = s.lastServed := rfl
@[simp] theorem placed_modBay (s : State) (n : Nat) (f : Bay → Bay) : (s.modBay n f).placed = s.placed := rfl
@[simp] theorem reservations_modBay (s : State) (n : Nat) (f : Bay → Bay) : (s.modBay n f).reservations = s.reservations := rfl
@[simp] theorem kernels_modBay (s : State) (n : Nat) (f : Bay → Bay) : (s.modBay n f).kernels = s.kernels := rfl
@[simp] theorem clock_modBay (s : State) (n : Nat) (f : Bay → Bay) : (s.modBay n f).clock = s.clock := rfl
@[simp] theorem clockAcc_modBay (s : State) (n : Nat) (f : Bay → Bay) : (s.modBay n f).clockAcc = s.clockAcc := rfl
@[simp] theorem clockEdge_modBay (s : State) (n : Nat) (f : Bay → Bay) : (s.modBay n f).clockEdge = s.clockEdge := rfl
@[simp] theorem clockEdges_modBay (s : State) (n : Nat) (f : Bay → Bay) : (s.modBay n f).clockEdges = s.clockEdges := rfl
@[simp] theorem powered_modBay (s : State) (n : Nat) (f : Bay → Bay) : (s.modBay n f).powered = s.powered := rfl
@[simp] theorem shutdown_modBay (s : State) (n : Nat) (f : Bay → Bay) : (s.modBay n f).shutdown = s.shutdown := rfl
@[simp] theorem spares_modBay (s : State) (n : Nat) (f : Bay → Bay) : (s.modBay n f).spares = s.spares := rfl
@[simp] theorem epoch_modBay (s : State) (n : Nat) (f : Bay → Bay) : (s.modBay n f).epoch = s.epoch := rfl
@[simp] theorem manifest_modBay (s : State) (n : Nat) (f : Bay → Bay) : (s.modBay n f).manifest = s.manifest := rfl
@[simp] theorem telemetry_modBay (s : State) (n : Nat) (f : Bay → Bay) : (s.modBay n f).telemetry = s.telemetry := rfl
@[simp] theorem l2Ways_modBay (s : State) (n : Nat) (f : Bay → Bay) : (s.modBay n f).l2Ways = s.l2Ways := rfl
@[simp] theorem hbmDegraded_modBay (s : State) (n : Nat) (f : Bay → Bay) : (s.modBay n f).hbmDegraded = s.hbmDegraded := rfl
@[simp] theorem sent_modBay (s : State) (n : Nat) (f : Bay → Bay) : (s.modBay n f).sent = s.sent := rfl

@[simp] theorem core_modTask (s : State) (id n : Nat) (f : Task → Task) : (s.modTask id f).core n = s.core n := rfl
@[simp] theorem core_modGraph (s : State) (id n : Nat) (f : Graph → Graph) : (s.modGraph id f).core n = s.core n := rfl
@[simp] theorem core_modRun (s : State) (id n : Nat) (f : Run → Run) : (s.modRun id f).core n = s.core n := rfl
@[simp] theorem core_modBay (s : State) (id n : Nat) (f : Bay → Bay) : (s.modBay id f).core n = s.core n := rfl

/-! ### The executing context and engine -/

theorem core_cur (s : State) : s.core s.cur.core = rd s.cores s.cur.core {} := rfl

/-- Changing the executing engine is seen by it. -/
theorem curE_modCurE (s : State) (f : Engine → Engine) (h : s.cur.core < 320) : curE (modCurE s f) = f (curE s) := by
  simp [curE, modCurE, h]

theorem modCurE_modCurE (s : State) (f g : Engine → Engine) (h : s.cur.core < 320) :
    modCurE (modCurE s f) g = modCurE s (fun e => g (f e)) := by
  simp only [modCurE, cur_modE]; exact modE_modE _ _ _ _ h

@[simp] theorem modCurE_id (s : State) : modCurE s (fun e => e) = s := by
  show s.setCore s.cur.core (s.core s.cur.core) = s
  exact setCore_self ..

end Sys2Proof.Machine
end

