-- ==== Sys2Proof/Laws/Generator.lean ====
section
/-! SUPPORT. What the shared operations of the generator do: issue, completion, jumps and registers. -/

namespace Sys2Proof.Machine

/-! ### Ready contexts -/

theorem rd_powered_lt {s : State} {n : Nat} (h : rd s.powered (n / 160) false = true) : n < 320 := by
  by_contra hn
  rw [rd_ge _ _ _ (by omega)] at h
  cases h

theorem coreRuns_lt {s : State} {n : Nat} {x : Ctx} (h : coreRuns s n x = true) : n < 320 := by
  simp only [coreRuns, Bool.and_eq_true] at h
  exact rd_powered_lt h.1.1

theorem genReady_lt {s : State} {rs : List Reg} (h : genReady s rs = true) : s.cur.core < 320 := by
  simp only [genReady, Bool.and_eq_true] at h
  exact coreRuns_lt h.1.1.1

/-! ### The executing context -/

@[simp] theorem cur_modCurG (s : State) (f : GenCtx → GenCtx) : (modCurG s f).cur = s.cur := rfl

@[simp] theorem now_modCurG (s : State) (f : GenCtx → GenCtx) : (modCurG s f).now = s.now := rfl

@[simp] theorem mem_modCurG (s : State) (f : GenCtx → GenCtx) : (modCurG s f).mem = s.mem := rfl

/-- A changed context reads as changed. -/
theorem curG_modCurG {s : State} (f : GenCtx → GenCtx) (h : s.cur.core < 320) : curG (modCurG s f) = f (curG s) := by
  simp only [curG, modCurG, State.modG, cur_modCore, core_modCore_same _ _ _ h, gctx_setG_same]

/-- Two changes of the executing context are one. -/
theorem modCurG_modCurG {s : State} (f g : GenCtx → GenCtx) (h : s.cur.core < 320) :
    modCurG (modCurG s f) g = modCurG s fun c => g (f c) := by
  simp only [modCurG, cur_modG, modG_modG _ _ _ _ _ h]

/-- A change of the executing context is known by its value there. -/
theorem modCurG_congr {s : State} {f g : GenCtx → GenCtx} (h : f (curG s) = g (curG s)) : modCurG s f = modCurG s g := by
  simp only [modCurG, State.modG, modCore_def]
  congr 1
  show Core.setG _ _ (f (curG s)) = Core.setG _ _ (g (curG s))
  rw [h]

/-- A context changed into itself is no change. -/
theorem modCurG_self (s : State) : modCurG s (fun g => g) = s := by
  simp only [modCurG, State.modG, modCore_def, setG_self, setCore_self]

/-! ### Issue -/

/-- A ready context executes the body of an instruction that handler mode allows. -/
theorem genIssue_ready {s : State} {rs : List Reg} (body : State → Out) (h : genReady s rs = true) : genIssue s rs true body = body s := by
  simp [genIssue, h]

/-- Outside handler mode it executes every body. -/
theorem genIssue_user {s : State} {rs : List Reg} {inHandler : Bool} (body : State → Out) (h : genReady s rs = true)
    (hu : (curG s).handler = false) : genIssue s rs inHandler body = body s := by
  simp [genIssue, h, hu]

/-- A context that may not issue leaves the state as it is. -/
theorem genIssue_held {s : State} {rs : List Reg} {inHandler : Bool} (body : State → Out) (h : genReady s rs = false) :
    genIssue s rs inHandler body = .next s := by
  simp [genIssue, h]

/-! ### Completion -/

/-- The parts of a context that decide where it goes on. -/
def SamePath (g g' : GenCtx) : Prop := g'.pc = g.pc ∧ g'.handler = g.handler ∧ g'.nest = g.nest ∧ g'.lp = g.lp

theorem SamePath.refl (g : GenCtx) : SamePath g g := ⟨rfl, rfl, rfl, rfl⟩

theorem SamePath.trans {g g' g'' : GenCtx} (h : SamePath g g') (h' : SamePath g' g'') : SamePath g g'' := by
  obtain ⟨a, b, c, d⟩ := h
  obtain ⟨a', b', c', d'⟩ := h'
  exact ⟨a'.trans a, b'.trans b, c'.trans c, d'.trans d⟩

theorem samePath_gSet (g : GenCtx) (r : Reg) (v : W64) : SamePath g (gSet g r v) := by
  unfold gSet
  split
  · exact .refl g
  · split <;> exact ⟨rfl, rfl, rfl, rfl⟩

theorem samePath_setCond (g : GenCtx) (k : BitVec 4) (c : Bool) : SamePath g (setCond g k c) := ⟨rfl, rfl, rfl, rfl⟩

theorem samePath_clearCond (g : GenCtx) (k : BitVec 4) : SamePath g (clearCond g k) := ⟨rfl, rfl, rfl, rfl⟩

theorem samePath_setTarget (g : GenCtx) (k : BitVec 4) (n : Nat) (t : BitVec 48) : SamePath g (setTarget g k n t) := ⟨rfl, rfl, rfl, rfl⟩

theorem loopEnd_pc (a : BitVec 48) (ns : List Nat) : ∀ (g g' : GenCtx), g'.pc = g.pc → g'.nest = g.nest → g'.lp = g.lp →
    (loopEnd a ns g').pc = (loopEnd a ns g).pc := by
  induction ns with
  | nil => intro g g' h _ _; exact h
  | cons n r ih =>
    intro g g' h hn hl
    simp only [loopEnd, hl]
    split
    · exact h
    · split
      · exact ih _ _ h (by simp [hn]) rfl
      · rfl

/-- Where a context goes on depends on its path alone. -/
theorem advance_pc {g g' : GenCtx} (h : SamePath g g') (len : Nat) : (advance g' len).pc = (advance g len).pc := by
  obtain ⟨hp, hh, hn, hl⟩ := h
  unfold advance
  rw [hp, hh, hn]
  split
  · rfl
  · exact loopEnd_pc _ _ _ _ rfl rfl hl

/-- An instruction completes where its context goes on. -/
theorem genDone_next {before after : State} {len : Nat} (h : (advance (curG after) len).pc.toNat % 4 = 0) :
    genDone before after len = modCurG after fun g => advance g len := by
  simp only [genDone, h, ne_eq, not_true_eq_false, ite_false]
  exact modCurG_congr rfl

/-- A plain instruction that changes its context off its path, where the context goes on. -/
theorem genPlain_next {s : State} {rs : List Reg} {len : Nat} {f : GenCtx → GenCtx} (h : genReady s rs = true)
    (hp : SamePath (curG s) (f (curG s))) (hg : (advance (curG s) len).pc.toNat % 4 = 0) :
    genPlain s rs len f = .next (modCurG s fun g => advance (f g) len) := by
  have hl := genReady_lt h
  rw [genPlain, genIssue_ready _ h, genDone_next, modCurG_modCurG _ _ hl]
  rw [curG_modCurG _ hl, advance_pc hp]
  exact hg

/-- A jump to an aligned address. -/
theorem genJump_next {before after : State} {pc : BitVec 48} (h : pc.toNat % 4 = 0) :
    genJump before after pc = modCurG after fun g => { g with pc := pc } := by
  simp [genJump, h]

/-! ### Registers -/

theorem gReg_zero (g : GenCtx) : gReg g 0 = 0 := rfl

theorem gSet_zero (g : GenCtx) (v : W64) : gSet g 0 v = g := rfl

end Sys2Proof.Machine
end

