-- ==== Sys2Proof/Laws/Memory.lean ====
section
/-! SUPPORT. The memory operations keep the canonical form of a memory: addresses strictly rising, and no entry 0. -/

namespace Sys2Proof.Machine

/-- Every entry of a memory stands above an address. -/
def Memory.above (a : Nat) (m : Mem) : Prop := ∀ p ∈ m, a < p.1

theorem Memory.wf_nil : Memory.wf [] = true := rfl

/-- A memory is canonical when its head is not 0, its tail is canonical, and the tail stands above the head. -/
theorem Memory.wf_cons (a : Nat) (b : Byte) (m : Mem) :
    Memory.wf ((a, b) :: m) = true ↔ b ≠ 0 ∧ Memory.above a m ∧ Memory.wf m = true := by
  induction m generalizing a b with
  | nil => simp [Memory.wf, Memory.above]
  | cons p r ih =>
    obtain ⟨c, d⟩ := p
    simp only [Memory.wf, Bool.and_eq_true, decide_eq_true_eq, bne_iff_ne, and_assoc]
    refine and_congr_right fun _ => ⟨fun ⟨hac, hw⟩ => ⟨?_, hw⟩, fun ⟨h, hw⟩ => ⟨h (c, d) (by simp), hw⟩⟩
    obtain ⟨-, habove, -⟩ := (ih c d).1 hw
    intro q hq
    rcases List.mem_cons.1 hq with rfl | hq
    · exact hac
    · exact Nat.lt_trans hac (habove q hq)

/-- A byte written above an address leaves the memory above it. -/
theorem Memory.above_memSet {a x : Nat} {b : Byte} {m : Mem} (h : Memory.above a m) (hx : a < x) : Memory.above a (memSet m x b) := by
  induction m with
  | nil =>
    intro p hp
    unfold memSet at hp
    split at hp <;> simp_all
  | cons q r ih =>
    obtain ⟨k, c⟩ := q
    have hk : a < k := h (k, c) (by simp)
    have hr : Memory.above a r := fun p hp => h p (List.mem_cons_of_mem _ hp)
    intro p hp
    unfold memSet at hp
    split_ifs at hp
    · exact h p hp
    · rcases List.mem_cons.1 hp with rfl | hp
      · exact hx
      · exact h p hp
    · exact hr p hp
    · rcases List.mem_cons.1 hp with rfl | hp
      · exact hx
      · exact hr p hp
    · rcases List.mem_cons.1 hp with rfl | hp
      · exact hk
      · exact ih hr p hp

/-- Writing a byte keeps the canonical form. -/
theorem memSet_wf {m : Mem} (a : Nat) (b : Byte) (h : Memory.wf m = true) : Memory.wf (memSet m a b) = true := by
  induction m with
  | nil =>
    unfold memSet
    split <;> simp_all [Memory.wf]
  | cons q r ih =>
    obtain ⟨k, c⟩ := q
    obtain ⟨hc, habove, hr⟩ := (Memory.wf_cons k c r).1 h
    unfold memSet
    split_ifs with h1 h2 h3 h4
    · exact h
    · refine (Memory.wf_cons a b _).2 ⟨h2, fun p hp => ?_, h⟩
      rcases List.mem_cons.1 hp with rfl | hp
      · exact h1
      · exact Nat.lt_trans h1 (habove p hp)
    · exact hr
    · exact (Memory.wf_cons a b r).2 ⟨h4, h3 ▸ habove, hr⟩
    · exact (Memory.wf_cons k c _).2 ⟨hc, Memory.above_memSet habove (by omega), ih hr⟩

/-- Writing bytes keeps the canonical form. -/
theorem memWrite_wf {m : Mem} (a : Nat) (l : List Byte) (h : Memory.wf m = true) : Memory.wf (memWrite m a l) = true := by
  induction l generalizing m a with
  | nil => simpa [memWrite] using h
  | cons b r ih => exact ih (a + 1) (memSet_wf a b h)

/-- Dropping entries keeps the canonical form. -/
theorem filter_wf {m : Mem} (keep : Nat × Byte → Bool) (h : Memory.wf m = true) : Memory.wf (m.filter keep) = true := by
  induction m with
  | nil => rfl
  | cons q r ih =>
    obtain ⟨k, c⟩ := q
    obtain ⟨hc, habove, hr⟩ := (Memory.wf_cons k c r).1 h
    rw [List.filter_cons]
    split
    · exact (Memory.wf_cons k c _).2 ⟨hc, fun p hp => habove p (List.mem_of_mem_filter hp), ih hr⟩
    · exact ih hr

/-- Zeroing a range keeps the canonical form. -/
theorem zeroRange_wf {m : Mem} (a n : Nat) (h : Memory.wf m = true) : Memory.wf (zeroRange m a n) = true := filter_wf _ h

/-- Scratchpad stores, written as a cycle ends, keep the canonical form. -/
theorem storeAll_wf {m : Mem} (l : List (Nat × Byte)) (h : Memory.wf m = true) :
    Memory.wf (l.foldl (fun m p => memSet m p.1 p.2) m) = true := by
  induction l generalizing m with
  | nil => exact h
  | cons p r ih => exact ih (memSet_wf p.1 p.2 h)

/-! ### The L2 and the point of coherence -/

/-- A fold of steps that keep the canonical form of the point of coherence keeps it. -/
theorem foldl_wf {α : Type} {f : State → α → State} (hf : ∀ s x, Memory.wf s.mem = true → Memory.wf (f s x).mem = true) (l : List α) :
    ∀ s, Memory.wf s.mem = true → Memory.wf (l.foldl f s).mem = true := by
  induction l with
  | nil => exact fun _ h => h
  | cons x r ih => exact fun s h => ih _ (hf s x h)

/-- Dropping a sector keeps the canonical form. -/
theorem dropSector_wf (s : State) (g : Nat) (h : Memory.wf s.mem = true) : Memory.wf (dropSector s g).mem = true := by
  unfold dropSector
  split
  · exact h
  · dsimp only
    split
    · exact h
    · exact memWrite_wf _ _ h

/-- Evicting a line keeps the canonical form. -/
theorem l2Evict_wf (s : State) (ln : Nat) (h : Memory.wf s.mem = true) : Memory.wf (l2Evict s ln).mem = true :=
  dropSector_wf _ _ (dropSector_wf _ _ h)

/-- Filling a sector keeps the canonical form. -/
theorem l2Fill_wf (s : State) (dirty : Bool) (g : Nat) (h : Memory.wf s.mem = true) : Memory.wf (l2Fill s dirty g).mem = true := by
  unfold l2Fill
  split
  · exact h
  · split
    · exact h
    · dsimp only
      split
      · exact l2Evict_wf _ _ h
      · exact h

/-- A sector written to system scope leaves the point of coherence as it is. -/
theorem pushSector_mem (s : State) (g : Nat) : (pushSector s g).mem = s.mem := by
  unfold pushSector
  split
  · rfl
  · split <;> rfl

/-- A range written anew and lost no more leaves memory as it is. -/
@[simp] theorem heal_mem (s : State) (mk : Nat → Granule) (a len : Nat) : (heal s mk a len).mem = s.mem := by
  unfold heal
  split <;> rfl

/-- A write at the point of coherence keeps the canonical form. -/
theorem pocWrite_wf (s : State) (pa : Nat) (data : List Byte) (h : Memory.wf s.mem = true) : Memory.wf (pocWrite s pa data).mem = true := by
  unfold pocWrite
  split
  · exact h
  · exact memWrite_wf _ _ (by rw [heal_mem]; exact foldl_wf (fun s g => l2Fill_wf s true g) _ _ h)

/-- So does a write that the L2 takes no new copy of. -/
theorem uncachedWrite_wf (s : State) (pa : Nat) (data : List Byte) (h : Memory.wf s.mem = true) :
    Memory.wf (uncachedWrite s pa data).mem = true := by
  unfold uncachedWrite
  split
  · exact pocWrite_wf _ _ _ h
  · exact foldl_wf (fun s g => l2Fill_wf s true g) _ _ (memWrite_wf _ _ h)

/-- So does a write through to system scope. -/
theorem throughWrite_wf (s : State) (pa : Nat) (data : List Byte) (h : Memory.wf s.mem = true) :
    Memory.wf (throughWrite s pa data).mem = true := by
  unfold throughWrite
  split
  · exact uncachedWrite_wf _ _ _ h
  · exact foldl_wf (fun s g hs => by rw [pushSector_mem]; exact hs) _ _ (uncachedWrite_wf _ _ _ h)

/-- So does a write of another host to the pool. -/
theorem poolWrite_wf (s : State) (a : Nat) (data : List Byte) (h : Memory.wf s.mem = true) : Memory.wf (poolWrite s a data).mem = true := by
  induction data generalizing s a with
  | nil => exact h
  | cons b r ih =>
    refine ih _ _ ?_
    split
    · unfold poolPut
      split
      · exact memSet_wf _ _ (by rwa [heal_mem])
      · exact (heal_mem ..).symm ▸ h
    · exact h

/-- The memory right after reset lists nothing. -/
theorem reset_mem_wf : Memory.wf State.reset.mem = true := rfl

end Sys2Proof.Machine
end

