-- ==== Sys2Proof/Laws/Slot.lean ====
section
/-! SUPPORT. What the shared issue of slot ops does: it waits, raises a fault, or lets the op take its unit and its tag. -/

namespace Sys2Proof.Machine

/-- Everything a slot op can do at issue. -/
theorem slotIssue_cases {s t : State} {tagw : BitVec 8} {taga : BitVec 4} {unitOk fieldsOk : Bool}
    {body : State → Option (BitVec 3) → Iss} (h : slotIssue s tagw taga unitOk fieldsOk body = .next t) :
    t = s ∨ t = slotFault s (class0 s.cur.slot 1) 0 0 0 ∨
    (∃ c a d0 d1, body s (tagOf taga) = .fault c a d0 d1 ∧ t = slotFault s c a d0 d1) ∨
    ∃ s' n, body s (tagOf taga) = .go s' n ∧ t = issued s' n (tagOf taga) := by
  unfold slotIssue at h
  split at h
  · exact .inl (Host.Outcome.next.inj h).symm
  · split at h
    · exact .inr (.inl (Host.Outcome.next.inj h).symm)
    · split at h
      · rename_i hb
        exact .inr (.inr (.inl ⟨_, _, _, _, hb, (Host.Outcome.next.inj h).symm⟩))
      · exact .inl (Host.Outcome.next.inj h).symm
      · rename_i hb
        split at h
        · exact .inl (Host.Outcome.next.inj h).symm
        · exact .inr (.inr (.inr ⟨_, _, hb, (Host.Outcome.next.inj h).symm⟩))

/-- It always answers a next state. -/
theorem slotIssue_answers (s : State) (tagw : BitVec 8) (taga : BitVec 4) (unitOk fieldsOk : Bool)
    (body : State → Option (BitVec 3) → Iss) : ∃ t, slotIssue s tagw taga unitOk fieldsOk body = .next t := by
  unfold slotIssue
  split
  · exact ⟨_, rfl⟩
  · split
    · exact ⟨_, rfl⟩
    · split
      · exact ⟨_, rfl⟩
      · exact ⟨_, rfl⟩
      · split <;> exact ⟨_, rfl⟩

/-- An op whose unit is free, whose consumed tags and whose own tag are clear and whose fields are good does what its body says. -/
theorem slotIssue_ready {s : State} {tagw : BitVec 8} {taga : BitVec 4} (body : State → Option (BitVec 3) → Iss)
    (hr : streamRuns s s.cur.core = true) (hu : unitReady s s.cur.core s.cur.slot = true) (hw : (curE s).tags &&& tagw = 0)
    (ht : tagSet (curE s) (tagOf taga) = false) (hg : tagaOk taga = true) :
    slotIssue s tagw taga true true body = match body s (tagOf taga) with
      | .fault c a d0 d1 => .next (slotFault s c a d0 d1)
      | .wait => .next s
      | .go s' n => .next (issued s' n (tagOf taga)) := by
  unfold slotIssue
  simp only [hr, hu, hw, ht, hg, Bool.not_true, Bool.or_false, Bool.false_eq_true, ne_eq, not_true_eq_false, decide_false, Bool.false_and,
    if_false, Bool.and_true] <;> rfl

/-- An op with a bad field raises kind 1 of its slot's class and does nothing else. -/
theorem slotIssue_badField {s : State} {tagw : BitVec 8} {taga : BitVec 4} (body : State → Option (BitVec 3) → Iss)
    (hr : streamRuns s s.cur.core = true) (hu : unitReady s s.cur.core s.cur.slot = true) (hw : (curE s).tags &&& tagw = 0) :
    slotIssue s tagw taga true false body = .next (slotFault s (class0 s.cur.slot 1) 0 0 0) := by
  unfold slotIssue
  simp [hr, hu, hw]

/-- A fault of the user context changes its core alone. -/
theorem raise_frame (s : State) (n : Nat) (fi : FaultInfo) (h : fi.ctx = .user) : { raise s n fi with cores := s.cores } = s := by
  unfold raise
  simp only [h, reduceCtorEq, if_false]
  repeat' split
  all_goals rfl

/-- A fault of the firmware context is a record in its bay's log and nothing else (R293). -/
theorem raise_firmware (s : State) (n : Nat) (fi : FaultInfo) (h : fi.ctx = .firmware) :
    raise s n fi = firmwareFault s n fi.cause fi.addr fi.det1 := by
  unfold raise
  simp only [h, if_true]

end Sys2Proof.Machine
end

