-- ==== Sys2Proof/Tests/Slice0.lean ====
section
/-! SUPPORT. Small tests: words written out from the encodings, ill-formed terms, single steps on small states, and for each
statement with hypotheses a state and operands that meet them. Expected results come from the rules cited. -/

set_option Elab.async false

namespace Sys2Proof.Tests

open Sys2Proof.Machine Sys2Proof.Claims

/-! ### Decoding and encoding -/

/-- Words written out from the forms of R94 and the fields of R107, opcodes 0x00 to 0x29 (R96). -/
def genWords0 : List (Nat × Instr) := [
  (0x003B1180, .gadd 3 17 29),
  (0x003B1181, .gsub 3 17 29),
  (0x003B1182, .gmul 3 17 29),
  (0x003B1183, .gmulh 3 17 29),
  (0x003B1184, .gmulhn 3 17 29),
  (0x003B1185, .gdiv 3 17 29),
  (0x003B1186, .gdivn 3 17 29),
  (0x003B1187, .grem 3 17 29),
  (0x003B1188, .gremn 3 17 29),
  (0x003B1189, .gand 3 17 29),
  (0x003B118A, .gor 3 17 29),
  (0x003B118B, .gxor 3 17 29),
  (0x003B118C, .gshl 3 17 29),
  (0x003B118D, .gshr 3 17 29),
  (0x003B118E, .gsra 3 17 29),
  (0x003B118F, .gmin 3 17 29),
  (0x003B1190, .gmax 3 17 29),
  (0xFFFD1191, .gaddi 3 17 (-2)),
  (0xFFFD1192, .gandi 3 17 (-2)),
  (0xFFFD1193, .gori 3 17 (-2)),
  (0xFFFD1194, .gxori 3 17 (-2)),
  (0x007F1195, .gshli 3 17 63),
  (0x007F1196, .gshri 3 17 63),
  (0x007F1197, .gsrai 3 17 63),
  (0x0001EF98, .gjalr 31 30),
  (0x03800299, .glpget 5 2 3),
  (0x0240601A, .glpset 1 2 6),
  (0x2E86209B, .gamo 1 2 3 10 1 5),
  (0x03C0049C, .gms 9 15),
  (0x0ACA021D, .gsync 4 5 0x2B),
  (0x0000001E, .gyield),
  (0x0000001F, .gifence),
  (0x01C415A0, .gcmp 11 7 1 2),
  (0x00000521, .gbr 10),
  (0x000004A2, .gbrf 9),
  (0x01883423, .gfb 8 6 3 4),
  (0x000833A4, .launchT 7 3 4),
  (0x004833A4, .launchG 7 3 4),
  (0x0009E325, .join 6 30 4),
  (0x008832A6, .qpush 5 2 3 4),
  (0x00C83227, .qpop 4 3 3 4),
  (0x000831A8, .gbwait 3 3 4),
  (0x0001F129, .ckdecide 2 31)]

/-- The same, opcodes 0x30 to 0x49; a second word stands above bit 31. -/
def genWords1 : List (Nat × Instr) := [
  (0x007FFF30, .emit 0xFFFE),
  (0xE5891A31, .emitp 0x1234 0xB 28),
  (0x01407032, .emitl 5 7),
  (0x00128033, .emits 8 9),
  (0x00007FB4, .cldd 0x00FF),
  (0x01404035, .cset 5 4),
  (0x01400236, .cget 4 5),
  (0x00002037, .tret 2),
  (0x20403038, .gbarr 3 0x81),
  (0x00000039, .ckskip),
  (0x000620BA, .ckstore 1 2 3),
  (0xFFFE003B, .gtrap 0x7FFF),
  (0x0040003C, .geret 1),
  (0x0020033D, .gcrr 6 0x10),
  (0x0004703E, .gcrw 2 7),
  (0x0000003F, .gnop),
  (0x12345000003C0, .gli 7 0x12345),
  (0xFFFFFFFF000003C1, .glih 7 0xFFFFFFFF),
  (0x80000000010035C2, .gcmpi 11 4 3 0x80000000),
  (0x10004000C3, .gprepPc 1 16),
  (0x10000090C3, .gprepReg 1 9 16),
  (0xFFFFFFF800000FC4, .gjal 31 0xFFFFFFF8),
  (0x2000C04045, .gloop 3 4 0x20),
  (0x01804045, .gloopRe 2 4),
  (0x40058062C6, .gld 5 6 6 2 0x40),
  (0x403ACA6047, .gst 6 5 3 1 7 0x40),
  (0x8000406048, .gpref 6 1 0x80),
  (0x7FFFE7891A49, .emitn 0x1234 0xF 28 0x7FFF)]

theorem test_decode_generator_words : ((genWords0 ++ genWords1).all fun p => decodeGen p.1 == .ok p.2) = true := by decide +kernel

theorem test_encode_generator_words : ((genWords0 ++ genWords1).all fun p => (encodeGen p.2).map (·.2) == some p.1) = true := by decide +kernel

/-- Words that R95 makes no instruction, with the code it raises. -/
def badWords : List (Nat × DecodeError) := [
  (0x0000002A, .reservedOpcode),
  (0x0000004A, .reservedOpcode),
  (0x0000007F, .reservedOpcode),
  (0x00462080, .reservedField),
  (0x02C6209B, .reservedFunction),
  (0x00041620, .steerInvalid),
  (0x00041820, .reservedField),
  (0x02041620, .reservedFunction),
  (0x0001F025, .reservedFunction),
  (0x007FFFB0, .reservedFunction),
  (0x00001032, .reservedField),
  (0x01801035, .reservedFunction),
  (0x018000B6, .reservedFunction),
  (0x01C020C6, .reservedFunction),
  (0x060020C6, .reservedFunction),
  (0x06022047, .reservedFunction),
  (0x00802095, .reservedFunction)]

theorem test_decode_refuses : (badWords.all fun p => decodeGen p.1 == .bad p.2) = true := by decide +kernel

def sFields : SOp := { dst := 0x21, a := 0x11, b := 0x3E, mod := 0x29, pred := 0x9, taga := 0xA, tagw := 0x81 }

def siFields : SIOp := { dst := 0x21, a := 0x11, imm := 0xABC, pred := 0x9, taga := 0xA, tagw := 0x81 }

def vFields : VOp := { dst := 0x11, a := 0x9, b := 0x1E, c := 0x5, bk := 0x2, msk := 0x5, etype := 0x6, rnd := 0x3, sat := 0x1, neg := 0x2, beats := 0xB, xtra := 0x26, taga := 0xC, tagw := 0x42 }

def mFields : MOp := { beats := 0xA5, sel := 0x5, fa := 0x1, fb := 0x2, ma := 0x6, bsrc := 0x3, mode := 0x2, taga := 0x9, tagw := 0x18 }

def xmFields : XMOp := { reg := 0x2D, base := 0x13, ofs := 0x8F0F1, col := 0x5, pol := 0x2, taga := 0xB, tagw := 0x24 }

def xrFields : XROp := { a := 0x2D, b := 0x13, c := 0x34, fn := 0x26, tmo := 0x15, q := 0xD, sc := 0x6, rsv := 0x0, taga := 0xB, tagw := 0x24 }

/-- S fields written out from R77 and R97. -/
def sWords : List (Nat × Instr) := [
  (0x81A9A7E46100, .snop sFields),
  (0x81A9A7E46101, .sadd sFields),
  (0x81A9ABC46102, .saddi siFields),
  (0x81A9A7E46103, .ssub sFields),
  (0x81A9A7E46104, .smul sFields),
  (0x81A9A7E46105, .sand sFields),
  (0x81A9A7E46106, .sor sFields),
  (0x81A9A7E46107, .sxor sFields),
  (0x81A9A7E46108, .sshl sFields),
  (0x81A9A7E46109, .sshr sFields),
  (0x81A9A7E4610A, .ssra sFields),
  (0x81A9A7E4610B, .smin sFields),
  (0x81A9A7E4610C, .smax sFields),
  (0x81A9ABC4610D, .sli siFields),
  (0x81A9A7E4610E, .scmp sFields),
  (0x81A9ABC4610F, .scmpi siFields),
  (0x81A9A7E46110, .ssel sFields),
  (0x81A9A7E46111, .sms sFields),
  (0x81A9A7E46112, .sfb sFields),
  (0x81A9A7E46113, .ssetfm sFields),
  (0x81A9A7E46114, .ssetma sFields),
  (0x81A9A7E46115, .ssetch sFields),
  (0x81A9A7E46116, .ssetmk sFields),
  (0x81A9A7E46117, .swait sFields),
  (0x81A9A7E46118, .stime sFields),
  (0x81A9A7E46119, .spred sFields)]

/-- V fields written out from R78 and R98, opcodes up to 0x1D. -/
def vWords0 : List (Nat × Instr) := [
  (0x42C9AEED62F93100, .vnop vFields),
  (0x42C9AEED62F93101, .vadd vFields),
  (0x42C9AEED62F93102, .vsub vFields),
  (0x42C9AEED62F93103, .vmul vFields),
  (0x42C9AEED62F93104, .vmulh vFields),
  (0x42C9AEED62F93105, .vmad vFields),
  (0x42C9AEED62F93106, .vwadd vFields),
  (0x42C9AEED62F93107, .vwmul vFields),
  (0x42C9AEED62F93108, .vsadd vFields),
  (0x42C9AEED62F93109, .vssub vFields),
  (0x42C9AEED62F9310A, .vmin vFields),
  (0x42C9AEED62F9310B, .vmax vFields),
  (0x42C9AEED62F9310C, .vabs vFields),
  (0x42C9AEED62F9310D, .vand vFields),
  (0x42C9AEED62F9310E, .vor vFields),
  (0x42C9AEED62F9310F, .vxor vFields),
  (0x42C9AEED62F93110, .vshl vFields),
  (0x42C9AEED62F93111, .vshr vFields),
  (0x42C9AEED62F93112, .vsra vFields),
  (0x42C9AEED62F93113, .vclz vFields),
  (0x42C9AEED62F93114, .vpopc vFields),
  (0x42C9AEED62F93115, .vcmp vFields),
  (0x42C9AEED62F93116, .vsel vFields),
  (0x42C9AEED62F93117, .vmov vFields),
  (0x42C9AEED62F93118, .vbcast vFields),
  (0x42C9AEED62F93119, .viota vFields),
  (0x42C9AEED62F9311A, .vperm vFields),
  (0x42C9AEED62F9311B, .vrot vFields),
  (0x42C9AEED62F9311C, .vcmprs vFields),
  (0x42C9AEED62F9311D, .vexpnd vFields)]

/-- The same from 0x1E. -/
def vWords1 : List (Nat × Instr) := [
  (0x42C9AEED62F9311E, .vscan vFields),
  (0x42C9AEED62F9311F, .vred vFields),
  (0x42C9AEED62F93120, .vfadd vFields),
  (0x42C9AEED62F93121, .vfsub vFields),
  (0x42C9AEED62F93122, .vfmul vFields),
  (0x42C9AEED62F93123, .vfma vFields),
  (0x42C9AEED62F93124, .vfmin vFields),
  (0x42C9AEED62F93125, .vfmax vFields),
  (0x42C9AEED62F93126, .vfcmp vFields),
  (0x42C9AEED62F93127, .vfdiv vFields),
  (0x42C9AEED62F93128, .vfsqrt vFields),
  (0x42C9AEED62F93129, .vfrcp vFields),
  (0x42C9AEED62F9312A, .vfrsq vFields),
  (0x42C9AEED62F9312B, .vfexp2 vFields),
  (0x42C9AEED62F9312C, .vflog2 vFields),
  (0x42C9AEED62F9312D, .vfsin vFields),
  (0x42C9AEED62F9312E, .vfcos vFields),
  (0x42C9AEED62F9312F, .vftanh vFields),
  (0x42C9AEED62F93130, .vfscan vFields),
  (0x42C9AEED62F93131, .vfred vFields),
  (0x42C9AEED62F93132, .vtopk vFields),
  (0x42C9AEED62F93133, .vcvt vFields),
  (0x42C9AEED62F93134, .vpkgm vFields),
  (0x42C9AEED62F93135, .vupgm vFields),
  (0x42C9AEED62F93136, .vpkmx vFields),
  (0x42C9AEED62F93137, .vupmx vFields),
  (0x42C9AEED62F93138, .vrand vFields),
  (0x42C9AEED62F93139, .ckprobe vFields),
  (0x42C9AEED62F9313A, .vpopq vFields)]

/-- M fields written out from R80 and R99. -/
def mWords : List (Nat × Instr) := [
  (0x1899E9B4A0, .mnop mFields),
  (0x1899E9B4A1, .mlda mFields),
  (0x1899E9B4A2, .mldat mFields),
  (0x1899E9B4A3, .macc mFields),
  (0x1899E9B4A4, .mzero mFields),
  (0x1899E9B4A5, .mswap mFields),
  (0x1899E9B4A6, .mdrain mFields),
  (0x1899E9B4A7, .mdrainc mFields),
  (0x1899E9B4A8, .maccld mFields),
  (0x1899E9B4A9, .mmask mFields),
  (0x1899E9B4AA, .mgang mFields),
  (0x1899E9B4AB, .mwrel mFields)]

/-- X fields written out from R81, R100 and R212. -/
def xWords : List (Nat × Instr) := [
  (0x24B6DACDA27680, .xnop xrFields),
  (0x24BAC7878A7681, .vld xmFields),
  (0x24BAC7878A7682, .vst xmFields),
  (0x24BAC7878A7683, .vlds xmFields),
  (0x24BAC7878A7684, .vsts xmFields),
  (0x24BAC7878A7685, .sld xmFields),
  (0x24BAC7878A7686, .sst xmFields),
  (0x24BAC7878A7687, .pref xmFields),
  (0x24B6DACDA27688, .invl xrFields),
  (0x24B6DACDA27689, .wbl xrFields),
  (0x24B6DACDA2768A, .amo xrFields),
  (0x24B6DACDA27690, .cpgo xrFields),
  (0x24B6DACDA27691, .cpstop xrFields),
  (0x24B6DACDA27692, .cpdrain xrFields),
  (0x24B6DACDA27693, .cpwp xrFields),
  (0x24B6DACDA27694, .gapush xrFields),
  (0x24B6DACDA27695, .gdpop xrFields),
  (0x24B6DACDA27696, .scpush xrFields),
  (0x24B6DACDA27697, .wssub xrFields),
  (0x24B6DACDA27698, .wsuns xrFields),
  (0x24B6DACDA276A0, .fence xrFields),
  (0x24B6DACDA276A1, .acq xrFields),
  (0x24B6DACDA276A2, .rel xrFields),
  (0x24B6DACDA276A3, .bind xrFields),
  (0x24B6DACDA276A4, .unbind xrFields),
  (0x24B6DACDA276A5, .publish xrFields),
  (0x24B6DACDA276A6, .barr xrFields),
  (0x24B6DACDA276A7, .bexp xrFields),
  (0x24B6DACDA276A8, .bwait xrFields),
  (0x24B6DACDA276B0, .fopen xrFields),
  (0x24B6DACDA276B1, .fclose xrFields),
  (0x24B6DACDA276B2, .fnext xrFields),
  (0x24B6DACDA276B3, .fint xrFields),
  (0x24B6DACDA276B4, .funi xrFields),
  (0x24B6DACDA276B5, .fskip xrFields),
  (0x24B6DACDA276B6, .fchild xrFields),
  (0x24B6DACDA276B7, .fpos xrFields),
  (0x24B6DACDA276B8, .fsave xrFields),
  (0x24B6DACDA276B9, .fload xrFields),
  (0x24B6DACDA276BA, .fval xrFields),
  (0x24B6DACDA276BB, .fend xrFields),
  (0x24B6DACFA27693, .cpwpOob { xrFields with fn := 39 })]

theorem test_decode_s : (sWords.all fun p => decodeSlot .s p.1 == some p.2) = true := by decide +kernel
theorem test_decode_v : ((vWords0 ++ vWords1).all fun p => decodeSlot .v1 p.1 == some p.2) = true := by decide +kernel
theorem test_decode_m : (mWords.all fun p => decodeSlot .m p.1 == some p.2) = true := by decide +kernel
theorem test_decode_x : (xWords.all fun p => decodeSlot .x1 p.1 == some p.2) = true := by decide +kernel

/-- Reserved opcode points of the four maps (R97 to R101). -/
theorem test_decode_slot_refuses :
    [decodeSlot .s 0x1A, decodeSlot .v0 0x3B, decodeSlot .m 0x0C, decodeSlot .x0 0x0B, decodeSlot .x0 0x19, decodeSlot .x1 0x29,
      decodeSlot .x1 0x3C].all Option.isNone = true := by decide +kernel

/-! ### Ill-formed terms, one for each check -/

theorem test_wf_refuses :
    [Instr.gamo 1 2 3 11 0 0, .gcmp 12 0 1 2, .gcmpi 15 0 1 0, .gbr 12, .gbrf 12, .gfb 12 0 1 2, .launchT 12 1 2, .launchG 12 1 2, .join 12 1 2,
      .join 0 31 2, .qpush 12 0 1 2, .qpop 12 0 1 2, .gbwait 12 1 2, .ckdecide 12 1, .gprepPc 12 0, .gprepReg 12 1 0, .emit 0xFFFF,
      .emitp 0xFFFF 0 0, .emitn 0xFFFF 0 0 1, .cldd 0xFFFF, .emitl 0 1, .cset 6 1, .cget 1 6, .gld 1 2 7 0 0, .gld 1 2 0 3 0,
      .gst 1 2 0 3 0 0].all (fun i => !i.wf) = true := by decide

theorem test_wf_accepts :
    [Instr.gamo 1 2 3 10 1 7, .gcmp 11 7 1 2, .join 11 30 2, .emit 0xFFFE, .emitl 0 0, .emitl 1 5, .cset 5 1, .gld 1 2 6 2 0,
      .gst 1 2 3 2 7 0].all Instr.wf = true := by decide

/-! ### States to test on -/

/-- The user context of core 0 runs a task; the address space has one table. -/
def user : State := { State.reset.withFetchWord 32 0 with sched := [], cur := { core := 0, ctx := .user } }

/-- Core 0's engine stream changed. -/
def withE (s : State) (f : Engine → Engine) : State := s.modE 0 f

/-- Core 0's user context changed. -/
def withG (s : State) (f : GenCtx → GenCtx) : State := s.modG 0 .user f

/-- The context in its fault handler, the first fault of level O, or of level E. -/
def handling (levelE : Bool) : State :=
  (withG user fun g => { g with handler := true, hg := #v[0, 0, 8, 0] }).modCore 0 fun c =>
    { c with stop := some { b := 0, why := .fault, faults := [{ src := 8, cause := 0x078, levelE := levelE, async := false }], reached := true,
                            at_ := some 0 } }

/-- The op `w` stands at the head of a slot of core 0 and is to issue. -/
def slotOn (s : State) (sl : Slot) (w : Nat) : State :=
  let o : QOp := { bits := BitVec.ofNat 64 w, info := {}, notBefore := 0 }
  { withE s (fun e => { e with slotQ := wr e.slotQ (slotNum sl) [o] }) with
    cur := { core := 0, ctx := .user, slot := sl, info := {}, bits := BitVec.ofNat 64 w } }

def atSlot (sl : Slot) (w : Nat) : State := slotOn user sl w

/-- A graph with one ring of 64 records for queue 0. -/
def graph0 : Graph :=
  { id := 0, run := 0, bay := 0, desc := 0, stat := .running, queues := #v[{ base := 0x200000, rsize := 64 }, {}, {}, {}],
    ntask := 2, nstep := 1, seq := some 0 }

def withGraph (f : Graph → Graph) : State := { user with graphs := [f graph0], seqs := wr user.seqs 0 (some 0) }

/-- Task 0 changed. -/
def withTask (s : State) (f : Task → Task) : State := s.modTask 0 f

/-- The answer's state, or the state itself. -/
def after (i : Instr) (s : State) : State := match exec i s with | .next t => t | _ => s

def stepped (s : State) : State := match step s with | .next t => t | _ => s

/-- The checks of an access have passed. -/
def passes (a : State × Acc) : Bool := match a.2 with | .ok _ => true | .bad _ => false

/-- A fault has stopped core 0 with this cause. -/
def stopsWith (s : State) (c : BitVec 9) : Bool :=
  match (s.core 0).stop with
  | some st => st.faults.map (·.cause) == [c]
  | none => false

def g0 (s : State) (r : Reg) : W64 := gReg (s.core 0).e.user r

/-- A register of core 0 set. -/
def setG (s : State) (r : Reg) (v : W64) : State := withG s fun g => gSet g r v

def setS (s : State) (n : Nat) (v : W64) : State := withE s fun e => { e with s := wr e.s n v }

/-- The s register writes, and the other ones, of core 0's results in flight. -/
def flying (s : State) : List (Nat × List RegWrite) := (s.core 0).e.landings.map fun l => (l.at_, l.writes)

/-! ### Single steps -/

/-- R94: the worked word of GADDI g5, g5, −1, fetched and run by a step. -/
theorem test_step_gaddi :
    let t := stepped ((setG user 5 0).withFetchWord 32 0xFFFE5291)
    g0 t 5 = BitVec.allOnes 64 ∧ (t.core 0).e.user.pc = 4 := by decide +kernel

/-- R109: the worked word of GLI g7, 0x12345. -/
theorem test_step_gli :
    let t := stepped (user.withFetchWord 64 0x00012345000003C0)
    g0 t 7 = 0x12345 ∧ (t.core 0).e.user.pc = 8 := by decide +kernel

/-- R95: a reserved opcode raises 0x040. -/
theorem test_step_reserved : stopsWith (stepped (user.withFetchWord 32 0x2A)) 0x040 = true := by decide +kernel

/-- R108: division by zero, the most negative number by −1, and the remainder's sign. -/
theorem test_division :
    let d (i : Instr) (x y : W64) : W64 := g0 (after i (setG (setG user 1 x) 2 y)) 3
    d (.gdiv 3 1 2) 7 0 = BitVec.allOnes 64 ∧ d (.gdiv 3 1 2) (BitVec.ofNat 64 (2 ^ 63)) (-1) = BitVec.ofNat 64 (2 ^ 63) ∧
    d (.grem 3 1 2) (-7) 2 = -1 ∧ d (.gdiv 3 1 2) (-7) 2 = -3 ∧ d (.gremn 3 1 2) 7 0 = 7 := by decide +kernel

/-- R46: a write to g0 is discarded. -/
theorem test_g0 : g0 (after (.gli 0 5) user) 0 = 0 := by decide +kernel

/-- R110, R112: a compare, a prepared branch taken with no bubbles left, and the return address of GJAL. -/
theorem test_branch :
    let s1 := after (.gcmpi 1 2 3 5) (after (.gprepPc 1 0x40) user)
    (after (.gbr 1) { s1 with now := 9 }).core 0 |>.e.user.pc = 0x40 := by decide +kernel

theorem test_gjal : let t := after (.gjal 31 0x20) user; (t.core 0).e.user.pc = 0x20 ∧ g0 t 31 = 8 := by decide +kernel

/-- R134, R295: a software trap stops its core with cause 0x078. -/
theorem test_gtrap : stopsWith (after (.gtrap 5) user) 0x078 = true := by decide +kernel

/-- R140: SADDI's worked word (s5 + 64 into s5 under tag 2) lands one cycle on. -/
theorem test_saddi :
    flying (after (.saddi { tagw := 0, taga := 0b1010, pred := 0, imm := 64, a := 5, dst := 5 }) (setS (atSlot .s 0x00A004014502) 5 1)) =
      [(1, [.s 5 65])] := by decide +kernel

/-- R82: an S op with an unused field set raises reserved encoding. -/
theorem test_snop_field :
    stopsWith (after (.snop { tagw := 0, taga := 0, pred := 0, mod := 0, b := 0, a := 0, dst := 1 }) (atSlot .s 0x100)) 0x001 = true := by
  decide +kernel

/-- R185, R38: one product 1.0 · 1.0 and 1.5 · 2.0 added to an accumulator of 1.0 gives 5.0. -/
theorem test_accumulate :
    accumulate 0x3F800000 (groupSum 40 [mulNum (decodeF fp32 0x3F800000) (decodeF fp32 0x3F800000),
      mulNum (decodeF fp32 0x3FC00000) (decodeF fp32 0x40000000)]) = 0x40A00000 := by decide +kernel

/-- R25: halfway between 1 and the next bf16 value rounds to the even one; toward +∞ to the next. -/
theorem test_rounding :
    convertFloat (decodeF fp32 0x3F808000) bf16 .rne false = 0x3F80 ∧ convertFloat (decodeF fp32 0x3F808000) bf16 .rup false = 0x3F81 ∧
    convertFloat (decodeF fp32 0x3F818000) bf16 .rne false = 0x3F82 := by decide +kernel

/-- R397: the empty message's SHAKE256 begins with 46 B9 DD 2B (FIPS 202). -/
theorem test_shake256 : (shake256 []).take 4 = [0x46, 0xB9, 0xDD, 0x2B] := by decide +kernel

/-! ### States that meet the hypotheses of the generator's statements -/

theorem witness_generator : (GenMay user [1, 2] ∧ GoesOn user 4 ∧ GoesOn user 8) ∧ GenUser user [1, 2] ∧ GenMay user [] := by
  unfold GenUser GenMay GoesOn; decide +kernel

theorem witness_generator_handler (b : Bool) : GenMay (handling b) [] ∧ (handling b).cur.ctx = .user ∧ (curG (handling b)).handler = true ∧
    (rd (curG (handling b)).hg 2 0).toNat % 4 = 0 ∧ ((handling b).core 0).held = [] := by
  unfold GenMay; revert b; decide +kernel

theorem witness_geret_level_e : (((handling true).core 0).stop.bind fun x => x.faults.head?).any (·.levelE) = true := by decide +kernel

/-- A context whose steer register k1 is written and prepared. -/
def branching (c : Bool) : State :=
  withG user fun g => { g with k := wr g.k 1 { cv := true, c := c, tv := true, target := 0x40, prepAt := some 0 } }

theorem witness_branch (c : Bool) : GenMay (branching c) [] ∧ GoesOn (branching c) 4 ∧
    (rd (curG (branching c)).k 1 {}).cv = true ∧ (rd (curG (branching c)).k 1 {}).tv = true ∧
    (rd (curG (branching c)).k 1 {}).target.toNat % 4 = 0 := by
  unfold GenMay GoesOn; revert c; decide +kernel

theorem witness_jump : ((curG user).pc + (0x20 : BitVec 32).signExtend 48).toNat % 4 = 0 ∧
    ((curG user).pc + (0x22 : BitVec 32).signExtend 48).toNat % 4 ≠ 0 := by decide +kernel

/-- A context at the end address of its inner loop lp1, which runs inside lp0. -/
def looping (count : BitVec 32) : GenCtx :=
  { nest := [1, 0], pc := 0x40, lp := #v[{ active := true, count := 2, lstop := 0x50 },
      { active := true, count := count, lstart := 0x20, lstop := 0x40 }, {}, {}] }

theorem witness_loop_end : (looping 2).nest = 1 :: [0] ∧ 1 ∉ [0] ∧ (looping 2).handler = false ∧ (looping 2).pc = (rd (looping 2).lp 1 {}).lstop ∧
    1 < (rd (looping 2).lp 1 {}).count.toNat ∧ (rd (looping 1).lp 1 {}).count.toNat ≤ 1 := by decide +kernel

theorem witness_loop : GenUser (setG user 1 3) [1] ∧ (curG user).nest.length < 4 ∧ (rd (curG user).lp 0 {}).active = false ∧
    (gReg (curG (setG user 1 3)) 1).setWidth 32 ≠ (0 : BitVec 32) ∧
    GoesOnAs (setG user 1 3) 8 (fun g => { g with lp := wr g.lp 0 { start := 8, stop := 0x20, count := 3, active := true, lstart := 8, lstop := 0x20 },
                                                  nest := 0 :: g.nest }) := by
  unfold GenUser GoesOnAs; decide +kernel

theorem witness_loop_empty : (gReg (curG user) 1).setWidth 32 = (0 : BitVec 32) ∧
    (match fetchBytes user 0 0x20 4 false with | (_, .inl w) => decide ((0x20 + genLength w) % 4 = 0) | _ => false) = true := by decide +kernel

/-- A context with four nested loops. -/
def nested : State := withG user fun g => { g with nest := [3, 2, 1, 0] }

theorem witness_loop_full : GenUser nested [1] ∧ 4 ≤ (curG nested).nest.length := by unfold GenUser; decide +kernel

theorem witness_special : (user.taskOn user.cur.core).isSome = true ∧ (curG user).loads = [] ∧ user.cur.ctx = .user ∧ (0 : Nat) < (curG user).dlen := by
  decide +kernel

/-- A load's address in the Loft's identity window of the scratchpad space, and one in the mapped page. -/
theorem witness_memory :
    let who (k : Nat) : Who := { core := some 0, bay := user.bayOn 0, kind := k, task := (user.core 0).task }
    passes (access user (who 0) 0 8 8 .wb) = true ∧ passes (access user (who 1) 0 8 8 .wb) = true ∧
    passes (access user (who 0) 1 8 8 .wb) = false ∧ passes (access user (who 1) 4 8 8 .wb) = false ∧
    passes (access user (who 0) (BitVec.ofNat 64 (2 ^ 56)) 1 1 .wb) = false := by decide +kernel

theorem witness_memory_allowed :
    let a := access user { core := some 0, bay := user.bayOn 0, kind := 0, task := (user.core 0).task } 0 8 8 .wb
    (match a with | (s1, .ok ps) => ps.all fun p => !pieceDenied s1 p true false && !pieceDenied s1 p false true && !pieceDenied s1 p true true | _ => false) = true := by
  decide +kernel

theorem witness_atomic : GenMay user [1, 2, 3] ∧ passes (amoAccess user 0 9 true 0 none) = true ∧ passes (amoAccess user 0 9 true 4 none) = false := by
  unfold GenMay; decide +kernel

/-- A reply of a load to g5 is to come. -/
def replying : State := withG user fun g => { g with loads := [{ id := 7, dest := .g 5, val := 9 }] }

theorem witness_reply : (((replying.core 0).gctx .user).loads.find? (·.id == 7)).isSome = true ∧ g0 (after (.genLoadReply 0 .user 7) replying) 5 = 9 := by
  decide +kernel

/-- The emit queue holds 64 entries. -/
def packed : State :=
  withE user fun e => { e with emitQ := List.replicate 64 { ctx := .user, lit := none, index := 0, pmask := 0, pval := Vector.replicate 4 0, gpc := 0, eseq := 0 } }

theorem witness_emit : GenUser user (patchRegs 0xB 29) ∧ (user.core 0).e.emitQ.length < 64 ∧ 29 + lanesBelow 0xB 4 ≤ 32 ∧ ¬30 + lanesBelow 0xB 4 ≤ 32 ∧
    GenUser packed (patchRegs 0xB 29) ∧ 64 ≤ (packed.core 0).e.emitQ.length := by
  unfold GenUser; decide +kernel

/-- An EMITN of two or more entries is under way. -/
def emitting (k : Nat) : State :=
  withG user fun g => { g with eprog := k, wait := some { instr := .emitn 4 0 0 3, since := 0, timeout := BitVec.allOnes 64, mark := 0 } }

theorem witness_emit_next : coreRuns (emitting 1) 0 .user = true ∧ ((((emitting 1).core 0).gctx .user).wait.map (·.instr)) = some (.emitn 4 0 0 3) ∧
    ((emitting 1).core 0).e.emitQ.length < 64 ∧ (curG (actAs (emitting 1) 0 .user)).eprog + 1 < 3 ∧
    (curG (actAs (emitting 2) 0 .user)).eprog + 1 = 3 ∧ GoesOn (actAs (emitting 2) 0 .user) 8 := by
  unfold GoesOn; decide +kernel

/-- An index stream of one index, and one of a literal bundle, at address 0x40. -/
def streaming (half : Nat) : State := setG (setG { user with mem := memWrite user.mem 0x40 (toBytes 2 half) } 1 0x40) 2 1

theorem witness_emits : GenUser (streaming 3) [1, 2] ∧ (gReg (curG (streaming 3)) 1).getLsbD 0 = false ∧ gReg (curG (streaming 3)) 2 ≠ 0 ∧
    (match streamRead (held (streaming 3) (.emits 1 2)) 0x40 2 with | (_, .inl h) => decide (ofBytes h ≠ 0xFFFF) | _ => false) = true ∧
    (match streamRead (held (streaming 0xFFFF) (.emits 1 2)) 0x40 2 with
      | (s1, .inl h) => decide (ofBytes h = 0xFFFF) && (match streamRead s1 0x42 48 with | (_, .inl _) => true | _ => false)
      | _ => false) = true := by
  unfold GenUser; decide +kernel

/-- Feedback register 2 valid. -/
def fedBack : State := withG user fun g => { g with fb := wr g.fb 2 { val := 5, valid := true } }

theorem witness_waits : GenUser user [0] ∧ GoesOn user 4 ∧ (user.taskOn 0).isSome = true ∧ (rd (curG user).fb 2 {}).valid = false ∧
    (rd (curG fedBack).fb 2 {}).valid = true ∧ timeoutOf (curG user) 0 ≠ 0 ∧ timeoutOf (curG user) 1 = 0 ∧ SyncMet user 0x1F ∧
    ¬SyncMet (withE user fun e => { e with cL := 1 }) 0x1F := by
  unfold GenUser GoesOn SyncMet; decide +kernel

/-- A GFB of feedback register 2, or a GSYNC, waits for at most three cycles, at cycle 5. -/
def waitingOn (s : State) (i : Instr) : State := { withG s fun g => { g with wait := some { instr := i, since := 2, timeout := 3, mark := 0 } } with now := 5 }

theorem witness_wait_ends : (activeWait (waitingOn fedBack (.gfb 1 2 3 0)) 0 .user).isSome = true ∧
    (copyingWait (waitingOn fedBack (.gfb 1 2 3 0)) 0 .user).isNone = true ∧ (copyingWait (waitingOn user (.gsync 3 0 0x1F)) 0 .user).isNone = true ∧
    (activeWait (waitingOn user (.gfb 1 2 3 0)) 0 .user).isSome = true ∧ GoesOn (actAs (waitingOn user (.gfb 1 2 3 0)) 0 .user) 4 ∧
    (3 : W64) ≠ BitVec.allOnes 64 ∧ 2 + (3 : W64).toNat ≤ (waitingOn user .gnop).now ∧
    (activeWait (waitingOn user (.gsync 3 0 0x1F)) 0 .user).isSome = true ∧ SyncMet (actAs (waitingOn user (.gsync 3 0 0x1F)) 0 .user) 0x1F := by
  unfold GoesOn SyncMet; decide +kernel

/-- Children that retired, were skipped, faulted and were killed. -/
def kids : List Child :=
  [⟨0, 5, false, some (.retired 0)⟩, ⟨1, 6, false, some .skippedCopy⟩, ⟨2, 7, false, some (.faulted 0x078)⟩, ⟨3, 8, true, some .killed⟩]

theorem witness_join : kids.length ≤ 4095 ∧ (∀ c ∈ kids, c.ordinal < 2 ^ 16) ∧ (∀ c ∈ kids, c.how ≠ none) ∧
    joinWords kids = (1 + 2 ^ 16 + 2 ^ 32 + 2 ^ 48, 2 + 0x078 * 2 ^ 16, false) := by decide +kernel

/-- A running graph's task, which launches. -/
def launching : State := setG (withGraph id) 1 0x40

theorem witness_launch : GenUser launching [1, 0] ∧ GoesOn launching 4 ∧ (gReg (curG launching) 1).toNat % 64 = 0 ∧
    ((launching.taskOn 0).map (·.children.length)) = some 0 ∧ (freeEntry launching (graphDie launching 0) 0).isSome = true ∧
    (match recordRead (waiting launching (.launchT 1 1 0) (BitVec.allOnes 64) 0 (inFlight 1)) 0x40 64 with
      | (_, .inl _) => true | _ => false) = true := by
  unfold GenUser GoesOn; decide +kernel

theorem witness_queues : GenUser launching [1, 0] ∧ (launching.graphAt 0).isSome = true ∧ (rd graph0.queues 0 {}).rsize ≠ 0 ∧ (rd graph0.queues 1 {}).rsize = 0 ∧
    (match recordRead launching 0x40 64 with | (_, .inl _) => true | _ => false) = true ∧ passes (access launching (genWho launching 1) 0x40 64 64 .wb) = true := by
  unfold GenUser; decide +kernel

/-- A QPUSH or a QPOP waits for queue 0, which holds a record in the second case. -/
def queueing (i : Instr) (q : List (BitVec 512)) : State :=
  let s := withGraph fun g => { g with queues := wr g.queues 0 { rd g.queues 0 {} with q := q } }
  setG (withG s fun g => { g with wait := some { instr := i, since := 0, timeout := BitVec.allOnes 64, mark := 0, note := 9 } }) 1 0x40

theorem witness_queue_served :
    (queueWaiters (queueing (.qpush 1 0 1 0) []) 0 0 true).length = 1 ∧ queueWaiters (queueing (.qpush 1 0 1 0) []) 0 0 false = [] ∧
    (queueWaiters (queueing (.qpop 1 0 1 0) [5]) 0 0 false).length = 1 ∧ GoesOn (actAs (queueing (.qpop 1 0 1 0) [5]) 0 .user) 4 ∧
    (popWrite (actAs (queueing (.qpop 1 0 1 0) [5]) 0 .user) 0x40 5).2 = none := by
  unfold GoesOn; decide +kernel

/-- A ring holds one record more than the queue. -/
def ringed : State := withGraph fun g => { g with queues := wr g.queues 0 { base := 0x40, rsize := 64, count := 1 } }

theorem witness_ring : (match ringHead ringed 0 { base := 0x40, rsize := 64, count := 1 } with | (_, .inl _) => true | _ => false) = true := by
  decide +kernel

/-- Barrier 4 has a target of 2. -/
def barriered : State := setG (user.modBarrier 4 fun b => { b with target := 2, phases := 1 }) 1 4

theorem witness_barriers : GenUser barriered [1, 0] ∧ GoesOn barriered 4 ∧ (gReg (curG barriered) 1).toNat ≤ 4095 ∧ (barriered.barrier 4).target ≠ 0 ∧
    (barriered.barrier 5).target = 0 ∧ 4095 < (gReg (curG (setG user 1 4096)) 1).toNat ∧
    (let s := withG barriered fun g => { g with barrec := some (4, 0) }
     (curG s).barrec = some (4, 0) ∧ 0 < (s.barrier 4).phases ∧ (s.barrier 4).phases % 2 ≠ 0 % 2) := by
  unfold GenUser GoesOn; decide +kernel

theorem witness_return : GenUser user [1] ∧ SyncMet user 0x1F ∧ (user.core 0).stop = none ∧ ((user.taskOn 0).map (·.cores)) = some [0] := by
  unfold GenUser SyncMet; decide +kernel

/-- Another ready task could take core 0, and the bay has save slots. -/
def rivalled : State :=
  let t : Task := { id := 1, bay := 0, graph := 0, run := 0, kind := .graph, index := 1, step := 0, stat := .ready }
  { withGraph id with tasks := user.tasks ++ [t] }

theorem witness_yield : GenUser rivalled [] ∧ ((rivalled.taskOn 0).map fun t => mayPreempt rivalled t) = some true ∧
    unexpanded (user.core 0) .user = false ∧ unexpanded (packed.core 0) .user = true := by
  unfold GenUser; decide +kernel

/-- Task 0 has a Cask key of layer 1, tile 2, policy 3. -/
def keyed : State := withTask (withGraph id) fun t => { t with rec_ := wr t.rec_ 2 0x0000000300020001, decision := some true }

theorem witness_cask : GenUser keyed [] ∧ GenUser keyed [1, 2, 3] ∧ GoesOn keyed 4 ∧ probePending (keyed.core 0) .user = false ∧ SyncMet keyed 0x1F ∧
    ((keyed.taskOn 0).bind keyFault) = none ∧ ((keyed.taskOn 0).map (·.decision)) = some (some true) := by
  unfold GenUser GoesOn SyncMet; decide +kernel

theorem witness_yields : ((rivalled.taskOn 0).map fun t => (mayPreempt rivalled t, rival rivalled t, slotsLeft rivalled t)) = some (true, true, true) := by
  decide +kernel

/-- The bay's Cask arena, its policy and a Cask entry of the task's key. -/
def arena (es : List CaskEntry) : State :=
  let s := setG (setG (setG keyed 1 (64 + 64 * 2 ^ 32)) 2 0x40) 3 0x80
  let s := s.modBay 0 fun b => { b with eff := { b.eff with caskbase := 0x1000, casklen := 0x1000 }, policies := wr b.policies 3 { cell := 2, maxskip := 4, maxdist := 4, thresh := 0, configured := true } }
  { s with cask := wr s.cask 0 es }

/-- An entry of the key, of kind copy, written in step 0, destination 0x80. -/
def entry0 : CaskEntry :=
  { v := true, kind := true, policy := 3, bay := 0, step := 0, skips := 1, seq := 0, slot := 0, layer := 1, tile := 2, reflen := 64, outlen := 64,
    celloff := 0, dest := 0x80, order := 0, graph := 0 }

/-- R131, R133: CKSTORE completes and writes an entry, and CKSKIP of a stored copy ends the task as skipped. -/
theorem witness_ckstore : let t := after (.ckstore 1 2 3) (arena [])
    (rd t.cask 0 []).length = 1 ∧ (t.core 0).e.user.wait = none ∧ (t.core 0).stop = none := by decide +kernel

theorem witness_ckskip : let s := arena [entry0]
    ((s.taskOn 0).bind (caskEntry s)).isSome = true ∧ destHolds (held s .ckskip) 0 entry0 = true ∧
    ((after .ckskip s).tasks.map (·.stat)) = [.retiring (.ends .skippedCopy)] := by decide +kernel

/-- R132: a CKSKIP whose entry is gone, and one without a decision. -/
theorem witness_ckskip_faults : stopsWith (after .ckskip (arena [])) 0x129 = true ∧
    stopsWith (after .ckskip (withTask (arena []) fun t => { t with decision := none })) 0x073 = true := by decide +kernel

/-! ### States that meet the hypotheses of the S and V ops' statements -/

theorem witness_scalar : SlotMay (atSlot .s 1) 0 0 ∧ SlotMay (atSlot .s 1) 0x04 0b1010 ∧ ((atSlot .s 1).taskOn 0).isSome = true ∧
    qReg (curE (atSlot .s 1)) 0 = true ∧ qReg (curE (atSlot .s 1)) 15 = false ∧ (atSlot .s 1).cur.slot = .s ∧
    (atSlot .s 1).cur.info.ctx = .user := by
  unfold SlotMay; decide +kernel

/-- Channel 2 runs. -/
def channelOn (s : State) : State := withE s fun e => { e with ch := wr e.ch 2 { running := true, runId := 3, counting := [3] }, cC := 1 }

theorem witness_channel_field : SlotMay (channelOn (atSlot .s 0x15)) 0 0 ∧ (rd (curE (channelOn (atSlot .s 0x15))).ch 2 {}).running = true ∧
    (rd (curE (atSlot .s 0x15)).ch 2 {}).running = false ∧ chWidth 0x23 ≤ 64 := by
  unfold SlotMay; decide +kernel

/-- An SWAIT of loads waits with one load outstanding. -/
def swaiting : State :=
  withE user fun e => { e with cL := 1, swait := some { f := { tagw := 0, taga := 0, pred := 0, mod := 1, b := 1, a := 0, dst := 3 }, since := 0, limit := 0 } }

theorem witness_swait : (curE (atSlot .s 0x17)).cL ≤ 0 ∧ ¬(curE swaiting).cL ≤ 0 ∧
    ((swaiting.core 0).e.swait.map (·.limit)) = some ((sReg (curE swaiting) 0).toNat % 256) := by decide +kernel

/-- The fields of an integer op of i16 lanes in v3 from v1 and v2. -/
def vInt : VOp := { tagw := 0, taga := 0, xtra := 0, beats := 0, neg := 0, sat := 0, rnd := 0, etype := 2, msk := 0, bk := 0, c := 0, b := 2, a := 1, dst := 3 }

/-- The same of fp32 lanes. -/
def vFloat : VOp := { vInt with etype := 8 }

/-- Sixteen beats that end at v31, and an op that pops queue 3. -/
def vLong : VOp := { vInt with beats := 15, dst := 16, a := 16, b := 16 }
def vPop : VOp := { vInt with bk := 3, b := 0, c := 3 }

theorem witness_vector : SlotMay (atSlot .v0 1) vInt.tagw vInt.taga ∧ SlotMay (atSlot .v1 1) vInt.tagw vInt.taga := by unfold SlotMay; decide +kernel

theorem witness_vector_fields : BeatsOk vInt ∧ BeatsOk vLong ∧ Floats vFloat ∧ Floats { vFloat with etype := 6 } := by
  unfold BeatsOk Floats; decide +kernel

theorem witness_vector_operands : BOk vInt false ∧ BOk vInt true ∧ BOk { vInt with bk := 1, b := 0 } true ∧ BOk { vInt with bk := 2, b := 7 } false ∧
    BOk vPop false := by refine ⟨?_, ?_, ?_, ?_, ?_⟩ <;> unfold BOk <;> decide +kernel

/-- A row in queue 3. -/
def drained (s : State) : State := withE s fun e => { e with oq := wr e.oq 3 [5] }

theorem witness_pops : Pops (atSlot .v0 1) vInt (atSlot .v0 1) 0 ∧
    (rd (curE (drained (atSlot .v0 1))).oq 3 [] = 5 :: [] ∧ rowsNeeded (drained (atSlot .v0 1)) 3 ≤ 1) := by
  constructor
  · unfold Pops; exact ⟨rfl, rfl⟩
  · decide +kernel

/-- Beat 1 of two of a VADD is to come in V1. -/
def beating : State :=
  withE user fun e => { e with
    unitFree := wr e.unitFree 2 2
    vrun := wr e.vrun 1 (some { instr := .vadd { vInt with beats := 1 }, info := {}, beat := 1, mask := BitVec.allOnes 512, sel := 0 }) }

theorem witness_beats : (rd (beating.core 0).e.vrun (slotNum .v1 - 1) none).isSome = true ∧
    ((beatOf (.vadd { vInt with beats := 1 })).map fun x => (x.1, x.2.1)) = some ({ vInt with beats := 1 }, 2) ∧
    (1 : Nat) ≤ (1 : BitVec 4).toNat ∧ rd (beating.core 0).e.unitFree (slotNum .v1) 0 > beating.now + (1 + 1 - 1) ∧
    rd (beating.core 0).e.unitFree (slotNum .v1) 0 ≤ { beating with now := 1 }.now + (1 + 1 - 1) := by decide +kernel

/-- Format register 1 holds a signed 4-bit integer format, 2 a Grist and 3 an MX one; 0 holds fp32. -/
def formatted : State := withE (atSlot .v0 0x33) fun e => { e with fm := #v[6, 0x40, 0x2021, 0x4002] }

theorem witness_formats : SlotMay formatted 0 0 ∧
    ([0, 1, 2, 3].map fun k => (fmRead formatted 0 {} k).map fun v => (fmValid v, fmFamily v)) =
      [some (true, 6), some (true, 0), some (true, 1), some (true, 2)] ∧ (2 : Nat) * 128 * narrowWidth 0x40 ≤ 4096 := by
  unfold SlotMay; decide +kernel

theorem witness_format_invalid : fmValid 0x0000000F = false ∧ fmValid 0 = false := by decide +kernel

/-- The bundle's broadcast pattern asks for the 5 greatest of the first 100 lanes. -/
def topping : State := let s := atSlot .v0 0x32; { s with cur := { s.cur with info := { bcsrc := 1, bcimm := 5 + 256 * 100 } } }

theorem witness_topk : SlotMay topping 0 0 ∧ (bcPattern topping 0 topping.cur.info).toNat % 256 = 5 ∧
    (bcPattern topping 0 topping.cur.info).toNat / 256 % 65536 = 100 := by
  unfold SlotMay; decide +kernel

/-- R155: a 32-bit VIOTA in steps of 1 from a zero broadcast lands lane numbers two cycles on. -/
theorem test_viota : ((flying (after (.viota { vInt with etype := 4, bk := 1, b := 0, a := 0 }) (atSlot .v0 0x19))).map fun l =>
    (l.1, l.2.map fun w => match w with | .v n v _ => (n, v.toNat % 2 ^ 96) | _ => (0, 0))) = [(2, [(3, 0x000000020000000100000000)])] := by
  decide +kernel

/-- R151: i16 lanes 0x7FFF + 1 wrap, and VSADD clamps them. -/
theorem test_vadd_vsadd :
    let s := withE (atSlot .v0 1) fun e => { e with v := wr (wr e.v 1 0x7FFF) 2 1 }
    let lane0 (i : Instr) : List (List Nat) := (flying (after i s)).map fun l => l.2.map fun w => match w with | .v _ v _ => v.toNat % 65536 | _ => 0
    lane0 (.vadd vInt) = [[0x8000]] ∧ lane0 (.vsadd vInt) = [[0x7FFF]] := by decide +kernel

/-! ### States that meet the hypotheses of the M ops' statements -/

/-- Core 0's M slot with the fields of an op of row count 1 that names fm0 (fp32 as A), and fm1 (bf16). -/
def mUsed : MOp := { tagw := 0, taga := 0, mode := 0, bsrc := 0, ma := 0, fb := 0, fa := 0, sel := 0, beats := 0 }

def atM (s : State) : State :=
  let t := slotOn s .m 0x03
  withE t fun e => { e with fm := #v[4, 4, 0, 6] }

theorem witness_matrix : (MMay (atM user) mUsed true true ∧ MMay (atM user) mUsed true false ∧ MMay (atM user) mUsed false true) ∧
    MMay (atM user) { mUsed with sel := 3 } true true ∧ (curE (atM user)).ganged = false ∧ (curE (atM user)).cT < 255 ∧
    (∀ t ∈ (atM user).taskOn 0, t.gang = false) ∧ (atM user).now < 1 ∧ (curE (atM user)).accLands ≤ (atM user).now := by
  refine ⟨⟨?_, ?_, ?_⟩, ?_, ?_⟩ <;> (try unfold MMay SlotMay) <;> decide +kernel

theorem witness_takes : Takes (atM user) mUsed (GangOp.mk 0 0 (rd (curE (atM user)).ma 0 0) (rd (curE (atM user)).ma 1 0) 4) id := by
  unfold Takes
  rw [if_neg (by decide +kernel)]
  exact ⟨⟨4, by decide +kernel, rfl⟩, rfl⟩

/-- A gang of cores 0 to 3 in gang mode, each with the same array op at its head. -/
def ganging : State :=
  [0, 1, 2, 3].foldl (fun s n => s.modE n fun e =>
    { e with ganged := true, fm := #v[4, 4, 0, 6], slotQ := wr e.slotQ 3 [{ bits := 0x03, info := {}, notBefore := 0 }] })
    { user with cur := { core := 0, ctx := .user, slot := .m, info := {}, bits := 0x03 } }

theorem witness_takes_gang : ∃ g gang, Takes ganging mUsed g gang := by
  have h (n : Nat) (hn : n < 4) : (gangPart ganging n 0).any (fun q => q.opc == 3 && q.beats == 0) = true := by
    revert n; decide +kernel
  have h' (n : Nat) (hn : n < 4) : ∃ q, gangPart ganging n 0 = some q ∧ q.opc = 3 ∧ q.beats = 0 := by
    simpa [Option.any_eq_true] using h n hn
  obtain ⟨q, hq, h1, h2⟩ := h' 0 (by omega)
  have hz : (curE ganging).gangN = 0 := by decide +kernel
  have hc : ganging.cur.core = 0 := by decide +kernel
  have hg : (curE ganging).ganged = true := by decide +kernel
  refine ⟨q, fun t => modCurE t fun e => { e with gangN := 0 + 1, gangOp := some q }, ?_⟩
  unfold Takes
  simp only [hg, if_true, hz, hc]
  refine ⟨q, hq, hq, fun m hm => ?_, rfl⟩
  obtain ⟨p, hp, p1, p2⟩ := h' m (by omega)
  exact ⟨p, hp, by omega, fun _ => by rw [p2, h2]⟩

/-- The A latch holds 256 bf16 rows, and a group of 2-bit integers is read from the scratchpad at ma4 in two beats. -/
def latched : State := withE (atM user) fun e =>
  { e with fm := #v[4, 0x20, 0, 6], alatch := some { rows := List.replicate 256 (0, 0), fm := 4, start := 0, transposed := false } }

def mPad : MOp := { mUsed with bsrc := 4, fb := 1, beats := 1 }

theorem witness_macc : MMay latched mPad true false := by unfold MMay SlotMay; decide +kernel

theorem witness_macc_fits : fmRead latched 0 {} 1 = some 0x20 ∧ fmValid 0x20 = true ∧ 2 % bPlanes 0x20 = 0 ∧ 1 % (bLayout 0x20).chunks = 0 ∧
    ((curE latched).alatch.map (·.fm)) = some 4 ∧
    128 * (1 * ((bLayout 0x20).side + (bLayout 0x20).planes) + 1 / (bLayout 0x20).chunks * (bLayout 0x20).hdr) ≤ 2 ^ 20 := by decide +kernel

/-- R185: a MACC of two beats is issued with its first beat on the array. -/
theorem test_macc : let t := after (.macc mPad) latched
    (t.core 0).e.macc.map (·.beat) = some 1 ∧ (t.core 0).e.cT = 1 ∧ (t.core 0).stop = none := by decide +kernel

/-- The same MACC under way, its beat `b` to come. -/
def multiplying (b : Nat) : State :=
  let r : MaccRun :=
    { f := mPad, info := {}, bits := 3, fma := 4, fmb := 0x20, start := 0, transposed := false, ma := 0, maScale := 0, mb := 0, beat := b,
      next := 0, aNow := List.replicate 256 (0, 0), aNext := [], hdr := [], blk := List.replicate b 0, group := [], used := 128 * b,
      mark := (0, false, 0) }
  withE latched fun e => { e with macc := some r }

/-- A beat finds its operands and its blocks. -/
def beatReady (s : State) : Bool :=
  match (s.core 0).e.macc with
  | some r => decide (r.next ≤ s.now) && decide (r.aNow.length = 256) && r.group.isEmpty &&
      (readBlocks s 0 r (beatBlocks (bLayout r.fmb) 0 (r.beat % 2))).isSome
  | none => false

theorem witness_macc_beat : beatReady (multiplying 0) = true ∧ beatReady (multiplying 1) = true ∧ rd (multiplying 0).powered 0 false = true ∧
    ((multiplying 0).core 0).stop = none ∧ ((multiplying 0).core 0).stallUntil ≤ (multiplying 0).now ∧
    ((multiplying 0).core 0).restoring = false ∧ ((multiplying 0).core 0).task.isSome = true := by decide +kernel

/-- R185, R187: the last beat frees the array, its cells final two cycles on. -/
theorem test_macc_beat : let t := after (.maccBeat 0) (multiplying 1)
    (t.core 0).e.macc = none ∧ (t.core 0).e.accLands = 3 ∧ (t.core 0).stop = none := by decide +kernel

/-- A drain of rows of fp32 into queue 0 is under way. -/
def draining (s : State) (kind : DrainKind) : State :=
  withE s fun e => { e with drain := some { kind := kind, f := mUsed, info := {}, bits := 6, fm := 6, ma := 0, row := 0, next := 0, mask := BitVec.allOnes 256 } }

theorem witness_drain : MMay (atM user) mUsed false true ∧ fmValid 4 = true ∧ fmFamily 4 ≠ 1 ∧ fmFamily 4 ≠ 2 ∧ streamRuns (draining user .rows) 0 = true ∧
    ((draining user .rows).core 0).e.drain.isSome = true ∧ rowsHeld ((draining user .rows).core 0).e 0 < 64 ∧
    64 ≤ rowsHeld ((withE (draining user .rows) fun e => { e with oq := wr e.oq 0 (List.replicate 64 0) }).core 0).e 0 := by
  refine ⟨?_, ?_⟩
  · unfold MMay SlotMay; decide +kernel
  · decide +kernel

/-- R190, R191: the first row of an fp32 drain arrives four cycles on. -/
theorem test_drain : ((after (.drainRowPush 0) (draining user .rows)).core 0 |>.e.landings.map fun l => (l.at_, l.writes.length)) = [(4, 1)] := by decide +kernel

/-- R194: a full half is released. -/
def filled : State := withE (atM user) fun e => { e with wb := wr e.wb 0 { full0 := true, group := some 5 } }

theorem witness_release : (rd (curE filled).wb 0 {}).full0 = true ∧ arrayFree filled 0 = true ∧ (rd (curE (atM user)).wb 0 {}).full0 = false ∧
    arrayFree (multiplying 0) 0 = false := by decide +kernel

/-! ### States that meet the hypotheses of the X ops' statements -/

/-- The scratchpad's first bytes are at space 1 (R258); s1 holds an address of it, s2 one of the mapped page. -/
def xUser (sl : Slot) (w : Nat) : State := setS (setS (atSlot sl w) 1 (BitVec.ofNat 64 (2 ^ 60))) 2 0x400

def xm (base reg : BitVec 6) : XMOp := { tagw := 0, taga := 0, pol := 0, col := 0, ofs := 0, base := base, reg := reg }

def xr : XROp := { tagw := 0, taga := 0, rsv := 0, sc := 0, q := 0, tmo := 0, fn := 0, c := 0, b := 0, a := 0 }

theorem witness_loads : SlotMay (xUser .x0 1) 0 0 := by unfold SlotMay; decide +kernel

/-- Where an access lies: it passes, and every piece of it is in the scratchpad or not, with its banks free. -/
def lies (a : State × Acc) : Option (Bool × Bool) :=
  match a with
  | (s1, .ok ps) => some (ps.all inScratch, bankHeld s1 ps)
  | (_, .bad _) => none

theorem witness_loads_places : let s := xUser .x0 1
    lies (access s (slotWho s 2) (xmPlace s (xm 1 0) 512) 512 64 (policy s (xm 1 0))) = some (true, false) ∧
    lies (access s (slotWho s 2) (xmPlace s (xm 2 0) 512) 512 64 (policy s (xm 2 0))) = some (false, false) ∧
    lies (access s (slotWho s 2) (xmPlace s { xm 1 0 with ofs := 0xFFFFF } 512) 512 64 .wb) = none ∧
    lies (accessAll s (slotWho s 2) 4 (policy s (xm 2 0)) (strided s (xm 2 0))) = some (false, false) ∧
    readCount s { xm 2 0 with pol := 3, ofs := 0x20000 } = 2 ∧ readCount s { xm 2 0 with pol := 3 } = 0 := by decide +kernel

theorem witness_stores_places : let s := xUser .x0 2
    lies (access s (slotWho s 3) (xmPlace s (xm 1 0) 8) 8 8 .wb) = some (true, false) ∧
    lies (access s (slotWho s 3) (xmPlace s (xm 2 0) 8) 8 8 .wb) = some (false, false) ∧
    lies (access s (slotWho s 3) (xmPlace s { xm 2 0 with base := 3, ofs := 0xFFFFF } 8) 8 8 .wb) = none ∧ (curE s).cS < 255 := by decide +kernel

/-- R64, R199: a scratchpad SLD lands six cycles on. -/
theorem test_sld : flying (after (.sld (xm 1 5)) (xUser .x0 5)) = [(6, [.s 5 0])] := by decide +kernel

/-- R68, R199: an uncached SST to the mapped page is counted in S, and its bytes are written when it is performed. -/
theorem test_sst :
    let t := after (.sst { xm 2 2 with pol := 2 }) (xUser .x0 6)
    (t.core 0).e.cS = 1 ∧ (t.core 0).e.xacc.length = 1 ∧
    memRead (after (.storePerformed 0 0) { t with now := 1 }).mem 0x400 2 = [0, 4] := by decide +kernel

theorem witness_xr : XrMay (xUser .x0 0) xr ∧ XrMay (xUser .x1 0) { xr with a := 31, b := 2, c := 2, fn := 3 } := by
  unfold XrMay SlotMay; decide +kernel

/-- s3 counts 2 elements, or 129; v31 and v1 hold offsets. -/
theorem witness_gathers : let s := setS (xUser .x0 0x14) 3 2
    let addrs := (List.range 2).map fun i => (sReg (curE s) 2 + BitVec.ofNat 64 (lane (vReg (curE s) 1).toNat 32 i), 4)
    lies (accessAll s (slotWhoBound s 2) 4 .wb addrs) = some (false, false) ∧ (curE s).gq.length + 2 ≤ 512 ∧
    lies (amoAccess s 0 9 true (sReg (curE s) 2) none) = some (false, false) ∧ lies (amoAccess s 0 9 true 0x404 none) = none := by decide +kernel

/-- A counted access of core 0 in flight since cycle 0, at cycle 1. -/
def flyingAcc (kind : AccKind) : State :=
  let a : XAcc := { id := 5, slot := .x0, kind := kind, pieces := [{ va := 0x400, loc := .phys 0x400, len := 8, pol := .wb, group := 0 }],
                    data := toBytes 8 0x77, col := 0, since := 0, tag := none, info := {}, bits := 0 }
  { withE user fun e => { e with xacc := [a], cL := 1, cS := 1, gq := [{ acc := 5, size := 4, val := none }] } with now := 1 }

/-- The access whose completion is to come, once it and the older ones of its slot are performed. -/
def performed (k : AccKind) : Option AccKind :=
  let s := flyingAcc k
  ((s.core 0).e.xacc.find? fun x => x.id = 5).bind fun a => (((performUpTo s 0 a).core 0).e.xacc.find? fun x => x.id = 5).map (·.kind)

theorem witness_completions : performed (.loadV 3) = some (.loadV 3) ∧ performed (.loadS 3) = some (.loadS 3) ∧ performed .store = some .store ∧
    performed (.gather 4) = some (.gather 4) ∧ performed (.atomic 9 true 1 2 3) = some (.atomic 9 true 1 2 3) ∧
    performed (.lines 0x400 8 true) = some (.lines 0x400 8 true) ∧ (flyingAcc .store).now = 1 ∧
    ∀ b ∈ ((flyingAcc .store).core 0).e.bg, b.slot ≠ some .x0 := by decide +kernel

theorem witness_performed : ∀ a ∈ ((flyingAcc .store).core 0).e.xacc, a.done = false ∧ ∀ p ∈ a.pieces, pieceDenied (flyingAcc .store) p true true = false := by
  decide +kernel

/-- A program of channel 2 that copies 64 bytes from the mapped page to the scratchpad, 3 times. -/
def program : Vector W64 36 :=
  wr (wr (wr (wr (wr (Vector.replicate 36 0) 0 3) 1 64) 0x18 0x400) 0x19 (BitVec.ofNat 64 (2 ^ 60))) 0x1A 64

def programmed : State := withE (atSlot .x0 0x10) fun e => { e with ch := wr e.ch 2 { prog := program } }

theorem witness_cpgo : XrMay programmed { xr with a := 2 } ∧ XrMay (channelOn (atSlot .x0 0x10)) { xr with a := 2 } ∧
    (rd (curE programmed).ch 2 {}).running = false ∧ (curE programmed).cC < 255 ∧ qReg (curE programmed) 0 = true := by
  unfold XrMay SlotMay; decide +kernel

/-- R206: the program is accepted, and one of length 0 is not. -/
theorem test_cpgo : let t := after (.cpgo { xr with a := 2 }) programmed
    (rd (t.core 0).e.ch 2 {}).running = true ∧ (t.core 0).e.cC = 1 ∧
    stopsWith (after (.cpgo { xr with a := 3 }) programmed) 0x022 = true := by decide +kernel

/-- The run of that program under way, nothing copied yet; gathered indices, and a phased start at cycle 5. -/
def copying (p : Vector W64 36) (start : Option W64) : State :=
  withE user fun e => { e with ch := wr e.ch 2 { prog := p, run := p, runId := 3, running := true, counting := [3], startAt := start }, cC := 1 }

theorem witness_copy : let s := copying program none
    copiesRun s 0 = true ∧ copyDue (rd (s.core 0).e.ch 2 {}) = true ∧ hasTurn (s.core 0).e 2 = true ∧
    (rd (s.core 0).e.copyTurn (pf program 0x1E % 4) (7, 0)).2 ≤ s.now ∧ copyLen program = 64 ∧ runLength program = 3 ∧
    (rd ((copying program (some 5)).core 0).e.ch 2 {}).startAt = some 5 := by decide +kernel

/-- R207, R209: the first copy of the run is issued, 16 granules of it. -/
theorem test_copy : let t := after (.copyIssue 0 2) (copying program none)
    (rd (t.core 0).e.ch 2 {}).iter = 1 ∧ (rd (t.core 0).e.ch 2 {}).issued = 64 ∧
    (rd (t.core 0).e.ch 2 {}).copies.map (·.gran.length) = [16] := by decide +kernel

/-- A gather: the indices stand at 0x800 as halfwords, rows of 64 bytes. -/
def gathering : Vector W64 36 := wr (wr (wr program 0x22 (1 + 4 * 64)) 0x21 0x800) 0x1A 0

theorem witness_gather : let c := rd ((copying gathering none).core 0).e.ch 2 {}
    c.batch.length ≤ c.iter % 8 ∧ pf c.run 0x22 % 2 = 1 ∧ c.running = true ∧ c.startAt = none ∧ c.park = none := by decide +kernel

/-- A copy with one granule still to be delivered, or one delivered that posts to barrier 4. -/
def delivering (post : Option (Nat × Nat)) : State :=
  let c : Copy := { k := 7, run := 3, off := 0, gran := [(.scratch 8, 5, post.isSome)], post := post }
  withE barriered fun e => { e with ch := wr e.ch 2 { run := program, runId := 3, running := true, counting := [3], copies := [c] } }

theorem witness_delivery :
    (((rd ((delivering none).core 0).e.ch 2 {}).copies.find? fun y => y.k = 7).map fun x => x.gran) = some [(.scratch 8, 5, false)] ∧
    (((rd ((delivering (some (0, 4))).core 0).e.ch 2 {}).copies.find? fun y => y.k = 7).map fun x => x.post) = some (some (0, 4)) ∧
    memRead ((after (.copyDelivery 0 2 7 0) (delivering none)).core 0).scratch 8 4 = [5, 0, 0, 0] ∧
    ((after (.copyBytePost 0 2 7) (delivering (some (0, 4)))).barrier 4).pend = -4 := by decide +kernel

theorem witness_x_waits : XrMay (xUser .x0 0x12) { xr with a := 2, tmo := 31 } ∧ sReg (curE (xUser .x0 0x21)) 2 = 0x400 ∧
    passes (access (xUser .x0 0x21) (slotWho (xUser .x0 0x21) 2) 0x400 8 64 .uc) = true ∧ ((xUser .x0 0x25).pubs[3]).en = false ∧
    (withE (xUser .x0 0x15) fun e => { e with gq := [{ acc := 5, size := 4, val := none }] }).cur.core = 0 := by
  unfold XrMay SlotMay; decide +kernel

/-- An FENCE waits in X0 for a store in flight, since cycle 0 with timeout code 1, at cycle 32. -/
def fencing (store : Bool) : State :=
  let r : XRun := { instr := .fence { xr with fn := 3, c := 63, tmo := 1, q := 2 }, info := {}, bits := 0x20, since := 1 }
  let s := flyingAcc .store
  { withE s fun e => { e with xacc := if store then e.xacc else [], xrun := wr e.xrun 0 (some r) } with now := 33 }

theorem witness_x_wait_ends (b : Bool) : ((rd ((fencing b).core 0).e.xrun 0 none).map (·.instr)) = some (.fence { xr with fn := 3, c := 63, tmo := 1, q := 2 }) ∧
    1 + 2 ^ (1 + 4) ≤ (fencing b).now := by revert b; decide +kernel

/-- R198: the wait ends with Q false while the store is in flight, and with Q true when it is not. -/
theorem test_fence : flying (after (.xWaitTimeout 0 .x0) (fencing true)) = [(34, [.q 2 false])] ∧
    flying (after (.xWaitComplete 0 .x0) (fencing false)) = [(34, [.q 2 true])] := by decide +kernel

theorem witness_bindings : let s := setS (setS (barriered) 5 64) 6 4
    sReg (curE s) 6 = 4 ∧ (s.barrier 4).target ≠ 0 ∧ sReg (curE s) 5 ≠ 0 ∧ (curE s).bindings.length + 0 < 32 ∧ (rd (curE s).wb 0 {}).group = none ∧
    arrayFree s 0 = true := by decide +kernel

/-- A release, an arrival and an expectation wait behind their op at cycle 1. -/
def behind (kind : BgKind) : State :=
  { withE barriered fun e => { e with cS := 1, bg := [{ id := 9, slot := some .x0, kind := kind, cols := 0xFF, since := 0 }] } with now := 1 }

theorem witness_background : storesDone (behind (.arrive 4 none)) 0 0xFF 0 = true ∧
    ((after (.barrierArrival 0 9) (behind (.arrive 4 none))).barrier 4).arrived = 1 ∧
    ((after (.barrierExpectationArrival 0 9) (behind (.expect 4 64))).barrier 4).pend = 64 ∧
    memRead (after (.relIncrement 0 9) (behind (.rel [{ va := 0x400, loc := .phys 0x400, len := 8, pol := .uc, group := 0 }] []))).mem 0x400 1 = [1] := by
  decide +kernel

/-- All arrivals of barrier 4's phase are in: it completes, as it has no parent. -/
def dueBarrier : State := user.modBarrier 4 fun b => { b with target := 2, arrived := 2, held := 1 }

theorem witness_phase : (dueBarrier.barrier 4).arrived = (dueBarrier.barrier 4).target ∧ (dueBarrier.barrier 4).pend = 0 ∧ parentOf dueBarrier 4 = none ∧
    ((after (.barrierPhaseComplete 4) dueBarrier).barrier 4).phase = true ∧ ((after (.barrierPhaseComplete 4) dueBarrier).barrier 4).arrived = 1 := by
  decide +kernel

/-- Barrier 4 has a parent in package 5, or barrier 6 of its own package. -/
def treed (pkg : Nat) : State :=
  { (dueBarrier.modBarrier 6 fun b => { b with target := 2 }) with
    regs := { dueBarrier.regs with rdgTree := wr dueBarrier.regs.rdgTree 0 (BitVec.ofNat 64 (2 ^ 63 + 4 + 6 * 2 ^ 12 + pkg * 2 ^ 24)) } }

theorem witness_tree : parentOf (treed 5) 4 = some (5, 6) ∧ parentOf (treed 0) 4 = some (0, 6) ∧
    ((after (.barrierChildClose 4) (treed 0)).barrier 6).arrived = 1 := by decide +kernel

/-- Stream 0 of X0's fibre ops is open, a D level 0 of 5 elements from position 10. -/
def streamed (sl : Slot) (w : Nat) : State :=
  withE (atSlot sl w) fun e => { e with f := wr e.f 0 { isOpen := true, kind := 0, endp := 5, vbase := 10, stated := 5, extent := 5 } }

theorem witness_fibre : FibreMay (streamed .x0 0x32) { xr with b := 3, c := 4 } ∧ FibreMay (streamed .x1 0x37) { xr with c := 4 } ∧
    (rd (curE (streamed .x0 0x32)).f 0 {}).isOpen = true ∧ (rd (curE (streamed .x0 0x32)).f 1 {}).isOpen = false := by
  unfold FibreMay XrMay SlotMay; decide +kernel

/-- An FNEXT of that stream into v3 and s4 works in X0 since cycle 0, at cycle 1. -/
def fetching : State :=
  let r : XRun := { instr := .fnext { xr with b := 3, c := 4 }, info := {}, bits := 0x32, since := 0 }
  { withE (streamed .x0 0x32) fun e => { e with xrun := wr e.xrun 0 (some r), slotQ := Vector.replicate 6 [] } with now := 1 }

theorem witness_fibre_runs : (rd (fetching.core 0).e.xrun 0 none).isSome = true ∧ streamRuns fetching 0 = true ∧ relPending (fetching.core 0).e .x0 = false ∧
    ((rd (fetching.core 0).e.xrun 0 none).map fun r => isParked fetching 0 r) = some false ∧ (fetching.core 0).e.xacc = [] ∧
    (rd (fetching.core 0).e.f 0 {}).kind = 0 ∧ (rd (fetching.core 0).e.f 0 {}).pend.toNat ≤ 128 := by decide +kernel

/-- R240: FNEXT on a D stream of 5 delivers 5 and stands at its end. -/
theorem test_fnext : let t := after (.fibreOpComplete 0 .x0) fetching
    (rd (t.core 0).e.f 0 {}).cur = 5 ∧ (((flying t).flatMap (·.2)).contains (.s 4 5)) = true := by decide +kernel

/-! ### States that meet the hypotheses of the stream's, the stops' and the events' statements -/

/-- A literal bundle with an SADDI in its S field (profile 0), and its header's presence bits. -/
def bundle (w : Nat) : BitVec 384 := BitVec.ofNat 384 (2 ^ 4 + w * 2 ^ 32)

def emitted (b : Option (BitVec 384)) (index : BitVec 16) : EmitEntry :=
  { ctx := .user, lit := b, index := index, pmask := 0, pval := Vector.replicate 4 0, gpc := 0, eseq := 0 }

def expanding (e : EmitEntry) : State := withE user fun x => { x with emitQ := [e] }

theorem witness_expand : let s := expanding (emitted (some (bundle 0x00A004014502)) 0xFFFF)
    expanderRuns s 0 = true ∧ nextEntry (s.core 0) = some (emitted (some (bundle 0x00A004014502)) 0xFFFF) ∧
    slipHeld (s.core 0) (emitted (some (bundle 0x00A004014502)) 0xFFFF) = false ∧ queueFull (s.core 0) (bundle 0x00A004014502) = false ∧
    headerBad (bundle 0x00A004014502) = false ∧ ((bundle 0x00A004014502).extractLsb' 0 4).toNat < 4 ∧
    (dictOf (s.core 0) .user).2 = 1 ∧ (s.core 0).dcache.lookup (.user, 0) = none := by decide +kernel

/-- R60, R73: the bundle's S op stands in the S queue, to issue three cycles on; an index past the dictionary raises 0x03A. -/
theorem test_expand :
    let t := after (.expandBundle 0) (expanding (emitted (some (bundle 0x00A004014502)) 0xFFFF))
    (slotQ (t.core 0).e .s).map (fun o => (o.bits, o.notBefore)) = [(0x00A004014502, 3)] ∧ slotQ (t.core 0).e .m = [] ∧
    stopsWith (after (.expandBundle 0) (expanding (emitted none 1))) 0x03A = true := by decide +kernel

/-- R59: a miss is read from the dictionary 16 cycles on. -/
theorem witness_miss :
    let t := after (.expandBundle 0) (expanding (emitted none 0))
    (t.core 0).dmiss.map (·.readyAt) = some 16 ∧ queueFull (t.core 0) (readEntry (t.core 0) (emitted none 0)) = false ∧
    headerBad (patchBundle (readEntry (t.core 0) (emitted none 0)) (emitted none 0)) = false := by decide +kernel

/-- Two results on their way to s5, due in one cycle. -/
def landing : State :=
  withE user fun e => { e with landings := [⟨1, 1, [.s 5 7], none⟩, ⟨1, 0, [.s 5 6], none⟩], snapshot := [⟨1, 0, [.s 6 9], none⟩] }

/-- R62: they land in the order of their issue. -/
theorem test_landing : sReg ((after (.exposedResultLands 0) landing).core 0).e 5 = 7 ∧
    sReg ((after (.snapshotEntryLands 0) landing).core 0).e 6 = 9 := by decide +kernel

/-- A stop of core 0 at cycle 0 whose boundary is to be reached, at cycle 1. -/
def stopping (why : StopWhy) (hbase : BitVec 48) : State :=
  let fi : FaultInfo := { src := 8, cause := 0x078, levelE := false, async := false }
  let s := (withG user fun g => { g with hbase := hbase }).modCore 0 fun c =>
    { c with stop := some { b := 0, why := why, faults := if why = .fault then [fi] else [] } }
  { s with now := 1 }

theorem witness_stop : ([StopWhy.fault, .kill .record, .save true].all fun w => let s := stopping w 0x100
    (s.taskOn 0).any (fun t => !isRetiring t) && ((s.core 0).stop.any fun st => !st.reached && st.at_.isNone && decide (st.b < s.now)) &&
      !betweenBeats (s.core 0).e) = true ∧ (curG (stopping .fault 0)).handler = false ∧ (user.core 0).stop = none ∧
    passes (access (stopping .fault 0x100) { core := some 0, bay := 0, kind := 6 } (recordLine (stopping .fault 0x100) 0 0) 64 64 .uc) = true := by
  decide +kernel

/-- R302, R303: with a handler declared the context enters it with the pc in hg2 and the cause in hg1; without one the task ends. -/
theorem test_handler :
    let g := ((after (.stopBoundary 0) (stopping .fault 0x100)).core 0).e.user
    g.handler = true ∧ g.pc = 0x100 ∧ rd g.hg 1 0 = 0x078 ∧ rd g.hg 2 0 = 0 ∧
    (after (.stopBoundary 0) (stopping .fault 0)).tasks.map (·.stat) = [.retiring (.ends (.faulted 0x078))] := by decide +kernel

/-- A copy channel wants the host's verdict, the fault queue off or on (64 records), or holds token 0. -/
def parked (on : Bool) (p : Park) : State :=
  let s := withE user fun e => { e with ch := wr e.ch 2 { run := program, runId := 3, running := true, counting := [3], park := some p }, cC := 1 }
  { s with fq := { w0 := if on then BitVec.ofNat 64 (2 ^ 63) + 0x8000 else 0, w1 := 0x9000,
                   open_ := if on then [{ token := 0, refused := false, core := 0, agent := .copyChannel, n := 2 }] else [] } }

theorem witness_park : parkOf (parked true (.wanting 0x0B0 8 0 true)) 0 .copyChannel 2 = some (.wanting 0x0B0 8 0 true) ∧
    parkOf (parked false (.wanting 0x0B0 8 0 true)) 0 .copyChannel 2 = some (.wanting 0x0B0 8 0 true) ∧
    ((parked true (.token 0 0x0B0 8)).fq.open_.find? fun x => x.token == 0).isSome = true ∧
    parkOf (parked true (.token 0 0x0B0 8)) 0 .copyChannel 2 = some (.token 0 0x0B0 8) ∧ (parked true (.token 0 0x0B0 8)).fq.w0.getLsbD 63 = true ∧
    parkOf (after (.fqVerdictReplay 0) (parked true (.token 0 0x0B0 8))) 0 .copyChannel 2 = none ∧ (1 : Nat) < 2 ^ 6 := by decide +kernel

/-- Task 1 is ready, alone or as a gang, beside the running task 0. -/
def readyTask (gang : Bool) : State :=
  { withGraph id with tasks := user.tasks ++ [{ id := 1, bay := 0, graph := 0, run := 0, kind := .graph, index := 1, step := 0, stat := .ready, gang := gang }] }

theorem witness_dispatch : let s := readyTask false
    rd s.placed 0 0 ≤ s.now ∧ (topBays s 0).1.map (·.bay) = [0] ∧ (firstFit s 0 0).map (fun x => (x.1.id, x.2)) = some (1, [1]) ∧
    (nextBay 0 [{ Bay.root with credit := 1 }]).isSome = true ∧
    ((after (.dispatch 0) s).core 1).task = some 1 ∧ rd (after (.dispatch 0) s).placed 0 0 = 1 := by decide +kernel

/-- R329: an aged gang reserves the half with the most free cores, of equals the lowest: here no core is free but 8 to 10. -/
def crowded : State :=
  let s := readyTask true
  { s with
    cores := Vector.ofFn fun n => let c := s.core n.val; if 8 ≤ n.val && n.val ≤ 10 then c else { c with task := some 0 }
    now := 70000 }

theorem witness_gang : (crowded.taskAt 1).any (fun t => t.gang && t.stat == .ready && decide (t.readySince + crowded.regs.dspAge ≤ crowded.now) &&
    (placeFor crowded 0 t).isNone && (placeFor crowded 1 t).isNone) = true ∧ crowded.reservations = [] ∧
    (after (.gangReserve 0 1) crowded).reservations = [{ die := 0, task := 1, first := 8 }] := by decide +kernel

/-- The bay's quantum is 1,024 cycles; the task waits in a JOIN since cycle 0. -/
def quantum (now : Nat) : State :=
  let s := rivalled.modBay 0 fun b => { b with eff := { b.eff with quantum := 1, yield := 1 } }
  { withG s fun g => { g with wait := some { instr := .join 1 0 0, since := 0, timeout := BitVec.allOnes 64, mark := 0 } } with now := now }

theorem witness_quantum : ((quantum 1024).taskOn 0).any (fun t => t.cores.foldl min 0 == 0 && mayPreempt (quantum 1024) t && slotsLeft (quantum 1024) t) = true ∧
    coreRuns (quantum 1025) 0 .user = true ∧ ((after (.quantumExpiry 0) (quantum 1024)).core 0).stop.map (·.why) = some (.save false) ∧
    ((after (.quantumExpiry 0) (quantum 1023)).core 0).stop = none ∧
    ((after (.yieldThresholdExpiry 0) (quantum 1025)).core 0).stop.map (·.why) = some (.save true) := by decide +kernel

/-- Task 0 stands still, to be saved; is to go on; or retires. -/
def moving (st : TStat) (saved restoring : Bool) : State :=
  let s := (withTask (withGraph id) fun t => { t with stat := st }).modCore 0 fun c =>
    { c with restoring := restoring, stop := if saved then some { b := 0, why := .save false, faults := [], reached := true, at_ := some 0 } else none }
  { s.modBay 0 fun b => { b with eff := { b.eff with savebase := 0x10000, savecnt := 1 } } with now := 1 }

theorem witness_contexts : let s := moving .saving true false
    (s.taskOn 0).any (fun t => (t.stat == .saving) && (t.cores.foldl min 0 == 0)) = true ∧ settled (s.core 0) = true ∧ (s.core 0).stopNext = none ∧
    freeSlots s 0 1 0 = some [0] ∧ (after (.contextSaveComplete 0) s).tasks.map (·.stat) = [.saved [0] false] ∧
    ((moving .running false true).core 0).restoring = true ∧ publishWaits ((moving (.retiring (.ends (.retired 3))) false false).core 0) = false ∧
    (after (.taskRetire 0) (moving (.retiring (.ends (.retired 3))) false false)).tasks.map (·.stat) = [.ended (.retired 3)] := by decide +kernel

/-- The graph in a state of its life; it has one task record, of index 0, at 0x40, and its schedule at 0x800. -/
def living (st : GStat) (f : Graph → Graph) : State :=
  let g := { graph0 with stat := st, ntask := 1, tasksAddr := 0x40, sched := 0x800, w0s := [0], succ := [[]], npred := [0], cnt := [0], ended := [false],
                         released := [true] }
  { user with graphs := [f g], seqs := wr user.seqs 0 (some 0), runs := [{ id := 0, packet := 0, bay := 0, graph := 0, seed := 0 }] }

theorem witness_graphs : freeSeq (living .waiting id) 0 0 = some 1 ∧ ((living .waiting id).graphAt 0).map (·.killed) = some false ∧
    ((living .waiting fun g => { g with killed := true }).graphAt 0).map (·.killed) = some true ∧
    (match (living .betweenSteps id).graphs with | g :: _ => (match readSched (living .betweenSteps id) g with | (_, .inl _) => true | _ => false) | _ => false) = true ∧
    (acceptGraph (living .assigned id) { graph0 with desc := 0x1000 }).2.isNone = true := by decide +kernel

/-- A descriptor that is accepted: one task, one step, its lists aligned. -/
theorem witness_descriptor : descBad ([0x0000000000010001, 0x40, 0x800, 0, 0, 0, 0, 0] ++ List.replicate 8 0) = false ∧ succBad 2 [[1], []] = false ∧
    descBad (List.replicate 16 0) = true := by decide +kernel

/-- R343: a step ends when no task of it is left. -/
theorem test_step_end : let s := { living .running fun g => { g with nstep := 2 } with tasks := [] }
    (after (.stepEnd 0) s).graphs.map (fun g => (g.step, g.stat)) = [(1, .betweenSteps)] := by decide +kernel

/-- Task 0 of the graph has ended. -/
theorem witness_task_end : let s := withTask (living .running id) fun t => { t with stat := .ended (.retired 0) }
    (s.taskAt 0).map (·.stat) = some (.ended (.retired 0)) ∧ (after (.taskEnd 0) s).tasks = [] ∧
    (after (.taskEnd 0) s).graphs.map (·.nRet) = [1] := by decide +kernel

/-- Stage 0 of the step has a deadline of 1,024 cycles and one unended task. -/
def late (now : Nat) : State := { living .running fun g => { g with dl := wr g.dl 0 1 } with now := now }

theorem witness_deadline : ((late 1024).graphAt 0).map (fun g => unended (late 1024) g 0) = some [0] ∧
    (after (.stageDeadlineExpiry 0 0) (late 1024)).graphs.map (fun g => (g.boosted, g.expired)) = [(true, 1)] ∧
    (after (.stageDeadlineExpiry 0 0) (late 1023)).graphs.map (·.boosted) = [false] := by decide +kernel

/-- A checkpointed step is asked to run again, its tasks gone. -/
def again : State := { living .running (fun g => { g with rerun := true, ckptStep := some 0 }) with tasks := [] }

theorem witness_rerun : (again.graphAt 0).map (fun g => (g.rerun, g.reran, g.killed, g.ckptStep)) = some (true, false, false, some 0) ∧
    (after (.stepRerun 0) again).graphs.map (fun g => (g.reran, g.ckptJob.map (·.back))) = [(false, some true)] ∧
    (after (.stepRerun 0) (after (.stepRerun 0) again)).graphs.map (fun g => (g.rerun, g.reran, g.ckptJob)) = [(false, true, none)] := by
  decide +kernel

/-- In a deterministic bay the task has done its work. -/
def committing : State :=
  (withTask (living .running id) fun t => { t with stat := .done (.retired 0) }).modBay 0 fun b => { b with eff := { b.eff with det := true } }

theorem witness_commit : (firstUncommitted committing 0).map (·.stat) = some (.done (.retired 0)) ∧
    (after (.detCommit 0) committing).tasks.map (·.stat) = [.ended (.retired 0)] := by decide +kernel

/-- A weight stream of one block of 64 KiB for group 5, not yet started or on channel 0; both buffers of core 0 subscribe to group 5. -/
def flowing (started : Bool) : State :=
  let p : Part := { id := 8, run := some 0, bay := 0, sparge := true, started := started, words := #v[0x10000, 0, 0x10000, 5, 0, 0, 0, 0] }
  let s := withE (living .running id) fun e => { e with wb := Vector.replicate 2 { group := some 5 } }
  { s with parts := [p], sparge := if started then wr s.sparge 0 { part := some 8 } else s.sparge }

theorem witness_stream : ((flowing false).parts.all fun p => partRuns (flowing false) p) = true ∧ runEnded (flowing false) 0 = false ∧
    decide (rd (after (.spargeStart 8) (flowing false)).sparge 0 {} = { part := some 8 }) = true ∧ (partOn (flowing true) 0).isSome = true ∧
    subscribers (flowing true) 5 = [(0, 0), (0, 1)] ∧ savedSubscriber (flowing true) 5 = false ∧
    ((partOn (flowing true) 0).map fun p => portions p.words) = some 1 := by decide +kernel

/-- R365: firmware starts a program that meets the rules of programs, and none that breaks them. -/
theorem test_firmware_program : (firmwareProgram user 0 [0x10000, 0, 0x10000, 5]).parts.map (·.run) = [none] ∧
    spargeBad #v[0x10000, 0, 0x10000, 5, 0, 0, 0, 0] = false ∧ spargeBad #v[0x10000, 0, 0x10000, 5, 0, 1, 0, 0] = true := by decide +kernel

/-- A linked copy of the RUN is to be made. -/
theorem witness_linked_copy : let s := { living .running id with parts := [{ id := 8, run := some 0, bay := 0, sparge := false, words := #v[0x400, 0x800, 64, 0, 0, 0, 0, 0] }] }
    (after (.linkedCopyComplete 8) s).parts.map (·.done) = [true] := by decide +kernel

/-- Ring 3 of 64 packets at 0x4000, its tail line at 0x8000, holds a packet of those words. -/
def ringOn (w : List W64) : State :=
  { user with mem := memWrite (memWrite user.mem 0x4000 (w.flatMap fun x => toBytes 8 x.toNat)) 0x8000 [1]
              rings := wr user.rings 3 { w0 := BitVec.ofNat 64 (2 ^ 63 + 0x4000), w1 := 0x8000, tail := 1 } }

/-- A SIGNAL packet of bay 0 whose completion record goes to 0x9000. -/
def signal : List W64 := [5, 0x9000, 0, 0, 0, 0, 0, 0]

theorem witness_packet : NextPacket (ringOn signal) 3 (Vector.ofFn fun i => (signal[i.val]?).getD 0) := by unfold NextPacket; decide +kernel

theorem witness_packet_starts : refusal (ringOn signal) (Vector.ofFn fun i => (signal[i.val]?).getD 0) = none ∧
    (after (.signalPacket 3) (ringOn signal)).packets.map (fun p => pKind p.words) = [5] ∧
    ((after (.signalPacket 3) (ringOn signal)).rings[3]).head = 1 ∧
    (after (.packetCompletionRecord 0) (after (.signalPacket 3) (ringOn signal))).packets = [] := by decide +kernel

/-- A bay image for bay 7 under bay 0 is at 0xA000, all of it inherited; a RUN needs a page table, a save area and a log. -/
theorem witness_bay : let s := { ringOn [2 + 7 * 256, 0x9000, 0, 0xA000, 0, 0, 0, 0] with mem := (ringOn [2 + 7 * 256, 0x9000, 0, 0xA000, 0, 0, 0, 0]).mem }
    pBay (Vector.ofFn fun i => ([(2 + 7 * 256 : W64), 0, 0, 0, 0, 0, 0, 0][i.val]?).getD 0) = 7 ∧ (readImage s 0xA000).isSome = true ∧
    (s.bayAt 0).isSome = true ∧ (s.bayAt 7).isNone = true ∧ (s.effNow 0).ptroot ≠ 0 ∧ (s.effNow 0).savebase = 0 := by decide +kernel

/-- Ring 3 disabled and enabled, and a tail beyond the ring. -/
theorem witness_ring_registers : (rd user.rings 3 {}).w0.getLsbD 63 = false ∧ (rd (ringOn signal).rings 3 {}).w0.getLsbD 63 = true ∧
    (pocRead8 (ringOn signal) 0x8000).toNat = 1 ∧ (rd (ringOn signal).rings 3 {}).head ≤ 1 ∧ 1 ≤ (rd (ringOn signal).rings 3 {}).head + 64 := by
  decide +kernel

/-- Other packages: no Loft window holds offset 0x400; one of core 5 does in the second state; package 9 is reached over link 2. -/
def windowed : State :=
  { user with regs := { user.regs with plkLwin := wr user.regs.plkLwin 0 (BitVec.ofNat 64 (2 ^ 63 + 2 ^ 62 + 2 ^ 54 + 5 * 2 ^ 45), BitVec.ofNat 64 (2 ^ 28))
                                       plkRoute := wr user.regs.plkRoute 9 (BitVec.ofNat 64 (2 ^ 63 + 4)) } }

theorem witness_remote : loftWindow user 0x400 = none ∧ (loftWindow windowed 0x400).map (·.2) = some (5, 0x400) ∧ linkTo windowed 9 0 = some 2 ∧
    linkTo user 9 0 = none ∧ eavAllows user 9 0 0x400 8 true true false = true ∧
    eavAllows { user with regs := { user.regs with eavCtl := true } } 9 0 0x400 8 true false false = false ∧
    arriveAt { target := 2 } (some (9, 4)) ≠ none ∧ addPend {} (-8) = some { pend := -8 } := by decide +kernel

theorem witness_targets : target 0x400 = .hbm ∧ (0x400 / 2048 % 8 = 0) ∧ (0x400 + 8 ≤ 2 ^ 39) := by decide +kernel

/-- An uncorrectable error that a read of task 0 met. -/
def loss : LossReport :=
  { cause := 0x142, unit := 0, base := 0x400, len := 64, reader := .access, core := some 0, access := none, kind := 0, address := 0x400, tasks := [0] }

theorem witness_loss : ((loss.tasks.filter fun k => ((living .running id).taskAt k).isSome) = [0]) ∧
    ((living .running id).taskAt 0).map (fun t => (t.kind, t.step)) = some (.graph, 0) ∧ ((living .running id).graphAt 0).map (·.reported) = some [] ∧
    ((again.graphAt 0).map fun g => (g.ckptStep == some g.step) && !g.reran) = some true ∧ (user.core 0).offline = false ∧ (user.core 319).offline = false := by
  decide +kernel

/-- R380, R94: the moves of a step, and the ends of the schedule. -/
theorem witness_step : (user.withFetchWord 32 0).sched = [.gen 0 .user] ∧ rd user.powered 0 false = true ∧
    (match fetch { user.withFetchWord 32 0xFFFE5291 with sched := [], cur := { core := 0, ctx := .user } } 0 0 with
      | (_, .inl w) => decide (decodeGen w = .ok (.gaddi 5 5 (-1))) | _ => false) = true ∧
    (headOp (atSlot .s 0x00A004014502) 0 .s).isSome = true ∧ headOp user 0 .s = none := by decide +kernel

/-- R60: a slot's step runs the op at the head of its queue. -/
theorem test_step_slot : flying (stepped { setS (atSlot .s 0x00A004014502) 5 1 with sched := [.slot 0 .s] }) = [(1, [.s 5 65])] := by decide +kernel

theorem witness_memory_form : user.memWf := by
  refine ⟨by decide +kernel, fun n => ?_, by decide +kernel⟩
  by_cases h : n < 320
  · revert n; unfold Core.memWf; decide +kernel
  · have : user.core n = {} := by
      unfold State.core rd; exact List.getD_eq_default _ _ (by simp; omega)
    rw [this]; exact ⟨rfl, rfl⟩

/-- A state that meets the invariant steps to a next state. -/
theorem witness_memory_step : (match step user with | .next _ => true | _ => false) = true := by decide +kernel

theorem witness_frames : gDest (.gadd 1 2 3) = some (some 1) ∧ gDest (.gbr 1) = some none ∧ (encodeSlot .s (.sadd sFields)).isSome = true ∧
    (encodeSlot .v0 (.vadd vInt)).isSome = true ∧ fnFits (.sadd sFields) ∧ (Instr.gadd 1 2 3).wf = true := by
  refine ⟨?_, ?_, ?_, ?_, trivial, ?_⟩ <;> decide +kernel

/-- R171's worked selection: the 6 greatest of the first 6 lanes, lane 2 masked out and lane 3 a NaN. -/
theorem test_vtopk :
    let row := (toBytes 32 0x41100000411000003F000000404000007FC0000040A00000BF80000040400000)
    let s := withE topping fun e => { e with v := wr e.v 2 (BitVec.ofNat 4096 (ofBytes row)), m := wr e.m 1 (BitVec.allOnes 512 ^^^ 0xF00) }
    let s := { s with cur := { s.cur with info := { bcsrc := 1, bcimm := 0x606 } } }
    let f : VOp := { tagw := 0, taga := 0b1101, xtra := 7, beats := 0, neg := 0, sat := 0, rnd := 0, etype := 8, msk := 1, bk := 1, c := 0, b := 0, a := 2, dst := 8 }
    (flying (after (.vtopk f) s)).map (fun l => (l.1, l.2.map fun w => match w with
      | .v n v _ => (n, v.toNat % 2 ^ 192) | .s n v => (n, v.toNat) | _ => (0, 0))) =
      [(10, [(8, 0xFF800000FF800000BF8000003F0000004040000040400000), (9, 0xFFFFFFFFFFFFFFFF00000001000000050000000400000000), (7, 4)])] := by decide +kernel

/-- R146: .PRE of 3 elements of 16 bits sets six mask bits. -/
theorem test_ssetmk :
    (flying (after (.ssetmk { tagw := 0, taga := 0, pred := 0, mod := 4, b := 0, a := 5, dst := 2 }) (setS (atSlot .s 0x16) 5 3))).map (·.2) =
      [[.m 2 0x3F (BitVec.allOnes 512)]] := by decide +kernel

/-- R53: the inner loop's last pass leaves it, and the outer loop's end lies elsewhere. -/
theorem test_loop_end : (advance (looping 1) 4).nest = [0] ∧ (advance (looping 1) 4).pc = 0x44 ∧ (advance (looping 2) 4).pc = 0x20 := by decide +kernel

/-! ### The other conditions of statements -/

/-- R149, R150: the second beat of a VADD lands two cycles on and frees its unit's run. -/
theorem witness_beat_completes : let s := { beating with now := 1 }
    (rd (s.core 0).e.vrun (slotNum .v1 - 1) none).map (·.beat) = some 1 ∧ rd (s.core 0).e.unitFree (slotNum .v1) 0 ≤ s.now + (1 + 1 - 1) ∧
    vInt.bk = 0 ∧ vInt.etype.toNat ≤ 5 ∧ (rd ((after (.vBeat 0 .v1) s).core 0).e.vrun 1 none).isNone = true := by decide +kernel

/-- R150: i16 lanes 5 + 7 of the op's second beat go to the second register of its destination. -/
theorem test_beat :
    let s := withE { beating with now := 1 } fun e => { e with v := wr (wr e.v 2 5) 3 7 }
    (flying (after (.vBeat 0 .v1) s)).map (fun l => (l.1, l.2.map fun w => match w with | .v n v _ => (n, v.toNat % 65536) | _ => (0, 0))) =
      [(3, [(4, 12)])] := by decide +kernel

/-- R338: the task's bay is deterministic, with an arena of `lines` lines; it may wait for one. -/
def sheltered (lines : Nat) (starved : Bool) : State :=
  (withTask (keyed.modBay 0 fun b => { b with eff := { b.eff with det := true, shbase := 0x20000, shlen := BitVec.ofNat 64 (64 * lines) } }) fun t =>
    { t with starved := starved })

/-- A store to the mapped page has room, and an atomic there. -/
def roomy (s : State) : Option (Bool × Bool) :=
  match amoAccess user 0 9 true 0 none with
  | (_, .ok ps) => some (shadowRoom s (s.core 0).task ps, amoRoom s 0 9 ps)
  | _ => none

theorem witness_room : roomy user = some (true, true) ∧ roomy (sheltered 8 false) = some (true, true) ∧ roomy (sheltered 0 false) = some (false, false) ∧
    popRoom (actAs (queueing (.qpop 1 0 1 0) [5]) 0 .user) 0x40 = true ∧ (keyed.core 0).caskRate = 0 ∧ ((keyed.taskOn 0).map (·.stored)) = some false ∧
    (((flyingAcc .store).core 0).e.xacc.all fun a => !accStarves (flyingAcc .store) 0 a) = true ∧ slotStarves fetching 0 .x0 = false := by decide +kernel

/-- Each member of the gang has an MLDA that can go. -/
def gangReady : State :=
  [0, 1, 2, 3].foldl (fun s n => s.modE n fun e =>
    { e with ganged := true, fm := #v[4, 4, 0, 6], slotQ := wr e.slotQ 3 [{ bits := 0x01, info := {}, notBefore := 0 }] })
    { user with cur := { core := 0, ctx := .user, slot := .m, info := {}, bits := 0x01 } }

theorem witness_gang_ready : (gangPart gangReady 0 0).any (fun g => [0, 1, 2, 3].all fun m => gangFits gangReady m 0 g) = true ∧
    (fmRead gangReady 0 {} 0).map fmValid = some true ∧ (fmRead ganging 0 {} 2).map fmValid = some false := by decide +kernel

/-- R297: a wait issued in the cycle of the stop is held, an earlier one is not. -/
theorem witness_waits_held (b : Bool) : waitHeld (fencing b) 0 1 = false ∧ waitHeld (stopping .fault 0) 0 0 = true ∧
    waitHeld (xUser .x0 0x12) 0 0 = false := by revert b; decide +kernel

theorem witness_stop_copies : ((stopping .fault 0).core 0).caskJob.any (fun j => j.ctx == .user) = false ∧
    ((after (.stopBoundary 0) (stopping .fault 0)).core 0).stop.any (·.reached) = true := by decide +kernel

/-- R5: the die's clock has no edge in this period, and then its core's moves do nothing. -/
def still : State := { user.withFetchWord 32 0xFFFE5291 with sched := [.gen 0 .user], clockEdge := wr user.clockEdge 0 false }

theorem witness_clock_edges : rd user.clockEdge 0 true = true ∧ rd still.clockEdge 0 true = false ∧ rd still.powered 0 false = true ∧
    g0 (stepped still) 5 = 0 := by decide +kernel

/-- R338: the first task in commit order waits for a line of the arena; it commits and goes on with direct stores. -/
theorem witness_commit_starved : let s := sheltered 0 true
    (firstUncommitted s 0).map (fun t => (t.stat, t.starved)) = some (.running, true) ∧ (s.eff 0).det = true ∧
    (after (.detCommit 0) s).tasks.map (fun t => (t.unshadowed, t.starved)) = [(true, false)] := by decide +kernel

/-- R316: a bay 7 under bay 0; a modify that names no bay as its parent is refused. -/
theorem witness_reparent : let s := { user with bays := user.bays ++ [{ Bay.root with bay := 7, parent := 0, depth := 1 }] }
    (s.bayAt 7).map (·.parent) = some 0 ∧ reparentBad s 7 9 = some 0x11 ∧ reparentBad s 7 7 = some 0x12 := by decide +kernel

/-- R376: a post that a barrier's counter cannot hold; and addresses of the host and the CXL pool. -/
theorem witness_posts : addPend { pend := -(2 ^ 31) } (-8) = none ∧ (user.barrier 5).target = 0 ∧ target 0x10000000000 = .host ∧
    target 0x20000000000 = .pool ∧ target 0x400 = .hbm := by decide +kernel

/-- R217: an exchange on the scratchpad at issue, with no store of the cycle before it. -/
theorem test_amo_scratch :
    let s := setS (setS (atSlot .x0 0x0A) 1 (BitVec.ofNat 64 (2 ^ 60 + 8))) 2 0x55
    let t := after (.amo { xr with a := 3, b := 1, c := 2, fn := 24 }) s
    (s.core 0).endStores = [] ∧ memRead (t.core 0).scratch 8 2 = [0x55, 0] ∧ (t.core 0).e.cL = 1 := by decide +kernel

/-- R130: another barrier's phase has completed in this cycle. -/
theorem witness_phase_now : let s := barriered.modBarrier 4 fun b => { b with doneAt := some 0 }
    (curG s).barrec = none ∧ (s.barrier 4).doneAt = some 0 ∧ s.now ≤ 0 ∧ g0 (after (.gbwait 1 1 0) s) 1 = 4 ∧
    ((after (.gbwait 1 1 0) s).core 0).e.user.pc = 4 := by decide +kernel

/-- Task 5 of the running step has ended. -/
def pastOf : State := living .running fun g => { g with past := [(5, 0, .retired 0)] }

theorem witness_past : (pastOf.taskAt 5).isNone = true ∧ (pastTask pastOf 5).map (·.2) = some (0, .retired 0) ∧
    (match seqRead (noteReported pastOf 0 0) 0 0x40 64 64 with | (_, some _) => true | _ => false) = true := by decide +kernel

/-- R384: a move of a ring's head record that has started ends. -/
theorem test_move_ends :
    let s := withGraph fun g => { g with queues := wr g.queues 0 { base := 0x40, rsize := 64, count := 1, moving := [9] } }
    (after (.ringToQueueMove 0 0) s).graphs.map (fun g => let t := rd g.queues 0 {}; (t.q, t.count, t.moving)) = [([9], 0, [])] := by decide +kernel

/-! ### Errors, other packages and the stream's holds -/

/-- The granule of memory at 0x400 and the first of core 0's scratchpad are lost. -/
def lossy (s : State) : State :=
  { s with lost := [{ at_ := .phys 16, bytes := BitVec.allOnes 64, kind := 6 }, { at_ := .scratch 0 0, bytes := BitVec.allOnes 64, kind := 6 }] }

/-- The pieces of an access, none when it does not pass. -/
def piecesOf (a : State × Acc) : List Piece := match a.2 with | .ok ps => ps | .bad _ => []

theorem witness_lost : let s := lossy (xUser .x0 1)
    loadKind s 0 (piecesOf (access s (slotWho s 2) 0x400 8 8 .wb)) = some 6 ∧
    loadKind s 0 (piecesOf (access s (slotWho s 2) (BitVec.ofNat 64 (2 ^ 60)) 8 8 .wb)) = some 6 ∧
    loadKind s 0 (piecesOf (access s (slotWho s 2) 0x440 8 8 .wb)) = none ∧ amoLost s 0 (piecesOf (amoAccess s 0 9 true 0x400 none)) = some 6 ∧
    placeKind s (some 0) (.scratch 8) 8 = some 6 ∧ mayFail s 0 (piecesOf (access s (slotWho s 2) 0x440 8 8 .wb)) = true ∧
    (((lossy (flyingAcc .store)).core 0).e.xacc.map (targetFault (lossy (flyingAcc .store)) 0)) = [none] ∧
    (((lossy (flyingAcc (.loadS 3))).core 0).e.xacc.map (targetFault (lossy (flyingAcc (.loadS 3))) 0)) = [some 6] := by decide +kernel

/-- R389: a generator load of lost bytes faults at its own pc. -/
theorem test_lost_load : stopsWith (after (.gld 5 1 3 0 0) (setG (lossy user) 1 0x400)) 0x086 = true := by decide +kernel

/-- An access of core 0 that lies in package 9, before and after it has left. -/
def leaving (left : Bool) : State :=
  let away (p : Piece) : Piece := { p with loc := .phys (0x400000000000 + 9 * 2 ^ 40 + 0x400) }
  let far (a : XAcc) : XAcc := { a with pieces := a.pieces.map away, done := left }
  withE { flyingAcc .store with regs := windowed.regs } fun e => { e with xacc := e.xacc.map far }

theorem witness_departs : (((leaving false).core 0).e.xacc.map (departs (leaving false) 0)) = [true] ∧
    (((leaving true).core 0).e.xacc.map (departs (leaving true) 0)) = [false] ∧
    (((after (.storePerformed 0 5) (leaving false)).core 0).e.xacc.map (·.done)) = [true] ∧
    ((after (.storePerformed 0 5) (leaving true)).core 0).e.cS = 0 := by decide +kernel

/-- A copy's granule that lies in package 9, its write not sent, or sent and not yet acknowledged. -/
def copyingFar (away : List Nat) : State :=
  let far : Copy := { k := 7, run := 3, off := 0, gran := [(.phys (0x400000000000 + 9 * 2 ^ 40 + 0x400), 5, false)], away := away, post := none }
  withE { delivering none with regs := windowed.regs } fun e => { e with ch := wr e.ch 2 { rd e.ch 2 {} with copies := [far] } }

theorem witness_far : ((rd ((after (.copyDelivery 0 2 7 0) (copyingFar [])).core 0).e.ch 2 {}).copies.map fun x => (x.away, x.gran.map (·.2.2))) =
      [([0], [false])] ∧
    (rd ((after (.copyDelivery 0 2 7 0) (copyingFar [0])).core 0).e.ch 2 {}).copies = [] ∧
    ((rd ((copyingFar [0]).core 0).e.ch 2 {}).copies.map (copyPart fun l => match l with | .phys _ => true | _ => false)) = [some 6] := by
  decide +kernel

/-- R60: of bundles emitted before, that of number 0 has an op to issue; the next entry is bundle `n`. -/
def slipped (n : BitVec 32) : State :=
  let o : QOp := { bits := 0, info := { ctx := .user, eseq := 0 }, notBefore := 0 }
  withE (expanding { emitted (some (bundle 0x00A004014502)) 0xFFFF with eseq := n }) fun e =>
    { e with user := { e.user with eseq := n + 1 }, slotQ := wr e.slotQ 3 [o] }

theorem witness_slip : position ((slipped 16).core 0) .m = 0 ∧ slipHeld ((slipped 16).core 0) { emitted none 0 with eseq := 16 } = true ∧
    slotQ ((after (.expandBundle 0) (slipped 16)).core 0).e .s = [] ∧ (slotQ ((after (.expandBundle 0) (slipped 15)).core 0).e .s).length = 1 := by
  decide +kernel

/-! ### Generator: prepared branches, replies that may fault, copies that may not be made -/

/-- R50: the fetch at a GPREP's target finds a line, or would fault, beyond the mapped pages. -/
theorem witness_prepares : (match fetchBytes user 0 0x40 4 false with | (u, .inl _) => decide ((advance (curG u) 8).pc.toNat % 4 = 0) | _ => false) = true ∧
    (match fetchBytes user 0 0x800000000000 4 false with | (_, .inr _) => true | _ => false) = true := by
  decide +kernel

/-- R95: a count of 0 with an end that is no multiple of 4 raises 0x060; one whose length cannot be fetched faults there. -/
theorem witness_loop_misaligned : stopsWith (after (.gloop 0 1 0x21) user) 0x060 = true ∧ stopsWith (after (.gloop 0 1 0x20) user) 0x060 = false ∧
    (match fetchBytes user 0 0x7FFFFFFFFF00 4 false with | (_, .inr _) => true | _ => false) = true := by decide +kernel

/-- R106: a context with a reply to come that may fault tries nothing later. -/
def fearing : State := withG (user.withFetchWord 32 0xFFFE5291) fun g => { g with loads := [{ id := 7, dest := .g 6, val := 9, firm := true }] }

theorem witness_firm : (curG fearing).loads.all (·.firm) = true ∧ g0 (stepped { fearing with sched := [.gen 0 .user] }) 5 = 0 := by decide +kernel

/-- R303: in a handler a reply for g28 to g31 is for hg28 to hg31; GERET waits for one for hg30. -/
def handlerReply : State := withG (handling false) fun g => { g with loads := [{ id := 7, dest := .hg 2, val := 8, hm := true }] }

theorem witness_handler_reply : named (curG (handling false)) 30 = .hg 2 ∧ named (curG user) 30 = .g 30 ∧ ¬GenMay handlerReply [30] ∧
    GenMay (handling false) [30] ∧ rd ((after (.genLoadReply 0 .user 7) handlerReply).core 0).e.user.hg 2 0 = 8 := by
  unfold GenMay; decide +kernel

/-- R106: a store of the reference or the output that may not be written; the arena is not mapped, or the output lies nowhere. -/
theorem witness_ckstore_faults : stopsWith (after (.ckstore 1 2 3) (setG (arena []) 2 (BitVec.ofNat 64 (2 ^ 56)))) 0x0AA = true ∧
    (rd (after (.ckstore 1 2 3) (setG (arena []) 2 (BitVec.ofNat 64 (2 ^ 56)))).cask 0 []) = [] ∧
    ((arena []).taskOn 0).any (fun t => !t.unshadowed) = true := by decide +kernel

/-- R174: a drain into queue 3 is in flight. -/
def flowingRows : State := withE (atSlot .v0 0x3A) fun e => { e with drainEnds := wr e.drainEnds 3 5 }

theorem witness_drain_flying : drainFlying flowingRows.now (curE flowingRows) 3 = true ∧ drainFlying 5 (curE flowingRows) 3 = false ∧
    rd (curE flowingRows).oq 3 [] = [] := by decide +kernel

/-- R193: a member of the gang is held by its own bundle in this cycle, so none of the four issues. -/
theorem witness_gang_held : (curE (gangReady.modE 0 fun e => { e with gangHeld := some 0 })).gangHeld = some gangReady.now ∧
    (curE gangReady).gangHeld ≠ some gangReady.now := by decide +kernel

/-! ### Fibre ops -/

/-- Work on stream 0 of core 0, `f`, and stream 1, a D level; memory at 0x400 holds the 16-bit entries 3, 7, 7, 9. -/
def working (f : FStream) (ex : List (Nat × Option (Nat × Nat))) : FWork :=
  let s := { user with mem := memWrite user.mem 0x400 [3, 0, 7, 0, 7, 0, 9, 0] }
  { s := withE s fun e => { e with f := wr (wr e.f 0 f) 1 { isOpen := true, kind := 0, endp := 5, extent := 5 } }
    n := 0, co := 0, pa := 0, pb := 0, ex := ex, words := [], fw := false }

/-- A C or an S stream at entry `cur` with LAST `last`; a B stream at bit `cur` of a stated count. -/
def coords (kind : BitVec 2) (cur last : BitVec 32) : FStream :=
  { isOpen := true, kind := kind, cur := cur, endp := 4, last := last, lv := decide (0 < last), arr1 := 0x400, extent := 9, ppos := 1 }

def bitmap (cur stated run : BitVec 32) : FStream :=
  { isOpen := true, kind := 2, cur := cur, endp := 64, arr1 := 0x400, extent := 64, stated := stated, run := run, vbase := 10 }

/-- What an examination of stream 0 finds: the element, or the kind of the trap. -/
def finds (f : FStream) : Option (Option (Nat × Nat)) × Option Nat :=
  let r := examine (working f []) 0 0
  (r.1.ex.lookup 0, match r.2 with | some (.trap _ k _ _ _) => some k | some (.access _ _) => some 99 | none => none)

/-- R231, R240: an entry in order, below LAST, equal to it, beyond the extent; at the end; one that may not be read. -/
theorem witness_examine_c :
    [coords 1 1 3, coords 1 1 8, coords 1 2 7, { coords 1 2 7 with nu := true }, coords 1 3 7, coords 1 4 7, coords 3 0 0,
      { coords 1 1 3 with arr1 := BitVec.ofNat 64 (2 ^ 62) }].map finds =
    [(some (some (7, 1)), none), (none, some 0), (none, some 0), (some (some (7, 2)), none), (none, some 1), (some none, none),
      (some (some (7, 1)), none), (none, some 99)] := by decide +kernel

/-- R231: the bitmap's set bits are 0, 1, 16, 17, 18, ...; D streams read nothing. -/
theorem witness_examine_b :
    [bitmap 2 9 2, bitmap 2 2 2, bitmap 64 2 2, bitmap 64 3 2, { isOpen := true, kind := 0, cur := 2, endp := 5, vbase := 10 },
      { isOpen := true, kind := 0, cur := 5, endp := 5 }, { bitmap 2 9 2 with arr1 := BitVec.ofNat 64 (2 ^ 62) }].map finds =
    [(some (some (16, 12)), none), (none, some 3), (some none, none), (none, some 3), (some (some (2, 12)), none), (some none, none),
      (none, some 99)] := by decide +kernel

/-- An op on streams 0 and 1 of X0. -/
def opOf (i : Instr) : XRun := { instr := i, info := {}, bits := 0, since := 0 }

def both : XROp := { xr with a := 8 }

/-- What a step of an op on elements of streams 0 and 1 does: the pairs and the cursors after it, or that the op is done or stops. -/
def steps (i : Instr) (nu : Bool) (x y : Option (Nat × Nat)) : Nat × Nat × Nat × Nat :=
  match fStep 0 (opOf i) (working { coords 1 1 3 with nu := nu } [(0, x), (1, y)]) with
  | .more w => (0, w.n, (rd (w.s.core 0).e.f 0 {}).cur.toNat, (rd (w.s.core 0).e.f 1 {}).cur.toNat)
  | .done w => (1, w.n, (rd (w.s.core 0).e.f 0 {}).cur.toNat, (rd (w.s.core 0).e.f 1 {}).cur.toNat)
  | .stop _ (.trap _ k _ _ _) => (2, k, 0, 0)
  | .stop _ _ => (3, 0, 0, 0)

/-- R240: intersection and union of elements that meet, and of ones that do not; either stream at its end; an NU stream. -/
theorem witness_fibre_steps : steps (.fint both) false (some (7, 1)) (some (7, 0)) = (0, 1, 2, 1) ∧
    steps (.fint both) false (some (3, 1)) (some (7, 0)) = (0, 0, 2, 0) ∧ steps (.fint both) false (some (7, 1)) (some (3, 0)) = (0, 0, 1, 1) ∧
    steps (.fint both) false none (some (3, 0)) = (1, 0, 1, 0) ∧ steps (.funi both) false (some (3, 1)) (some (7, 0)) = (0, 1, 2, 0) ∧
    steps (.funi both) false none (some (7, 0)) = (0, 1, 1, 1) ∧ steps (.funi both) false none none = (1, 0, 1, 0) ∧
    steps (.fint both) true (some (7, 1)) (some (7, 0)) = (2, 5, 0, 0) ∧ steps (.fnext xr) true (some (7, 1)) none = (0, 1, 2, 0) ∧
    steps (.fnext xr) false none none = (1, 0, 1, 0) := by decide +kernel

/-- R240, R241: FSKIP below and at its target, and on a D stream; FVAL of a position, of none, beyond the values, and of one that may not be
read. -/
theorem witness_fibre_skip_val :
    let skip (f : FStream) (x : Option (Nat × Nat)) (t : Nat) : Nat × Nat :=
      match fStep 0 { opOf (.fskip xr) with arg := BitVec.ofNat 64 t } (working f [(0, x)]) with
      | .more w => (0, (rd (w.s.core 0).e.f 0 {}).cur.toNat)
      | .done w => (1, (rd (w.s.core 0).e.f 0 {}).cur.toNat)
      | .stop _ _ => (2, 0)
    let val (pos nval : Nat) (values : W64) : Nat × Nat :=
      let r : XRun := { opOf (.fval xr) with note := 1, vec := BitVec.ofNat 4096 pos }
      match fStep 0 r (working { coords 1 1 3 with vfmt := 2, values := values, nval := BitVec.ofNat 32 nval } []) with
      | .more w => (0, w.co.toNat)
      | .done _ => (1, 0)
      | .stop _ (.trap _ k _ _ _) => (2, k)
      | .stop _ _ => (3, 0)
    skip (coords 1 1 3) (some (7, 1)) 8 = (0, 2) ∧ skip (coords 1 1 3) (some (7, 1)) 7 = (1, 1) ∧ skip (coords 1 1 3) none 7 = (1, 1) ∧
    skip { isOpen := true, kind := 0, cur := 2, endp := 5, extent := 5 } none 9 = (1, 5) ∧ val 1 2 0x400 = (0, 7) ∧
    val (2 ^ 32 - 1) 2 0x400 = (0, 0) ∧ val 2 2 0x400 = (2, 1) ∧ val 1 2 (BitVec.ofNat 64 (2 ^ 62)) = (3, 0) := by decide +kernel

/-- A descriptor at 0x800 of one level: `lvl` is its entry's words; the entry's offsets at 0x900 are 2 and 4. -/
def described (head : Nat) (lvl : Nat) : State :=
  { user with mem := memWrite (memWrite (memWrite user.mem 0x800 (toBytes 32 head)) 0x820 (toBytes 32 lvl)) 0x900 [2, 0, 0, 0, 4, 0, 0, 0, 1, 0, 0, 0] }

/-- What FOPEN of stream 0 on level `fn` at parent `p` does: the stream's cursor, end and base; or the kind of its trap. -/
def opens (head lvl : Nat) (fn : BitVec 6) (desc p : Nat) : Nat × Nat × Nat × Nat :=
  let r : XRun := { opOf (.fopen { xr with fn := fn }) with arg := BitVec.ofNat 64 desc, note := p }
  match fStep 0 r { working {} [] with s := described head lvl } with
  | .done w => let x := rd (w.s.core 0).e.f 0 {}; (0, x.cur.toNat, x.endp.toNat, x.vbase.toNat)
  | .more _ => (1, 0, 0, 0)
  | .stop _ (.trap _ k _ _ _) => (2, k, 0, 0)
  | .stop _ _ => (3, 0, 0, 0)

/-- R239, R244: FOPEN on a C, a D and a B level at root 0, with a parent that a root may not have, offsets out of order, a level past the rank,
a rank of 0, an address that is no multiple of 32, and one that may not be read. -/
theorem witness_opens : opens 1 (1 + 9 * 2 ^ 32 + 0x400 * 2 ^ 64 + 0x900 * 2 ^ 128) 0 0x800 0 = (0, 2, 4, 2) ∧
    opens 1 (9 * 2 ^ 32) 0 0x800 0 = (0, 0, 9, 0) ∧ opens 1 (2 + 64 * 2 ^ 32 + 0x400 * 2 ^ 64 + 0x900 * 2 ^ 128) 0 0x800 0 = (0, 0, 64, 2) ∧
    opens 1 (9 * 2 ^ 32) 0 0x800 1 = (2, 1, 0, 0) ∧ opens 1 (1 + 9 * 2 ^ 32 + 0x400 * 2 ^ 64 + 0x904 * 2 ^ 128) 0 0x800 0 = (2, 2, 0, 0) ∧
    opens 1 (9 * 2 ^ 32) 1 0x800 0 = (2, 5, 0, 0) ∧ opens 0 (9 * 2 ^ 32) 0 0x800 0 = (2, 4, 0, 0) ∧ opens 1 (9 * 2 ^ 32) 0 0x810 0 = (2, 4, 0, 0) ∧
    opens 1 (9 * 2 ^ 32) 0 (2 ^ 47) 0 = (3, 0, 0, 0) ∧ headerFieldBad 1 = none ∧ entryFieldBad (9 * 2 ^ 32) 0 false = none := by decide +kernel

/-- R243: FLOAD takes words that an FSAVE may have stored, and refuses a count of pairs above 128. -/
theorem witness_fload :
    let load (w1 : Nat) : Nat × Bool :=
      let r : XRun := { opOf (.fload xr) with pieces := [{ va := 0, loc := .scratch 0, len := 64, pol := .uc, group := 0 }] }
      match fStep 0 { r with got := wordBytes ([0x40, BitVec.ofNat 64 w1] ++ List.replicate 6 0) } (working {} []) with
      | .done w => (1, (rd (w.s.core 0).e.f 0 {}).isOpen)
      | .stop w (.trap _ k _ _ _) => (k, (rd (w.s.core 0).e.f 0 {}).isOpen)
      | _ => (9, false)
    load (2 ^ 36) = (1, true) ∧ load (2 ^ 36 + 129 * 2 ^ 40) = (4, false) := by decide +kernel

/-- What stops an FLOAD: its bytes are lost. -/
theorem witness_fload_lost : loadKind (lossy user) 0 [{ va := 0x400, loc := .phys 0x400, len := 64, pol := .wb, group := 0 }] = some 6 := by
  decide +kernel

/-! ### Misses, stops, tasks and graphs -/

/-- A miss of dictionary entry 0 whose 16 cycles are over at cycle 16; the entry's 48 bytes are `b`, lost or not. -/
def missing (b : BitVec 384) (lost : Bool) (now : Nat) : State :=
  let s := user.modCore 0 fun c =>
    { c with loft := memWrite c.loft ((dictOf c .user).1) (toBytes 48 b.toNat), dmiss := some { entry := emitted none 0, readyAt := 16 } }
  { s with now := now, lost := if lost then [{ at_ := .loft 0 ((dictOf (s.core 0) .user).1 / 64), bytes := BitVec.allOnes 64, kind := 6 }] else [] }

/-- R59, R73, R75, R85: a miss that comes early, and its entry with ops, of profile 4, with a reserved header bit, and lost. -/
theorem witness_miss_fill : ((missing (bundle 0x16) false 16).core 0).dmiss.isSome = true ∧
    ((after (.dictionaryMissFill 0) (missing (bundle 0x16) false 15)).core 0).dmiss.isSome = true ∧
    (slotQ ((after (.dictionaryMissFill 0) (missing (bundle 0x16) false 16)).core 0).e .s).length = 1 ∧
    stopsWith (after (.dictionaryMissFill 0) (missing 4 false 16)) 0x035 = true ∧
    stopsWith (after (.dictionaryMissFill 0) (missing (BitVec.ofNat 384 (2 ^ 31)) false 16)) 0x031 = true ∧
    stopsWith (after (.dictionaryMissFill 0) (missing (bundle 0x16) true 16)) 0x149 = true := by decide +kernel

/-- R337, R334: an aborted task's run ends at the boundary as one that starts again, unless a kill is due as well. -/
theorem witness_aborted_stop : let s := withTask (stopping (.save false) 0) fun t => { t with aborted := true }
    (s.taskOn 0).any (fun t => t.aborted && !isRetiring t) = true ∧
    (after (.stopBoundary 0) s).tasks.map (·.stat) = [.retiring .again] ∧
    (after (.stopBoundary 0) (s.modCore 0 fun c => { c with stopNext := some (.kill .record) })).tasks.map (·.stat) = [.retiring (.ends .killed)] ∧
    strongest .record .again = .record ∧ strongest .discard .record = .discard := by decide +kernel

/-- R5, R328, R395: no dispatch in a period without an edge, or once the package is to power down. -/
theorem witness_no_dispatch : let s := readyTask false
    ((after (.dispatch 0) { s with clockEdge := wr s.clockEdge 0 false }).core 1).task = none ∧
    ((after (.dispatch 0) { s with shutdown := some 0 }).core 1).task = none ∧ s.shutdown = none ∧ rd s.clockEdge 0 true = true := by decide +kernel

/-- R391: a saving task one of whose cores is offline: it is bound to no core, or is killed where it has accessed its own Loft. -/
theorem witness_repaired (own : Bool) :
    let s := withTask (moving .saving true false) fun t => { t with ownLoft := own }
    let t := after (.contextSaveComplete 0) (s.modCore 0 fun c => { c with offline := true })
    t.tasks.map (fun t => (t.stat, t.cores)) = if own then [(.retiring (.ends .killed), [0])] else [(.saved [0] false, [])] := by
  revert own; decide +kernel

/-- R337: an aborted task that has ended starts again; one that was killed has ended. -/
theorem witness_aborted_retire :
    let s (how : Leave) : State := withTask (moving (.retiring how) false false) fun t => { t with aborted := true }
    (after (.taskRetire 0) (s (.ends (.retired 3)))).tasks.map (fun t => (t.stat, t.aborted)) = [(.ready, false)] ∧
    (after (.taskRetire 0) (s (.ends .killed))).tasks.map (·.stat) = [.ended .killed] := by decide +kernel

/-- A checkpoint of one entry of 64 bytes is under way. -/
def checkpointing (back : Bool) (addr : W64) (left : Bool) : State :=
  let c : Ckpt := { src := addr, dst := 0x400, len := 64 }
  living (if back then .running else .betweenSteps) fun g =>
    { g with cken := true, rerun := back, ckptStep := some 0, ckpts := [c], ckptJob := some { back := back, left := if left then [c] else [] } }

/-- R351, R352: an entry copied, an entry that may not be read, and the step begun once none is left. -/
theorem witness_checkpoint (back : Bool) : let s (addr : W64) (left : Bool) : State :=
      if back then { checkpointing back addr left with tasks := [] } else checkpointing back addr left
    let i : Instr := if back then .stepRerun 0 else .stepStart 0
    (after i (s 0x40 true)).graphs.map (fun g => g.ckptJob.map (·.left)) = [some []] ∧
    (after i (s (BitVec.ofNat 64 (2 ^ 62)) true)).graphs.map (·.stat) ≠ (s 0x40 true).graphs.map (·.stat) ∧
    (after i (s 0x40 false)).graphs.map (fun g => (g.stat, g.ckptJob)) = [(.running, none)] := by
  revert back; decide +kernel

/-- A RUN's graph that may not be accepted, its bay's values before the RUN known. -/
theorem witness_refused_run : let g := { graph0 with stat := .assigned, desc := BitVec.ofNat 64 (2 ^ 60) }
    let r : Run := { id := 0, packet := 4, bay := 0, graph := 0, seed := 0, before := some ({ Bay.root.eff with weight := 9 }, 3) }
    let s : State := { living .assigned id with runs := [r], packets := [{ id := 4, ring := 3, words := Vector.replicate 8 0, since := 0, done := none }] }
    ((refuseGraph s g).packets.map (·.done), (refuseGraph s g).bays.map fun b => (b.eff.weight, b.phase0)) = ([some (0x10, 0xFFFF)], [(9, 3)]) ∧
    s.runAt g.run = some r ∧ g.parent = none ∧ (refuseGraph s g).runs = [] := by decide +kernel

/-- R350, R352: what a deadline handler started holds no step of another graph open. -/
theorem witness_aside : holdsStep (withTask (living .running id) fun t => { t with ofHandler := true }) 0 = false ∧
    holdsStep (living .running id) 0 = true ∧ StepOpen (living .running id) 0 graph0 := by
  refine ⟨by decide +kernel, by decide +kernel, .inl ?_⟩
  have h : ((living .running id).taskAt 0).any (fun t => t.graph == 0 && t.kind != .deadline && !t.ofHandler) = true := by decide +kernel
  obtain ⟨t, ht, h⟩ := Option.any_eq_true _ _ |>.mp h
  simp only [Bool.and_eq_true, beq_iff_eq, bne_iff_ne, Bool.not_eq_true'] at h
  exact ⟨t, List.mem_of_find?_eq_some ht, h.1.1, h.1.2, fun a => by simp [a.1] at h⟩

/-- R337, R338: a task that is to start again does not commit; the same task of a running bay would. -/
theorem witness_commit_aborted : let s := withTask (sheltered 0 true) fun t => { t with aborted := true }
    (firstUncommitted s 0).map (fun t => (t.starved, t.aborted)) = some (true, true) ∧
    (after (.detCommit 0) s).tasks.map (·.unshadowed) = [false] := by decide +kernel

/-! ### Packets, links, service and frames -/

/-- A packet of opcode 4 (BAY modify) for bay 7 under bay 0, whose image stands at 0xA000: no Loft of its own, all else inherited. -/
def modifying (parent : Nat) (weight : Nat) (bay : Nat) : State × Packet :=
  let image := toBytes 8 (parent * 2 ^ 12 + weight * 2 ^ 32 + 2 ^ 54) ++ toBytes 8 (2 ^ 16 * 8)
  let s := { user with bays := user.bays ++ [{ Bay.root with bay := 7, parent := 0, depth := 1, extents := [] }] }
  ({ s with mem := memWrite s.mem 0xA000 image },
   { id := 4, ring := 3, words := Vector.ofFn fun i => if i.val = 0 then BitVec.ofNat 64 (4 + bay * 256) else if i.val = 3 then 0xA000 else 0,
     since := 0, done := none })

/-- R317, R323: the image is taken; its weight is refused, or its parent; bay 0 takes it without its parent. -/
theorem witness_modify : let (s, p) := modifying 0 1 7
    (readImage s (pwd p 3)).any (fun w => !imageBad 0 w && !budgetBad 0 (imageVals w)) = true ∧ (s.bayAt 7).map (·.parent) = some 0 ∧
    ((modifyBay s p).bays.map fun b => b.own.weight).drop 1 = [1] ∧
    (refitAll s 0 { Bay.root with bay := 7, extents := [] } 0 [0, 1]).isSome = true ∧
    (modifyBay (modifying 0 0 7).1 (modifying 0 0 7).2).bays = (modifying 0 0 7).1.bays ∧
    reparentBad (modifying 9 1 7).1 7 9 = some 0x11 ∧
    ((modifyBay (modifying 0 1 0).1 (modifying 0 1 0).2).bays.map fun b => b.own.weight) = [1, Bay.root.own.weight] := by decide +kernel

/-- R391: a die holds eight spares; a core is retired only once they are gone. -/
theorem witness_spares : (rd user.spares 0 []).length = 8 ∧ ((after (.coreRepair 0 false) user).core 0).offline = false ∧
    (let s := { user with spares := Vector.replicate 2 [] }
     ((after (.coreRepair 0 false) s).core 0).offline = true ∧ ((after (.coreRepair 0 true) s).core 0).offline = false) := by decide +kernel

/-- R389: reports that name a task by its core, by its dirty line, by a weight stream, by having ended, or none. -/
theorem witness_named : let s := flowing true
    namedBy s { loss with tasks := [] } = [0] ∧ namedBy s { loss with reader := .scrub } = [] ∧ namedBy s { loss with core := none, tasks := [9] } = [] ∧
    namedBy s { loss with reader := .copyOrStream, core := none, access := some 0, tasks := [] } = [0] ∧
    (partOn s 0).map (·.id) = some 8 ∧ (loseStream s { loss with reader := .copyOrStream, core := none, access := some 0 }).parts.map (·.done) = [true] ∧
    namedBy (s.modCore 3 fun c => { c with l1Task := some 0 }) { loss with reader := .writeBack, core := some 3, tasks := [] } = [0] ∧
    (let r : Run := { id := 0, packet := 0, bay := 0, graph := 0, seed := 0, gone := [(5, 2, 1)] }
     goneTask { s with runs := [r] } 5 = some (0, 2, 1) ∧ namedBy { s with runs := [r] } { loss with tasks := [5] } = [0, 5]) := by
  decide +kernel

/-- R390: what a report ends: a counted access, or the op in progress of a stream. -/
theorem witness_delivered : let s := flyingAcc (.loadS 3)
    (s.taskOn 0).any (fun t => t.stat == .running && t.cores.contains 0) = true ∧
    ((loseAccess s 0 5 (fun _ => true) (fun _ => some 6) 6).core 0).e.xacc = [] ∧
    streamInUse fetching 0 0 = true ∧ ((loseFibre fetching 0 0 0x400).core 0).stop.any (fun st => st.faults.map (·.cause) == [0x0BE]) = true := by
  decide +kernel

/-- R393: a new image whose digest is right or wrong; the old one's op of core 0 is between beats, or not. -/
theorem witness_firmware : (shake256 [1] == shake256 [1]) = true ∧ (shake256 [1] == [0]) = false ∧ firmwareRuns (user.core 0).e = false ∧
    firmwareRuns { (user.core 0).e with xrun := wr (user.core 0).e.xrun 0 (some { opOf (.fnext xr) with info := { ctx := .firmware } }) } = true ∧
    ((after (.firmwareUpdate 0 [1] (shake256 [1])) user).epoch, ((after (.firmwareUpdate 0 [1] (shake256 [1])) user).core 0).image) =
      (user.epoch + 1, [1]) := by decide +kernel

/-- R394: a recalibration waits for the boundary of a core with a task; a core without one stalls at once. -/
theorem witness_recalibration : let t := after (.recalibration 0 0 24) user
    (t.core 0).stallWant = some (0, 24) ∧ (t.core 1).stallUntil = 24 ∧ (user.core 0).task.isSome = true ∧ (user.core 1).task = none ∧
    betweenBeats (t.core 0).e = false ∧ ((startStall 0 t).core 0).stallUntil = 25 ∧ betweenBeats (beating.core 0).e = true := by decide +kernel

/-- R395: one step down for the temperature, one up, and none of two; the package powers down once no core holds a task. -/
theorem witness_clock : rd (after (.clockStep 0 .mhz1050 0x171) user).clock 0 .full = .mhz1050 ∧
    rd (after (.clockStep 0 .full 0) (after (.clockStep 0 .mhz1050 0x171) user)).clock 0 .mhz600 = .full ∧
    rd (after (.clockStep 0 .mhz600 0x171) user).clock 0 .mhz600 = .full ∧ (after (.thermalShutdown 1) user).shutdown = some 1 ∧
    (user.core 0).task.isSome = true ∧ (State.reset.cores.all fun c => c.task.isNone) = true ∧
    (powerOff { State.reset with shutdown := some 1 }).powered = Vector.replicate 2 false := by decide +kernel

/-- R62, R139, R178: ops of the S, V and M slots answer next states; R201, R217: what ops of the X slots store to. -/
theorem witness_slot_frames : (encodeSlot .m (.mzero mUsed)).isSome = true ∧ (atM user).cur.ctx = .user ∧ (atM user).cur.info.ctx = .user ∧
    (match exec (.mzero mUsed) (atM user) with | .next _ => true | _ => false) = true ∧
    storesTo (xUser .x0 2) (.vst (xm 2 0)) = some [(0x400, 512)] ∧ storesTo (xUser .x0 1) (.vld (xm 2 0)) = some [] ∧
    (storesTo (xUser .x0 4) (.vsts (xm 2 0))).isSome = true ∧ storesTo (xUser .x0 0x38) (.fsave { xr with b := 2 }) = some [(0x400, 64)] := by
  decide +kernel

/-- R200, R273: stores as they are performed: no older one of the slot is to be performed before it, and the L2 has no older copy. -/
theorem witness_store_frame : let s := flyingAcc .store
    shadowTask s (s.core 0).task = none ∧ (s.core 0).e.xacc.map (·.id) = [5] ∧ (s.core 0).e.xacc.all (fun a => a.info.ctx == .user) = true ∧
    (s.core 0).l1 = [] ∧ (s.core 0).wbuf = [] ∧ (l2Sector s 16).isNone = true ∧ (l2Sector s 17).isNone = true := by decide +kernel

/-- The L2's copy of a byte that has not been written behind it. -/
theorem witness_current (x : Nat) (h : x < 0x800) : current (flyingAcc .store) x := by
  intro e he
  have : ∀ n, n < 0x20 → (l2Sector (flyingAcc .store) n).isNone = true := by decide +kernel
  rw [show l2Sector (flyingAcc .store) (x / 64) = none by simpa using this (x / 64) (by omega)] at he
  exact absurd he (by simp)

/-- R162: operands of the single rounding; R28: 1, 2 and 3 of fp32. -/
theorem witness_rounding : decodeF fp32 0x3F800000 = .fin false (2 ^ 23) (-23) ∧ decodeF fp32 0xC0400000 = .fin true (3 * 2 ^ 22) (-22) ∧
    isNan (decodeF fp32 0x7FC00000) = true ∧ divRound fp32 .rne (decodeF fp32 0x3F800000) (decodeF fp32 0x40400000) = 0x3EAAAAAB ∧
    sqrtRound fp32 .rdn (decodeF fp32 0x40000000) = 0x3FB504F3 ∧ sqrtRound fp32 .rup (decodeF fp32 0x40000000) = 0x3FB504F4 := by decide +kernel

/-- R156: reserved functions and SAT with MAX raise reserved encoding. -/
theorem witness_scan_refuses : stopsWith (after (.vscan { vInt with b := 0, c := 3 }) (atSlot .v0 0x1E)) 0x009 = true ∧
    stopsWith (after (.vred { vInt with b := 0, c := 2, sat := 1 }) (atSlot .v1 0x1F)) 0x011 = true ∧
    stopsWith (after (.vred { vInt with b := 0, c := 2 }) (atSlot .v1 0x1F)) 0x011 = false := by decide +kernel

end Sys2Proof.Tests
end

section
/-! O33: the moves of the schedule, one lemma per kind of move, and the two ways of a generator context. -/

namespace Sys2Proof.Machine

/-! ### Moves -/

/-- A step runs the next move of the schedule. -/
theorem step_cons {s : State} {m : Move} {r : List Move} (h : s.sched = m :: r) : step s = runMove exec m { s with sched := r } := by
  rw [step, stepWith, h]

/-- With no move left, a step lays out those of a new cycle. -/
theorem step_nil {s : State} (h : s.sched = []) : step s = .next { s with sched := plan s } := by
  rw [step, stepWith, h]

theorem runMove_gen {s : State} {n : Nat} (x : Ctx) (hp : rd s.powered (n / 160) false = true) (he : rd s.clockEdge (n / 160) true = true) :
    runMove exec (.gen n x) s = runGen exec n x s := by
  simp [runMove, hp, he]

theorem runMove_slot {s : State} {n : Nat} (sl : Slot) (hp : rd s.powered (n / 160) false = true) (he : rd s.clockEdge (n / 160) true = true) :
    runMove exec (.slot n sl) s = runSlot exec n sl s := by
  simp [runMove, hp, he]

/-- A die that has powered down stops the move of a context. -/
theorem runMove_gen_off {s : State} {n : Nat} (x : Ctx) (hp : rd s.powered (n / 160) false = false) :
    runMove exec (.gen n x) s = .fault .poweredDown := by
  simp [runMove, hp]

/-- Without an edge of its clock neither a context nor a slot moves. -/
theorem runMove_held {s : State} {n : Nat} {m : Move} (hm : (∃ x, m = .gen n x) ∨ ∃ sl, m = .slot n sl)
    (hp : rd s.powered (n / 160) false = true) (he : rd s.clockEdge (n / 160) true = false) : runMove exec m s = .next s := by
  obtain ⟨x, rfl⟩ | ⟨sl, rfl⟩ := hm <;> simp [runMove, hp, he]

/-! ### Generator contexts -/

/-- The state in which a context of a core executes. -/
def executing (s : State) (n : Nat) (x : Ctx) : State := { s with cur := { core := n, ctx := x } }

/-- The state in which the word fetched is the instruction. -/
def fetched (s : State) (w : Nat) : State := { s with cur := { s.cur with bits := w64 w } }

/-- The executing context is there to try an instruction: its core runs it, it waits for nothing and is past its bubbles, and no read
of it may still fault (R103, R106). -/
def GenTries (s : State) : Prop :=
  coreRuns s s.cur.core s.cur.ctx = true ∧ (curG s).wait = none ∧ (curG s).readyAt ≤ s.now ∧ ∀ l ∈ (curG s).loads, l.firm = false

/-- An issue of the firmware context counts towards its share (R47). -/
def counted (n : Nat) (x : Ctx) (t u : State) : State :=
  if x = .firmware ∧ hasIssued t u n x = true then u.modCore n fun c => { c with fwUsed := c.fwUsed + 1 } else u

theorem counted_user (n : Nat) (t u : State) : counted n .user t u = u := by simp [counted]

theorem tryGenIssue_held {s : State} {n : Nat} {x : Ctx} (h : ¬GenTries (executing s n x)) : tryGenIssue exec n x s = none := by
  refine if_pos ?_
  by_contra hc
  simp only [Bool.or_eq_true, not_or, Bool.not_eq_true, Bool.not_eq_false', Option.isSome_eq_false_iff, Option.isNone_iff_eq_none,
    decide_eq_false_iff_not, not_lt, List.any_eq_false] at hc
  obtain ⟨⟨⟨hr, hw⟩, ht⟩, hl⟩ := hc
  exact h ⟨hr, hw, ht, hl⟩

/-- A context that tries an instruction fetches at its program counter. -/
theorem tryGenIssue_tries {s : State} {n : Nat} {x : Ctx} (h : GenTries (executing s n x)) :
    tryGenIssue exec n x s =
      match fetch (executing s n x) n (curG (executing s n x)).pc with
      | (t, .inr e) => some (t, .next (genAErr t e))
      | (t, .inl w) =>
        match decodeGen w with
        | .bad e => some (fetched t w, .next (decodeFault (fetched t w) e))
        | .ok i => some (fetched t w, exec i (fetched t w)) := by
  obtain ⟨hr, hw, ht, hl⟩ := h
  refine (if_neg ?_).trans rfl
  simp only [Bool.or_eq_true, not_or, Bool.not_eq_true, Bool.not_eq_false', Option.isSome_eq_false_iff, Option.isNone_iff_eq_none,
    decide_eq_false_iff_not, not_lt, List.any_eq_false]
  exact ⟨⟨⟨hr, hw⟩, ht⟩, hl⟩

theorem runGen_held {s : State} {n : Nat} {x : Ctx} (h : ¬GenTries (executing s n x)) :
    runGen exec n x s = .next (executing s n x) := by
  rw [runGen, tryGenIssue_held h]; rfl

/-- What a move of a context answers, by what its try answers. -/
theorem runGen_of_next {s t u : State} {n : Nat} {x : Ctx} (h : tryGenIssue exec n x s = some (t, .next u)) :
    runGen exec n x s = .next (counted n x t u) := by
  simp [runGen, h, counted]

theorem runGen_of_stop {s t : State} {o : Out} {n : Nat} {x : Ctx} (h : tryGenIssue exec n x s = some (t, o)) (ho : ∀ u, o ≠ .next u) :
    runGen exec n x s = o := by
  cases o with
  | next u => exact absurd rfl (ho u)
  | fault f => simp [runGen, h]
  | refused f => simp [runGen, h]

/-- A fetch that fails raises its fault. -/
theorem runGen_fetch_fails {s t : State} {n : Nat} {x : Ctx} {e : AErr} (h : GenTries (executing s n x))
    (hf : fetch (executing s n x) n (curG (executing s n x)).pc = (t, .inr e)) :
    runGen exec n x s = .next (counted n x t (genAErr t e)) := by
  apply runGen_of_next
  rw [tryGenIssue_tries h, hf]

/-- A word that is no instruction raises the fault of what it is (R95). -/
theorem runGen_undecoded {s t : State} {n w : Nat} {x : Ctx} {e : DecodeError} (h : GenTries (executing s n x))
    (hf : fetch (executing s n x) n (curG (executing s n x)).pc = (t, .inl w)) (hd : decodeGen w = .bad e) :
    runGen exec n x s = .next (counted n x (fetched t w) (decodeFault (fetched t w) e)) := by
  apply runGen_of_next
  rw [tryGenIssue_tries h, hf]
  simp only [hd]

/-- A word that is an instruction is tried. -/
theorem tryGenIssue_decoded {s t : State} {n w : Nat} {x : Ctx} {i : Instr} (h : GenTries (executing s n x))
    (hf : fetch (executing s n x) n (curG (executing s n x)).pc = (t, .inl w)) (hd : decodeGen w = .ok i) :
    tryGenIssue exec n x s = some (fetched t w, exec i (fetched t w)) := by
  rw [tryGenIssue_tries h, hf]
  simp only [hd]

/-- The user context answers what its instruction does. -/
theorem runGen_user {s t : State} {o : Out} {n : Nat} (h : tryGenIssue exec n .user s = some (t, o)) : runGen exec n .user s = o := by
  cases o with
  | next u => rw [runGen_of_next h, counted_user]
  | fault f => exact runGen_of_stop h (by simp)
  | refused f => exact runGen_of_stop h (by simp)

/-! ### Slots -/

theorem runSlot_empty {s : State} {n : Nat} {sl : Slot} (h : headOp s n sl = none) : runSlot exec n sl s = .next s := by
  rw [runSlot, h]

theorem runSlot_decoded {s : State} {n : Nat} {sl : Slot} {o : QOp} {i : Instr} (h : headOp s n sl = some o)
    (hd : decodeSlot sl o.bits.toNat = some i) : runSlot exec n sl s = exec i (headCur s n sl o) := by
  rw [runSlot, h]
  simp only [hd]

/-- A reserved opcode point whose unit is free and whose tags are clear faults (R83, R101). -/
theorem runSlot_reserved {s : State} {n : Nat} {sl : Slot} {o : QOp} (h : headOp s n sl = some o)
    (hd : decodeSlot sl o.bits.toNat = none) (hr : streamRuns (headCur s n sl o) n = true) (hu : unitReady (headCur s n sl o) n sl = true)
    (ht : ((headCur s n sl o).core n).e.tags &&& fieldTagw sl o.bits = 0) :
    runSlot exec n sl s = .next (slotFault (headCur s n sl o) (class0 sl 0) 0 0 0) := by
  rw [runSlot, h]
  simp only [hd]
  rw [if_pos (by simp [hr, hu, ht])]

/-! ### The end of a cycle -/

/-- Powering down changes the power of the dies and what is reported of it alone. -/
theorem powerOff_eq (s : State) : ∃ sd pw st, powerOff s = { s with shutdown := sd, powered := pw, sent := st } := by
  unfold powerOff
  split
  · exact ⟨_, _, _, rfl⟩
  · split
    · exact ⟨_, _, _, rfl⟩
    · exact ⟨_, _, _, rfl⟩

/-- A range written anew changes the record of lost bytes alone. -/
theorem heal_eq (s : State) (mk : Nat → Granule) (a len : Nat) : ∃ l, heal s mk a len = { s with lost := l } := by
  unfold heal
  split
  · exact ⟨_, rfl⟩
  · exact ⟨_, rfl⟩

/-- So does a sequence of changes that each do. -/
theorem foldl_lost {α : Type} {f : State → α → State} (hf : ∀ s x, ∃ l, f s x = { s with lost := l }) (xs : List α) :
    ∀ s, ∃ l, xs.foldl f s = { s with lost := l } := by
  induction xs with
  | nil => exact fun s => ⟨s.lost, rfl⟩
  | cons x xs ih =>
    intro s
    obtain ⟨l, hl⟩ := hf s x
    obtain ⟨m, hm⟩ := ih { s with lost := l }
    exact ⟨m, by rw [List.foldl_cons, hl, hm]⟩

theorem healStores_eq (s : State) (n : Nat) : ∃ l, healStores s n = { s with lost := l } := by
  unfold healStores
  split
  · exact ⟨_, rfl⟩
  · exact foldl_lost (fun s x => heal_eq s _ _ _) _ _

theorem rd_ofFn {α : Type} {n : Nat} (f : Fin n → α) (i : Nat) (d : α) (h : i < n) : rd (Vector.ofFn f) i d = f ⟨i, h⟩ := by
  rw [rd_eq _ _ _ h, Vector.getElem_ofFn]

/-- The end of a period: time goes on by one, memory and the schedule stay, and a core whose clock has no edge stands still (R5, R395). -/
theorem tick_frame (s : State) : (tick s).now = s.now + 1 ∧ (tick s).mem = s.mem ∧ (tick s).sched = s.sched ∧
    ∀ n, n < 320 → rd s.clockEdge (n / 160) true = false → (tick s).core n = holdCore (s.core n) 1 := by
  obtain ⟨l, hl⟩ : ∃ l, (if s.lost.isEmpty then s else (List.range 320).foldl healStores s) = { s with lost := l } := by
    split
    · exact ⟨_, rfl⟩
    · exact foldl_lost healStores_eq _ _
  unfold tick
  rw [hl]
  refine ⟨rfl, rfl, rfl, fun n hn he => ?_⟩
  refine (rd_ofFn _ n _ hn).trans ?_
  exact if_neg (by simp [he])

/-- Powering down first changes none of that. -/
theorem tick_powerOff_frame (s : State) : (tick (powerOff s)).now = s.now + 1 ∧ (tick (powerOff s)).mem = s.mem ∧
    (tick (powerOff s)).sched = s.sched ∧
    ∀ n, n < 320 → rd s.clockEdge (n / 160) true = false → (tick (powerOff s)).core n = holdCore (s.core n) 1 := by
  obtain ⟨sd, pw, st, h⟩ := powerOff_eq s
  rw [h]
  exact tick_frame { s with shutdown := sd, powered := pw, sent := st }

end Sys2Proof.Machine

open Sys2Proof Sys2Proof.Machine Sys2Proof.Claims

/-- Settles O33, by the meaning of each kind of move. -/
theorem stepRunsDecoded : Obligations.StepRunsDecoded := by
  unfold Obligations.StepRunsDecoded
  refine ⟨fun s n x r hs hp he => ?gen, fun s n sl r hs hp he => ?slot, fun s i r hs => step_cons hs, fun s r hs => ?tick,
    fun s => step_nil, fun s n x r hs hp => ?off, fun s n m r hs hm hp he => ?held⟩
  case gen =>
    intro counted s1 ready
    have hstep : step s = runGen exec n x { s with sched := r } := (step_cons hs).trans (runMove_gen x hp he)
    refine ⟨fun h => hstep.trans (runGen_held h), fun h s2 e hf => hstep.trans (runGen_fetch_fails h hf), fun h s2 w hf => ?_⟩
    intro s3
    refine ⟨fun i hd => ?_, fun e hd => ?_⟩
    · have ht := tryGenIssue_decoded (s := { s with sched := r }) h hf hd
      refine ⟨fun hx => ?_, fun t hn => ?_, fun hn => ?_⟩
      · subst hx
        exact hstep.trans (runGen_user ht)
      · exact hstep.trans (runGen_of_next (ht.trans (congrArg (fun o => some (_, o)) hn)))
      · exact hstep.trans (runGen_of_stop ht hn)
    · refine hstep.trans ((runGen_undecoded (s := { s with sched := r }) h hf hd).trans ?_)
      cases e <;> rfl
  case slot =>
    intro s1
    have hstep : step s = runSlot exec n sl s1 := (step_cons hs).trans (runMove_slot sl hp he)
    refine ⟨fun h => hstep.trans (runSlot_empty h), fun o h => ⟨fun i hd => hstep.trans (runSlot_decoded h hd), fun hd hr hu ht => ?_⟩⟩
    exact hstep.trans (runSlot_reserved h hd hr hu ht)
  case tick => exact ⟨_, step_cons hs, tick_powerOff_frame { s with sched := r }⟩
  case off => exact (step_cons hs).trans (runMove_gen_off x hp)
  case held => exact (step_cons hs).trans (runMove_held hm hp he)
end

section
/-! O24: two tasks with one number, of which only the first is on a core. -/

namespace Sys2Proof.Machine

/-- A task on core 0 that is being saved. -/
def savingTask : Task := { id := 0, bay := 0, graph := 0, run := 0, kind := .graph, index := 0, step := 0, stat := .saving, cores := [0] }

/-- Its core, which stands still at the boundary. -/
def stillCore : Core := { task := some 0, stop := some { b := 0, why := .save false, faults := [], reached := true } }

/-- A bay with one save slot, the task on core 0, and another task of the same number that was last on core 1. -/
def twins : State := { State.reset.setCore 0 stillCore with
  bays := [{ Bay.root with eff := { savecnt := 1 } }]
  tasks := [savingTask, { savingTask with stat := .ready, cores := [1] }] }

/-- The cores of the tasks in the state that an outcome answers. -/
def coresAfter : Out → List (List Nat)
  | .next s => s.tasks.map (·.cores)
  | _ => []

theorem core_twins : twins.core 0 = stillCore := core_setCore_same State.reset 0 stillCore (by decide)

theorem taskOn_twins : twins.taskOn 0 = some savingTask := by
  rw [State.taskOn, core_twins]; rfl

/-- The save binds the task on the core to it, and leaves the other one's cores. -/
theorem coresAfter_save : coresAfter (exec (.contextSaveComplete 0) twins) = [[0], [1]] := by decide +kernel

theorem freeSlots_twins : freeSlots twins 0 1 0 = some [0] := by decide +kernel

end Sys2Proof.Machine

open Sys2Proof Sys2Proof.Machine Sys2Proof.Claims

/-- Refutes O24: the clause of saving gives every task of the saved one's number its cores, where the save binds each task of that number
to its own; no hypothesis says that a number names one task. -/
theorem not_schedulingEvents : ¬ Obligations.SchedulingEvents := by
  unfold Obligations.SchedulingEvents
  intro ⟨_, _, _, hsave, _⟩
  have hstill : ∀ n ∈ savingTask.cores, settled (twins.core n) = true ∧ (twins.core n).stopNext = none ∧
      ∃ st w, (twins.core n).stop = some st ∧ st.reached = true ∧ st.why = .save w := by
    intro n hn
    obtain rfl := List.mem_singleton.1 hn
    rw [core_twins]
    exact ⟨by decide +kernel, rfl, _, _, rfl, rfl, rfl⟩
  have h := (hsave twins 0 savingTask [0] taskOn_twins rfl rfl hstill freeSlots_twins).2 (by intro ⟨h, _⟩; cases h)
  have hcores := congrArg coresAfter h
  rw [coresAfter_save] at hcores
  revert hcores
  decide +kernel
end

section
/-! O58, barriers: the background work of REL, BARR, GBARR and BEXP, and the phases of Ridge barriers with their trees. -/

namespace Sys2Proof.Machine

/-! ### REL (R220) -/

section
variable {s : State} {core id : Nat} {b : Bg} {ps : List Piece} {sp : List (W64 × W64)}

/-- A REL whose increment has come back is over. -/
theorem execRelIncrement_away (hf : (s.core core).e.bg.find? (fun x => x.id = id) = some b) (hk : b.kind = .rel ps sp) (ha : b.away = true) :
    execRelIncrement core id s = .next (relDone s core id) := by
  unfold execRelIncrement
  simp only [hf, hk, ha, if_true]

/-- The stores and accesses that a REL performs before it acts: the earlier ones of its slot. -/
def relOlder (s : State) (core : Nat) (b : Bg) : List XAcc := (s.core core).e.xacc.filter fun a => some a.slot = b.slot ∧ a.id < b.id

/-- No earlier REL of its slot is under way, it issued before this cycle, and what it performs has room. -/
structure RelMay (s : State) (core : Nat) (b : Bg) (ps : List Piece) : Prop where
  here : b.away = false
  first : ∀ x ∈ (s.core core).e.bg, x.slot = b.slot → x.id < b.id → ∀ ps sp, x.kind ≠ .rel ps sp
  later : b.since < s.now
  room : ∀ a ∈ relOlder s core b, a.done = false → accRoom s core a = true
  amo : amoRoom s core 0 ps = true

/-- The state in which such a REL has performed them. -/
def relPerformed (s : State) (core : Nat) (b : Bg) : State := (relOlder s core b).foldl (fun s a => performAcc s core a) s

/-- The state in which the stores of its colours and the lines it has bound are written back. -/
def relCleaned (s : State) (core : Nat) (b : Bg) (sp : List (W64 × W64)) : State :=
  toScope b.sys (cleanColours (treatSpans (relPerformed s core b) core true sp) core b.cols)

/-- The increment: refused or lost, it ends with its fault; it leaves for another package; or it is made. -/
def relIncrements (t : State) (core id : Nat) (b : Bg) (ps : List Piece) : State :=
  let va := (ps.head?.map (·.va)).getD 0
  if ps.any fun p => pieceDenied t p true true then replyFault (relDone t core id) core b.ctx 0x0A4 va
  else if (amoLost t core ps).isSome then replyFault (relDone t core id) core b.ctx 0x0A6 va
  else if (shadowTask t (t.core core).task).isNone && (ps.findSome? (remoteOf t)).isSome then
    (amoPerform t core 0 true va ps 1 0).1.modE core fun e =>
      { e with bg := e.bg.map fun x => if x.id = id then { x with away := true } else x }
  else (amoPerform (relDone t core id) core 0 true va ps 1 0).1

/-- A REL that may go on performs the earlier accesses of its slot, and makes its increment once no store of its colours is owed. -/
theorem execRelIncrement_may (hf : (s.core core).e.bg.find? (fun x => x.id = id) = some b) (hk : b.kind = .rel ps sp) (hm : RelMay s core b ps) :
    execRelIncrement core id s = .next (if storesDone (relPerformed s core b) core b.cols b.since then
      relIncrements (relCleaned s core b sp) core id b ps else relPerformed s core b) := by
  unfold execRelIncrement
  simp only [hf, hk, hm.here]
  rw [if_neg (by simp), if_neg, if_neg]
  · cases hd : storesDone (relPerformed s core b) core b.cols b.since
    · exact if_pos (congrArg not hd)
    · refine (if_neg (ne_true_of_eq_false (congrArg not hd))).trans ?_
      unfold relIncrements
      simp only [apply_ite Host.Outcome.next]
      rfl
  · simpa [hm.amo, relOlder] using hm.room
  · simp only [Bool.or_eq_true, decide_eq_true_eq, List.any_eq_true, Bool.and_eq_true, beq_iff_eq, not_or, not_exists, not_and, Nat.not_le]
    refine ⟨fun x hx h hr => ?_, hm.later⟩
    have := hm.first x hx h.1 h.2
    cases hxk : x.kind <;> simp_all
end

/-! ### Arrivals and expectations (R223 to R225, R377) -/

/-- No older work of an arrival's source is for the same barrier. -/
theorem bgBehind_arrive {e : Engine} {b : Bg} {n : Nat} {g : Option Ctx} (hk : b.kind = .arrive n g)
    (h : ∀ x ∈ e.bg, x.id < b.id → x.slot = b.slot → (∀ m, x.kind = .arrive m g → m ≠ n) ∧ ∀ v, x.kind ≠ .expect n v) :
    bgBehind e b = false := by
  simp only [bgBehind, List.any_eq_false, Bool.and_eq_true, decide_eq_true_eq, beq_iff_eq, hk, not_and]
  intro x hx ⟨hid, hs, hg⟩
  obtain ⟨ha, he⟩ := h x hx hid hs
  cases hxk : x.kind with
  | rel ps sp => simp [bgBarrier]
  | arrive m h =>
    rw [hxk] at hg
    obtain rfl : h = g := by simpa using hg
    simpa [bgBarrier] using ha m hxk
  | expect m v =>
    have : m ≠ n := fun hm => he v (hm ▸ hxk)
    simpa [bgBarrier] using this

/-- No older work of an expectation's slot is for the same barrier. -/
theorem bgBehind_expect {e : Engine} {b : Bg} {n : Nat} {v : Int} (hk : b.kind = .expect n v)
    (h : ∀ x ∈ e.bg, x.id < b.id → x.slot = b.slot → (∀ w m, x.kind = .expect m w → m ≠ n) ∧ ∀ g m, x.kind = .arrive m g → m ≠ n) :
    bgBehind e b = false := by
  simp only [bgBehind, List.any_eq_false, Bool.and_eq_true, decide_eq_true_eq, beq_iff_eq, hk, not_and]
  intro x hx ⟨hid, hs, _⟩
  obtain ⟨he, ha⟩ := h x hx hid hs
  cases hxk : x.kind with
  | rel ps sp => simp [bgBarrier]
  | arrive m g => simpa [bgBarrier] using ha g m hxk
  | expect m w => simpa [bgBarrier] using he w m hxk

/-- An arrival is counted, and joins the phase in progress. -/
theorem arriveAt_joins {b : Barrier} {c : Option (Nat × Nat)} (ha : b.arrived < b.target) (hc : b.closed = false) :
    arriveAt b c = some ({ b with arrived := b.arrived + 1, children := b.children ++ c.toList }, b.phases) :=
  if_pos ⟨ha, by simp [hc]⟩

/-- One that finds the phase complete, or closed, is held for the next. -/
theorem arriveAt_held {b : Barrier} {c : Option (Nat × Nat)} (hj : ¬(b.arrived < b.target ∧ b.closed = false)) (hh : b.held < b.target) :
    arriveAt b c = some ({ b with held := b.held + 1, heldChildren := b.heldChildren ++ c.toList }, b.phases + 1) := by
  refine (if_neg fun h => hj ⟨h.1, by simpa using h.2⟩).trans (if_neg ?_)
  omega

/-- One beyond the target is refused. -/
theorem arriveAt_refused {b : Barrier} {c : Option (Nat × Nat)} (hj : ¬(b.arrived < b.target ∧ b.closed = false)) (hh : b.target ≤ b.held) :
    arriveAt b c = none := by
  refine (if_neg fun h => hj ⟨h.1, by simpa using h.2⟩).trans (if_pos ?_)
  omega

/-- PEND takes an addition whose sum stays in the signed 32-bit range. -/
theorem addPend_fits {b : Barrier} {v : Int} (h : -(2 ^ 31 : Int) ≤ b.pend + v ∧ b.pend + v < 2 ^ 31) :
    addPend b v = some { b with pend := b.pend + v } := if_pos h

theorem addPend_out {b : Barrier} {v : Int} (h : ¬(-(2 ^ 31 : Int) ≤ b.pend + v ∧ b.pend + v < 2 ^ 31)) : addPend b v = none := if_neg h

/-- The state in which an arrival reaches its barrier: the stores of its colours are performed, and the work and its count are gone. -/
def arriving (s : State) (core id n : Nat) (b : Bg) (g : Option Ctx) : State :=
  let t := dropBg (toScope ((s.barrier n).scope == 4) (cleanColours s core b.cols)) core id
  if g.isNone then releaseS t core else t

/-- The phase that an arrival joined is kept by its core: for BWAIT of the engine, or for GBWAIT of the context that arrived. -/
def keepsPhase (t : State) (core n k : Nat) (g : Option Ctx) : State :=
  match g with
  | none => t.modE core fun e => { e with barrec := some (n, k) }
  | some x => t.modG core x fun c => { c with barrec := some (n, k) }

section
variable {s : State} {core id n : Nat} {b : Bg}

theorem execBarrierArrival_due {g : Option Ctx} (hf : (s.core core).e.bg.find? (fun x => x.id = id) = some b) (hk : b.kind = .arrive n g)
    (hb : bgBehind (s.core core).e b = false) (hd : storesDone s core b.cols b.since = true) :
    execBarrierArrival core id s = match arriveAt ((arriving s core id n b g).barrier n) none with
      | none => .next (barrierFault (arriving s core id n b g) core (g.getD b.ctx) 0x101)
      | some (b', k) => .next (keepsPhase ((arriving s core id n b g).modBarrier n fun _ => b') core n k g) := by
  unfold execBarrierArrival
  simp only [hf, hk, hb, hd] <;> rfl

theorem execBarrierExpectationArrival_due {v : Int} (hf : (s.core core).e.bg.find? (fun x => x.id = id) = some b) (hk : b.kind = .expect n v)
    (hb : bgBehind (s.core core).e b = false) (hd : b.since < s.now) :
    execBarrierExpectationArrival core id s = match addPend ((relDone s core id).barrier n) v with
      | none => .next (barrierFault (relDone s core id) core b.ctx 0x100)
      | some b' => .next ((relDone s core id).modBarrier n fun _ => b') := by
  unfold execBarrierExpectationArrival
  simp only [hf, hk, hb]
  exact if_neg (by simpa using hd)
end

/-! ### Phases and trees (R223, R378) -/

/-- The condition of a phase, as the rule states it. -/
theorem phaseDue_iff (b : Barrier) : phaseDue b = true ↔ b.target ≠ 0 ∧ b.arrived = b.target ∧ b.pend = 0 ∧ b.closed = false := by
  simp [phaseDue, and_assoc]

theorem regs_modBarrier (s : State) (n : Nat) (f : Barrier → Barrier) : (s.modBarrier n f).regs = s.regs := rfl

theorem regs_sendSync (s : State) (pkg : Nat) (op : RemoteOp) : (sendSync s pkg op).regs = s.regs := by
  unfold sendSync
  split <;> rfl

/-- A completion reaches a child: here it is granted, elsewhere a message leaves. -/
def tellChild (self : Nat) (t : State) (c : Nat × Nat) : State :=
  if c.1 = self then t.modBarrier c.2 fun x => { x with granted := true } else sendSync t c.1 (.treeCompletion c.2)

theorem regs_tellChild (self : Nat) (t : State) (c : Nat × Nat) : (tellChild self t c).regs = t.regs := by
  unfold tellChild
  split
  · exact regs_modBarrier ..
  · exact regs_sendSync ..

/-- The package's own number is the same for every child told. -/
theorem foldl_tellChild (cs : List (Nat × Nat)) (t : State) :
    cs.foldl (fun s c => tellChild s.regs.plkSelf.toNat s c) t = cs.foldl (tellChild t.regs.plkSelf.toNat) t := by
  induction cs generalizing t with
  | nil => rfl
  | cons c cs ih => rw [List.foldl_cons, List.foldl_cons, ih, regs_tellChild]

theorem completePhase_eq (s : State) (n : Nat) : completePhase s n =
    (s.barrier n).children.foldl (tellChild s.regs.plkSelf.toNat) (s.modBarrier n fun _ => nextPhase s.now (s.barrier n)) :=
  foldl_tellChild (s.barrier n).children (s.modBarrier n (nextPhase s.now))

theorem execBarrierPhaseComplete_due {s : State} {n : Nat} (hd : phaseDue (s.barrier n) = true) (hp : parentOf s n = none) :
    execBarrierPhaseComplete n s = .next (completePhase s n) :=
  if_pos (by simp [hd, hp])

theorem execBarrierPhaseComplete_held {s : State} {n : Nat} (h : ¬phaseDue (s.barrier n) = true ∨ parentOf s n ≠ none) :
    execBarrierPhaseComplete n s = .next s :=
  if_neg (by
    simp only [Bool.and_eq_true, Option.isNone_iff_eq_none]
    exact fun hc => h.elim (fun hd => hd hc.1) (fun hp => hp hc.2))

/-- A child whose phase is due closes, and sends one arrival to its parent. -/
theorem execBarrierChildClose_due {s : State} {n pkg p : Nat} (hd : phaseDue (s.barrier n) = true) (hp : parentOf s n = some (pkg, p)) :
    let t := s.modBarrier n fun b => { b with closed := true }
    execBarrierChildClose n s = if pkg = s.regs.plkSelf.toNat then
        match arriveAt (t.barrier p) (some (s.regs.plkSelf.toNat, n)) with
        | none => .next t
        | some (b, _) => .next (t.modBarrier p fun _ => b)
      else .next (sendSync t pkg (.childArrival p n)) := by
  unfold execBarrierChildClose
  simp only [hd, hp, if_true] <;> rfl

theorem execTreeCompletionArrival_closed {s : State} {n : Nat} (hc : (s.barrier n).closed = true)
    (h : (s.barrier n).granted = true ∨ ∃ pkg p, parentOf s n = some (pkg, p) ∧ pkg ≠ s.regs.plkSelf.toNat) :
    execTreeCompletionArrival n s = .next (completePhase s n) := by
  refine if_pos ?_
  obtain hg | ⟨pkg, p, hp, hne⟩ := h
  · simp [hc, hg]
  · simp [hc, hp, hne]

theorem execTreeCompletionArrival_open {s : State} {n : Nat} (hc : (s.barrier n).closed = false) :
    execTreeCompletionArrival n s = .next s :=
  if_neg (by simp [hc])

/-- A barrier changed by a function is changed to its value there. -/
theorem modBarrier_value (s : State) (n : Nat) (f : Barrier → Barrier) : s.modBarrier n f = s.modBarrier n fun _ => f (s.barrier n) := rfl

end Sys2Proof.Machine

open Sys2Proof Sys2Proof.Machine Sys2Proof.Claims

/-- R220, R224, R225: the background work of REL, BARR, GBARR and BEXP, and the phases. -/
theorem barrierEvents : BarrierEvents := by
  unfold BarrierEvents
  refine ⟨fun s core id b hc hf => ?work, fun s n => ?phases⟩
  case work =>
    intro e dropped oneLess faults clear first
    refine ⟨fun ps sp hk ha => execRelIncrement_away hf hk ha, fun ps sp hk ha hclear hs => ?rel, fun n g hk hfirst hd => ?arrive,
      fun n v hk hfirst hs => ?expect⟩
    case rel =>
      intro older hroom hamo s1
      have hgo := execRelIncrement_may hf hk ⟨ha, hclear, hs, hroom, hamo⟩
      refine ⟨fun hd => hgo.trans (congrArg _ (if_neg (ne_true_of_eq_false hd))), fun hd => ?_⟩
      replace hgo := hgo.trans (congrArg _ (if_pos hd))
      intro s2 denied lost far va
      have hva : (ps.head?.map (·.va)).getD 0 = va := by cases ps <;> rfl
      unfold relIncrements at hgo
      simp only [hva] at hgo
      refine ⟨fun hden => hgo.trans (congrArg _ (if_pos hden)), fun hden hlost => ?_, fun hden hlost hfar => ?_, fun hden hlost hfar => ?_⟩
      all_goals refine hgo.trans (congrArg _ ((if_neg hden).trans ?_))
      · exact if_pos hlost
      · exact (if_neg hlost).trans (if_pos (by rw [Bool.and_eq_true, Option.isNone_iff_eq_none]; exact hfar))
      · exact (if_neg hlost).trans (if_neg (by rw [Bool.and_eq_true, Option.isNone_iff_eq_none]; exact hfar))
    case arrive =>
      intro s1 s2 x goesOn joins
      have hb := bgBehind_arrive hk fun y hy hid hsl =>
        ⟨fun m hm he => (hfirst y hy hid hsl).1 g g m hm hk rfl he, fun v hm => (hfirst y hy hid hsl).2.1 v g hm hk⟩
      have hgo := execBarrierArrival_due hf hk hb hd
      have hs2 : arriving s core id n b g = s2 := by cases g <;> rfl
      have hnext (x' : Barrier) (k : Nat) : .next (keepsPhase (s2.modBarrier n fun _ => x') core n k g) = goesOn x' k := by cases g <;> rfl
      rw [hs2] at hgo
      refine ⟨fun hj => ?_, fun hj hh => ?_, fun hj hh => ?_⟩
      · rw [arriveAt_joins hj.1 hj.2, Option.toList_none, List.append_nil] at hgo
        exact hgo.trans (hnext _ _)
      · rw [arriveAt_held hj hh, Option.toList_none, List.append_nil] at hgo
        exact hgo.trans (hnext _ _)
      · rw [arriveAt_refused hj hh] at hgo
        exact hgo
    case expect =>
      intro s1 sum fits
      have hb := bgBehind_expect hk fun y hy hid hsl =>
        ⟨fun w m hm => (hfirst y hy hid hsl).2.2.1 v w m hm hk, fun g m hm => (hfirst y hy hid hsl).2.2.2 v g m hm hk⟩
      have hgo := execBarrierExpectationArrival_due hf hk hb hs
      refine ⟨fun hfit => ?_, fun hfit => ?_⟩
      · rw [addPend_fits (b := (relDone s core id).barrier n) hfit] at hgo
        exact hgo
      · rw [addPend_out (b := (relDone s core id).barrier n) hfit] at hgo
        exact hgo
  case phases =>
    intro b due self next completed closed
    have hdue : phaseDue (s.barrier n) = true ↔ due := phaseDue_iff b
    have hcompleted : completePhase s n = completed := completePhase_eq s n
    refine ⟨fun hd hp => ?_, fun h => ?_, fun pkg p hd hp => ⟨fun hne => ?_, fun he ha hc => ?_⟩, fun hc h => ?_, fun hc => ?_⟩
    · exact hcompleted ▸ execBarrierPhaseComplete_due (hdue.2 hd) hp
    · exact execBarrierPhaseComplete_held (h.imp_left (mt hdue.1))
    · exact (execBarrierChildClose_due (hdue.2 hd) hp).trans (if_neg hne)
    · refine (execBarrierChildClose_due (hdue.2 hd) hp).trans ((if_pos he).trans ?_)
      rw [arriveAt_joins ha hc]
      rfl
    · exact hcompleted ▸ execTreeCompletionArrival_closed hc h
    · exact execTreeCompletionArrival_open hc
end

section
/-! O58, what a read leaves: no translation and no read of the point of coherence by an agent changes an engine, the task on a core, or
the bay of a task. -/

namespace Sys2Proof.Machine

/-- The engines, the tasks on the cores, and the bays of the tasks are those of an earlier state. -/
structure KeepsCores (s t : State) : Prop where
  engine : ∀ n, (t.core n).e = (s.core n).e
  task : ∀ n, (t.core n).task = (s.core n).task
  bay : ∀ id, (t.taskAt id).map (·.bay) = (s.taskAt id).map (·.bay)

namespace KeepsCores

variable {s t u : State}

theorem refl (s : State) : KeepsCores s s := ⟨fun _ => rfl, fun _ => rfl, fun _ => rfl⟩

theorem trans (h : KeepsCores s t) (h' : KeepsCores t u) : KeepsCores s u :=
  ⟨fun n => (h'.engine n).trans (h.engine n), fun n => (h'.task n).trans (h.task n), fun n => (h'.bay n).trans (h.bay n)⟩

/-- A state with the same cores and tasks. -/
theorem of_eq (hc : t.cores = s.cores) (ht : t.tasks = s.tasks) : KeepsCores s t :=
  ⟨fun n => by rw [State.core, State.core, hc], fun n => by rw [State.core, State.core, hc], fun id => by rw [State.taskAt, State.taskAt, ht]⟩

/-- The bay of the task on a core stays. -/
theorem bayOn (h : KeepsCores s t) (n : Nat) : t.bayOn n = s.bayOn n := by
  unfold State.bayOn State.taskOn
  rw [h.task n]
  cases (s.core n).task with
  | none => rfl
  | some id => exact congrArg (·.getD 0) (h.bay id)

/-- The state of a pair with a result. -/
theorem of_pair {α : Type} {r : State × α} {a : α} (h : KeepsCores s r.1) (hr : r = (t, a)) : KeepsCores s t := by
  rw [hr] at h
  exact h

theorem ite {c : Prop} [Decidable c] (h : KeepsCores s t) (h' : KeepsCores s u) : KeepsCores s (if c then t else u) := by
  split
  · exact h
  · exact h'

theorem ite_fst {α : Type} {c : Prop} [Decidable c] {r r' : State × α} (h : KeepsCores s r.1) (h' : KeepsCores s r'.1) :
    KeepsCores s (if c then r else r').1 := by
  split
  · exact h
  · exact h'

theorem foldl {α : Type} {f : State → α → State} (hf : ∀ s x, KeepsCores s (f s x)) (xs : List α) : ∀ s, KeepsCores s (xs.foldl f s) := by
  induction xs with
  | nil => exact refl
  | cons x xs ih => exact fun s => (hf s x).trans (ih _)

/-- A core changed beside its engine and its task. -/
theorem modCore (s : State) (n : Nat) {f : Core → Core} (he : ∀ c, (f c).e = c.e) (ht : ∀ c, (f c).task = c.task) :
    KeepsCores s (s.modCore n f) := by
  have hcore (m : Nat) : ((s.modCore n f).core m) = s.core m ∨ (s.modCore n f).core m = f (s.core m) := by
    by_cases hm : n = m
    · subst hm
      by_cases hn : n < 320
      · exact .inr (core_modCore_same s n f hn)
      · left
        simp only [State.core, State.modCore, State.setCore, wr, hn, dite_false]
    · exact .inl (core_modCore_ne s n m f hm)
  refine ⟨fun m => ?_, fun m => ?_, fun _ => rfl⟩
  · rcases hcore m with h | h
    · rw [h]
    · rw [h, he]
  · rcases hcore m with h | h
    · rw [h]
    · rw [h, ht]

/-- A task changed beside its number and its bay. -/
theorem modTask (s : State) (id : Nat) {f : Task → Task} (hi : ∀ t, (f t).id = t.id) (hb : ∀ t, (f t).bay = t.bay) :
    KeepsCores s (s.modTask id f) := by
  refine ⟨fun _ => rfl, fun _ => rfl, fun k => ?_⟩
  have hid : ((fun t : Task => t.id == k) ∘ fun t => if t.id == id then f t else t) = fun t => t.id == k := by
    funext t
    simp only [Function.comp_apply]
    split
    · rw [hi]
    · rfl
  rw [State.taskAt, State.modTask, List.find?_map, hid, Option.map_map]
  refine congrArg (Option.map · _) (funext fun t => ?_)
  simp only [Function.comp_apply]
  split
  · exact hb t
  · rfl

/-- A change beside cores and tasks first, or last. -/
theorem after (h : KeepsCores t u) (hc : t.cores = s.cores) (ht : t.tasks = s.tasks) : KeepsCores s u := (of_eq hc ht).trans h

theorem andThen (h : KeepsCores s t) (hc : u.cores = t.cores) (ht : u.tasks = t.tasks) : KeepsCores s u := h.trans (of_eq hc ht)

end KeepsCores

/-! ### The L2 -/

theorem keeps_dropSector (s : State) (g : Nat) : KeepsCores s (dropSector s g) := by
  unfold dropSector
  split
  · exact .refl s
  · exact .of_eq rfl rfl

theorem keeps_l2Evict (s : State) (ln : Nat) : KeepsCores s (l2Evict s ln) :=
  ((keeps_dropSector s _).trans (keeps_dropSector _ _)).andThen rfl rfl

theorem keeps_l2Fill (s : State) (dirty : Bool) (g : Nat) : KeepsCores s (l2Fill s dirty g) := by
  unfold l2Fill
  split
  · exact .refl s
  · split
    · exact .of_eq rfl rfl
    · dsimp only
      split
      · exact (keeps_l2Evict s _).andThen rfl rfl
      · exact .of_eq rfl rfl

theorem keeps_trimSlice (s : State) (slice : Nat) : KeepsCores s (trimSlice s slice) :=
  .foldl (fun s (l : L2Line) => keeps_l2Evict s l.pa) _ s

theorem keeps_l2Count (s : State) (core : Option Nat) (pa : Nat) : KeepsCores s (l2Count s core pa) := by
  unfold l2Count
  split
  · refine .ite (.refl s) (.ite ?_ (.of_eq rfl rfl))
    exact (keeps_trimSlice _ _).after rfl rfl
  · exact .refl s

theorem keeps_l2Read (s : State) (core : Option Nat) (pa len : Nat) (ca : Bool) : KeepsCores s (l2Read s core pa len ca) :=
  (KeepsCores.ite (.refl s) (.foldl (fun s g => keeps_l2Fill s false g) _ _)).trans (keeps_l2Count _ _ _)

/-! ### Translation -/

theorem keeps_sendRead (s : State) (pa len : Nat) (long : Bool) : KeepsCores s (sendRead s pa len long) := by
  unfold sendRead
  split
  · exact .refl s
  · exact .of_eq rfl rfl

theorem keeps_sendWalk (va : Nat) (fuel : Nat) : ∀ (s : State) (t : Nat), KeepsCores s (sendWalk s va fuel t) := by
  induction fuel with
  | zero => exact fun s _ => .refl s
  | succ fuel ih =>
    intro s t
    unfold sendWalk
    exact .ite (.refl s) (.ite (keeps_sendRead _ _ _ _) ((keeps_sendRead _ _ _ _).trans (ih _ _)))

theorem keeps_serviceWalk (s : State) (die bay va : Nat) : KeepsCores s (serviceWalk s die bay va).1 := by
  unfold serviceWalk
  -- a walk stands for its answer here: its own steps change no state
  obtain ⟨walks, hw⟩ : ∃ walks, walks = walkFrom := ⟨_, rfl⟩
  rw [← hw]
  extract_lets b root held deepest from_
  have hfrom (t : State) (fuel a : Nat) (rp : Bool) : KeepsCores t (from_ t fuel a rp).1 := by
    simp only [from_]
    split
    · exact keeps_sendWalk _ _ _ _
    · dsimp only
      exact (keeps_sendWalk _ _ _ _).andThen rfl rfl
  have hbump : KeepsCores s s.bump.2 := .of_eq rfl rfl
  clear_value from_ deepest
  cases deepest with
  | none => exact hfrom _ _ _ _
  | some h => exact .ite_fst (hbump.trans (hfrom _ _ _ _)) (hbump.trans (hfrom _ _ _ _))

theorem keeps_translate (s : State) (core : Option Nat) (bay va : Nat) : KeepsCores s (translate s core bay va).1 := by
  unfold translate
  split
  · exact keeps_sendWalk _ _ _ _
  · next n =>
    split
    · exact .refl s
    · extract_lets hold service
      have hhold (t : State) (x : Tlb) : KeepsCores t (hold t x) := .modCore t n (fun _ => rfl) (fun _ => rfl)
      have hservice (t : State) : KeepsCores t (service t).1 := by
        simp only [service]
        split
        · next h => exact ((keeps_serviceWalk _ _ _ _).of_pair h).trans ((hhold _ _).after rfl rfl)
        · next h => exact (keeps_serviceWalk _ _ _ _).of_pair h
      clear_value hold service
      split
      · exact hservice s
      · have hbump : KeepsCores s s.bump.2 := .of_eq rfl rfl
        exact .ite_fst (hbump.trans (hhold _ _)) (hbump.trans (hservice _))

theorem keeps_unhold (s : State) (core : Option Nat) (bay va : Nat) : KeepsCores s (unhold s core bay va) := by
  unfold unhold
  split
  · exact .refl s
  · next n =>
    exact (KeepsCores.modCore s n (f := fun c => { c with tlb := c.tlb.filter fun t => !t.hits bay va }) (fun _ => rfl) fun _ => rfl).andThen
      rfl rfl

/-! ### The access checks -/

theorem keeps_piece1 (s : State) (k : Who) (va len : Nat) (pol : Pol) : KeepsCores s (piece1 s k va len pol).1 := by
  unfold piece1
  split
  · next t f h =>
    have ht := (keeps_translate s k.core k.bay va).of_pair h
    split <;> exact ht
  · next t x h =>
    have ht := (keeps_translate s k.core k.bay va).of_pair h
    split
    · exact ht.trans (keeps_unhold _ _ _ _)
    · extract_lets pub pa ag
      split
      · exact ht.trans (keeps_unhold _ _ _ _)
      · exact ht

theorem keeps_piece0 (s : State) (k : Who) (va len : Nat) (pol : Pol) : KeepsCores s (piece0 s k va len pol).1 := by
  unfold piece0
  split
  · exact KeepsCores.modCore s (k.core.getD 0) (f := fun c => { c with ahead := c.ahead.filter fun y => !y.meets k va }) (fun _ => rfl)
      fun _ => rfl
  · exact keeps_piece1 s k va len pol

theorem keeps_pieces0 (k : Who) (pol : Pol) (spans : List (Nat × Nat)) : ∀ s, KeepsCores s (pieces0 s k pol spans).1 := by
  induction spans with
  | nil => exact .refl
  | cons x r ih =>
    intro s
    unfold pieces0
    split
    · next h => exact (keeps_piece0 s k _ _ pol).of_pair h
    · next t p h =>
      have ht := (keeps_piece0 s k _ _ pol).of_pair h
      split
      · next h => exact ht.trans ((ih t).of_pair h)
      · next h => exact ht.trans ((ih t).of_pair h)

theorem keeps_access (s : State) (k : Who) (va : W64) (len align : Nat) (pol : Pol) : KeepsCores s (access s k va len align pol).1 := by
  unfold access
  extract_lets a err sp local_ post
  have hpost (r : State × Acc) (hr : KeepsCores s r.1) : KeepsCores s (post r).1 := by
    simp only [post]
    repeat' split
    all_goals exact hr
  clear_value post
  split
  · exact .refl s
  split
  · exact .refl s
  split
  · split
    · split <;> exact .refl s
    · exact .refl s
  · split <;> exact .refl s
  · split
    · exact .refl s
    · exact hpost _ (.refl s)
  · split
    · exact .refl s
    · exact hpost _ (keeps_pieces0 k pol _ s)

/-! ### Reads by an agent without an L1 -/

theorem keeps_shadowRead (s : State) (t : Task) (pa len : Nat) : KeepsCores s (shadowRead s t pa len).1 :=
  (KeepsCores.foldl (fun s l => keeps_sendRead s (l * 64) 64 false) _ s).trans (.modTask _ _ (fun _ => rfl) fun _ => rfl)

theorem keeps_noteOwnLoft (s : State) (core : Option Nat) (loft : Nat) : KeepsCores s (noteOwnLoft s core loft) := by
  unfold noteOwnLoft
  repeat' split
  all_goals first | exact .refl s | exact .modTask _ _ (fun _ => rfl) fun _ => rfl

theorem keeps_readPiece (s : State) (core : Option Nat) (task : Option Nat) (first : Bool) (p : Piece) :
    KeepsCores s (readPiece s core false task first p).1 := by
  unfold readPiece
  split
  · exact .refl s
  · exact keeps_noteOwnLoft _ _ _
  · simp only [State.bump, Bool.false_and, Bool.false_eq_true, if_false]
    split
    · exact (keeps_shadowRead _ _ _ _).after rfl rfl
    · exact ((keeps_l2Read _ _ _ _ _).trans (keeps_sendRead _ _ _ _)).after rfl rfl

theorem keeps_readPieces (core : Option Nat) (task : Option Nat) (ps : List Piece) :
    ∀ s seen, KeepsCores s (readPieces s core false task seen ps).1 := by
  induction ps with
  | nil => exact fun s _ => .refl s
  | cons p r ih => exact fun s seen => (keeps_readPiece s core task _ p).trans (ih _ _)

theorem keeps_dropCells (s : State) (die bay core : Nat) (va : W64) (len : Nat) : KeepsCores s (dropCells s die bay core va len) := by
  unfold dropCells
  split
  · exact .refl s
  · exact .of_eq rfl rfl

theorem keeps_dropRead (s : State) (k : Who) (fault : Nat) (va : W64) (len : Nat) : KeepsCores s (dropRead s k fault va len) := by
  unfold dropRead
  split
  · exact .refl s
  · exact .foldl (fun s die => keeps_dropCells s _ _ _ _ _) _ _

theorem keeps_agentRead (s : State) (k : Who) (va : W64) (len align : Nat) : KeepsCores s (agentRead s k va len align).1 := by
  unfold agentRead
  split
  · next h => exact (keeps_access s k va len align .uc).of_pair h
  · next t ps h =>
    have ht := (keeps_access s k va len align .uc).of_pair h
    split
    · exact ht.trans (keeps_dropRead _ _ _ _ _)
    · exact ht.trans (keeps_readPieces _ _ _ _ _)

end Sys2Proof.Machine
end

section
/-! O58, copies: where a copy goes and what of it is read, and the events of a channel. -/

namespace Sys2Proof.Machine

/-! ### The loops of a program (R207) -/

/-- The iterations of the levels below `l`. -/
def levelSize (p : Vector W64 36) (l : Nat) : Nat := (List.range l).foldl (fun n j => n * levelCount p j) 1

theorem levelSize_succ (p : Vector W64 36) (l : Nat) : levelSize p (l + 1) = levelSize p l * levelCount p l := by
  simp [levelSize, List.range_succ]

/-- The index of a level is the digit of the iteration there: what is above it, and it. -/
theorem div_levelSize (p : Vector W64 36) (k l : Nat) :
    k / levelSize p l = k / levelSize p (l + 1) * levelCount p l + levelIndex p k l := by
  rw [levelSize_succ, ← Nat.div_div_eq_div_mul]
  exact (Nat.div_add_mod' _ _).symm

theorem levelIndex_lt (p : Vector W64 36) (k l : Nat) : levelIndex p k l < levelCount p l :=
  Nat.mod_lt _ (by unfold levelCount; omega)

/-- An iteration of a run is the number whose digits are the indices of the six levels, the innermost last. -/
theorem iteration_eq (p : Vector W64 36) (k : Nat) (h : k < runLength p) :
    k = ((((levelIndex p k 5 * levelCount p 4 + levelIndex p k 4) * levelCount p 3 + levelIndex p k 3) * levelCount p 2 + levelIndex p k 2) *
      levelCount p 1 + levelIndex p k 1) * levelCount p 0 + levelIndex p k 0 := by
  have htop : k / levelSize p 6 = 0 := Nat.div_eq_of_lt h
  have h5 := div_levelSize p k 5
  rw [htop, Nat.zero_mul, Nat.zero_add] at h5
  rw [← h5, ← div_levelSize p k 4, ← div_levelSize p k 3, ← div_levelSize p k 2, ← div_levelSize p k 1, ← div_levelSize p k 0]
  exact (Nat.div_one k).symm

/-! ### Fields of a program -/

theorem gathers_iff (p : Vector W64 36) : gathers p = true ↔ (rd p 0x22 0).toNat % 2 = 1 := by
  simp [gathers, bitAt, Nat.testBit_zero]

theorem bits_zero {w : Nat} (b : BitVec w) (n : Nat) : bits b 0 n = b.toNat % 2 ^ n := by
  simp [bits]

/-- A stride is the signed value of its 40 bits. -/
theorem signedOf_eq_toInt (n v : Nat) (h : 0 < n) : signedOf n v = (BitVec.ofNat n v).toInt := by
  obtain ⟨m, rfl⟩ : ∃ m, n = m + 1 := ⟨n - 1, by omega⟩
  rw [BitVec.toInt_eq_toNat_cond, BitVec.toNat_ofNat]
  simp only [signedOf, Nat.add_sub_cancel, Nat.pow_succ, Nat.succ_ne_zero, if_false]
  have : 2 * (v % (2 ^ m * 2)) < 2 ^ m * 2 ↔ v % (2 ^ m * 2) < 2 ^ m := by omega
  simp only [this]
  split <;> rfl

/-! ### Where a copy goes (R207, R211) -/

section
variable (c : Chan) (k : Nat)

/-- The index of a gathered row. -/
def rowIndex : Nat := (c.batch[k % 8]?).getD 0

/-- No byte of a copy is read from the source: its row, or an outer level, is out of bounds. -/
def OutOfBounds : Prop :=
  if gathers c.run = true then progF c.run 0x23 ≠ 0 ∧ progF c.run 0x23 ≤ rowIndex c k
  else ∃ l, 1 ≤ l ∧ l ≤ 5 ∧ progF c.run (4 * l + 3) ≠ 0 ∧ progF c.run (4 * l + 3) ≤ levelIndex c.run k l

theorem copyPlace_out : (copyPlace c k).2.2 = true ↔ OutOfBounds c k := by
  unfold OutOfBounds
  simp only [copyPlace]
  split
  · exact decide_eq_true_iff
  · simp only [List.any_eq_true, List.mem_range, decide_eq_true_eq]
    constructor
    · rintro ⟨l, hl, h⟩
      exact ⟨l + 1, by omega, by omega, h⟩
    · rintro ⟨l, h1, h5, h⟩
      obtain ⟨j, rfl⟩ : ∃ j, l = j + 1 := ⟨l - 1, by omega⟩
      exact ⟨j, by omega, h⟩

theorem copyPlace_src : (copyPlace c k).1 =
    let i (l : Nat) : Int := levelIndex c.run k l
    rd c.run 0x18 0 + BitVec.ofInt 64 ((if gathers c.run = true then (rowIndex c k : Int) else i 0) * srcStride c.run 0 +
      (i 1 * srcStride c.run 1 + i 2 * srcStride c.run 2 + i 3 * srcStride c.run 3 + i 4 * srcStride c.run 4 + i 5 * srcStride c.run 5)) := by
  simp only [copyPlace, show List.range 5 = [0, 1, 2, 3, 4] from rfl, List.map_cons, List.map_nil, List.sum_cons, List.sum_nil]
  congr 2
  split <;> simp only [rowIndex, Int.ofNat_eq_natCast] <;> ring

theorem copyPlace_dst : (copyPlace c k).2.1 =
    let i (l : Nat) : Int := levelIndex c.run k l
    rd c.run 0x19 0 + BitVec.ofInt 64 (i 0 * dstStride c.run 0 + i 1 * dstStride c.run 1 + i 2 * dstStride c.run 2 + i 3 * dstStride c.run 3 +
      i 4 * dstStride c.run 4 + i 5 * dstStride c.run 5) := by
  simp only [copyPlace, show List.range 6 = [0, 1, 2, 3, 4, 5] from rfl, List.map_cons, List.map_nil, List.sum_cons, List.sum_nil]
  congr 2
  simp only [Int.ofNat_eq_natCast]
  ring
end

/-! ### What of a copy is read (R207) -/

/-- A granule is filled: the copy is out of bounds, or the granule begins beyond the extent of the innermost level. -/
def GranFilled (p : Vector W64 36) (k : Nat) (out : Bool) (g : Nat) : Prop :=
  out = true ∨ (¬gathers p = true ∧ progF p 3 ≠ 0 ∧ progF p 3 ≤ (levelIndex p k 0 * copyLen p + 4 * g) / 2 ^ bits (rd p 0x1B 0) 0 2)

theorem length_filter_lt_range {m n : Nat} (h : n ≤ m) : ((List.range m).filter fun g => decide (g < n)).length = n := by
  obtain ⟨d, rfl⟩ := Nat.exists_eq_add_of_le h
  rw [List.range_add, List.filter_append, List.filter_eq_self.2 (by simp), List.filter_eq_nil_iff.2 (by simp)]
  simp

/-- The bytes read are the granules before the first filled one. -/
theorem sourceLen_eq {p : Vector W64 36} {k n : Nat} {out : Bool} (h4 : copyLen p % 4 = 0) (hn : n ≤ copyLen p / 4)
    (hf : ∀ g, g < copyLen p / 4 → (GranFilled p k out g ↔ n ≤ g)) : sourceLen p k out = 4 * n := by
  unfold sourceLen
  dsimp only
  split
  · next ho =>
    by_contra hne
    have := (hf 0 (by omega)).1 (.inl ho)
    omega
  · next ho =>
    split
    · next hg =>
      by_contra hne
      obtain h | ⟨h1, h2, h3⟩ := (hf n (by omega)).2 le_rfl
      · exact ho h
      · exact hg.elim h1 h2
    · next hg =>
      have hcongr : (List.range (copyLen p / 4)).filter (fun g =>
          decide ((levelIndex p k 0 * copyLen p + 4 * g) / 2 ^ bits (rd p 0x1B 0) 0 2 < progF p 3)) =
          (List.range (copyLen p / 4)).filter fun g => decide (g < n) := by
        refine List.filter_congr fun g hm => decide_eq_decide.2 ?_
        obtain ⟨hg1, hg2⟩ := not_or.1 hg
        have hfg : GranFilled p k out g ↔ ¬(levelIndex p k 0 * copyLen p + 4 * g) / 2 ^ bits (rd p 0x1B 0) 0 2 < progF p 3 := by
          rw [GranFilled, or_iff_right ho, not_lt]
          exact ⟨fun h => h.2.2, fun h => ⟨hg1, hg2, h⟩⟩
        exact not_iff_not.1 (hfg.symm.trans ((hf g (List.mem_range.1 hm)).trans not_lt.symm))
      rw [hcongr, length_filter_lt_range hn, Nat.mul_comm]

/-! ### Reading and placing keep the channels -/

/-- A fold of steps on a state with a result, each of which keeps the cores. -/
theorem KeepsCores.foldl_fst {α β : Type} {s : State} {f : State × α → β → State × α} (hf : ∀ r x, KeepsCores r.1 (f r x).1) (xs : List β) :
    ∀ r, KeepsCores s r.1 → KeepsCores s (xs.foldl f r).1 := by
  induction xs with
  | nil => exact fun _ h => h
  | cons x xs ih => exact fun r h => ih _ (h.trans (hf r x))

theorem keeps_readTile (s : State) (k : Who) (layout z : Nat) (pitch : Int) (va : W64) : KeepsCores s (readTile s k layout z pitch va).1 := by
  unfold readTile
  extract_lets plain
  split
  · next h => exact (keeps_access s k va 4 4 .uc).of_pair h
  · next t ps h =>
    have ht := (keeps_access s k va 4 4 .uc).of_pair h
    extract_lets hbm
    split
    · exact keeps_agentRead s k va 2048 4
    split
    · refine KeepsCores.foldl_fst (fun r i => ?_) _ _ ht
      split
      · exact .refl _
      · split
        · next h => exact (keeps_agentRead _ _ _ _ _).of_pair h
        · next h => exact (keeps_agentRead _ _ _ _ _).of_pair h
    · split
      · next h => exact ht.trans ((keeps_agentRead _ _ _ _ _).of_pair h)
      · next h => exact ht.trans ((keeps_agentRead _ _ _ _ _).of_pair h)

theorem keeps_readSource (s : State) (k : Who) (layout z : Nat) (pitch : Int) (va : W64) (n : Nat) :
    KeepsCores s (readSource s k layout z pitch va n).1 := by
  unfold readSource
  split
  · exact .refl s
  split
  · exact keeps_agentRead s k va n 4
  · refine KeepsCores.foldl_fst (fun r i => ?_) _ _ (.refl s)
    split
    · exact .refl _
    · split
      · next h => exact (keeps_readTile _ _ _ _ _ _).of_pair h
      · next h => exact (keeps_readTile _ _ _ _ _ _).of_pair h

theorem keeps_destinations (k : Who) (p : Vector W64 36) (d : W64) (n : Nat) : ∀ s o, KeepsCores s (destinations s k p d n o).1 := by
  induction n with
  | zero => exact fun s _ => .refl s
  | succ n ih =>
    intro s o
    unfold destinations
    split
    · next h => exact (keeps_access s k _ 4 4 .uc).of_pair h
    · next t ps h =>
      have ht := (keeps_access s k _ 4 4 .uc).of_pair h
      split
      · exact ht
      · split
        · next h => exact ht.trans ((ih t _).of_pair h)
        · next h => exact ht.trans ((ih t _).of_pair h)

theorem chanOf_keeps {s t : State} (h : KeepsCores s t) (core ch : Nat) : chanOf t core ch = chanOf s core ch := by
  rw [chanOf, chanOf, h.engine]

/-- The agent of a channel's accesses is the same after a read. -/
theorem copyWho_keeps {s t : State} (h : KeepsCores s t) (core ch kind : Nat) : copyWho t core ch kind = copyWho s core ch kind := by
  rw [copyWho, copyWho, chanOf_keeps h, h.bayOn, h.task]

/-! ### Channels -/

section
variable {s : State} {core ch : Nat}

theorem chanOf_modChan (f : Chan → Chan) (hc : core < 320) (hch : ch < 8) : chanOf (modChan s core ch f) core ch = f (chanOf s core ch) := by
  simp only [chanOf, modChan, core_modE_same _ _ _ hc]
  exact rd_wr_same _ _ _ _ hch

/-- A change of an engine beside its channels. -/
theorem chanOf_modE {f : Engine → Engine} (hf : ∀ e, (f e).ch = e.ch) (hc : core < 320) : chanOf (s.modE core f) core ch = chanOf s core ch := by
  rw [chanOf, chanOf, core_modE_same _ _ _ hc, hf]

/-- A change of an engine is known by its value there. -/
theorem modE_congr {f g : Engine → Engine} (h : f (s.core core).e = g (s.core core).e) : s.modE core f = s.modE core g := by
  simp only [State.modE, modCore_def, h]

/-- A channel changed is one written. -/
theorem modChan_eq (f : Chan → Chan) : modChan s core ch f = s.modE core fun e => { e with ch := wr e.ch ch (f (chanOf s core ch)) } :=
  modE_congr rfl

/-! ### Issuing a copy (R207, R208) -/

/-- A channel issues its next copy in this cycle. -/
def CopyMay (s : State) (core ch : Nat) : Prop :=
  copiesRun s core = true ∧ copyDue (chanOf s core ch) = true ∧ hasTurn (s.core core).e ch = true ∧
    (rd (s.core core).e.copyTurn (bits (rd (chanOf s core ch).run 0x1E 0) 0 2) (7, 0)).2 ≤ s.now ∧ rd s.clockEdge (core / 160) true = true ∧
    leftOver s core (sourceBanks (chanOf s core ch)) = true

theorem execCopyIssue_may (h : CopyMay s core ch) : execCopyIssue core ch s = .next (issueCopy s core ch) := by
  obtain ⟨hr, hd, ht, hn, he, hl⟩ := h
  refine if_pos ?_
  simp only [Bool.and_eq_true, decide_eq_true_eq]
  exact ⟨⟨⟨⟨⟨hr, he⟩, hd⟩, ht⟩, hn⟩, hl⟩

theorem execCopyIssue_held (h : ¬CopyMay s core ch) : execCopyIssue core ch s = .next s := by
  refine if_neg fun hc => h ?_
  simp only [Bool.and_eq_true, decide_eq_true_eq] at hc
  obtain ⟨⟨⟨⟨⟨hr, he⟩, hd⟩, ht⟩, hn⟩, hl⟩ := hc
  exact ⟨hr, hd, ht, hn, he, hl⟩

/-- The read of a channel's next copy. -/
def copyRead (s : State) (core ch : Nat) : State × (List Byte ⊕ AErr) :=
  let c := chanOf s core ch
  readSource s (copyWho s core ch 5) (layoutOf c.run) (2 ^ bits (rd c.run 0x1B 0) 0 2) (srcStride c.run 1) (copyPlace c c.iter).1
    (sourceLen c.run c.iter (copyPlace c c.iter).2.2)

/-- The places of its granules, found after the read. -/
def copyPlaces (s s1 : State) (core ch : Nat) : State × (List Loc ⊕ AErr) :=
  let c := chanOf s core ch
  destinations s1 (copyWho s core ch 6) c.run (copyPlace c c.iter).2.1 (copyLen c.run / 4) 0

theorem keeps_copyRead : KeepsCores s (copyRead s core ch).1 := keeps_readSource _ _ _ _ _ _ _

theorem issueCopy_unread {s1 : State} {x : AErr} (h : copyRead s core ch = (s1, .inr x)) : issueCopy s core ch = copyError s1 core ch x := by
  unfold issueCopy
  simp only
  rw [show readSource s _ _ _ _ _ _ = _ from h]

theorem issueCopy_unplaced {s1 s2 : State} {b : List Byte} {x : AErr} (h : copyRead s core ch = (s1, .inl b))
    (hp : copyPlaces s s1 core ch = (s2, .inr x)) : issueCopy s core ch = copyError s2 core ch x := by
  unfold issueCopy
  simp only
  rw [show readSource s _ _ _ _ _ _ = _ from h]
  simp only [copyWho_keeps (keeps_copyRead.of_pair h)]
  rw [show destinations s1 _ _ _ _ _ = _ from hp]

/-- The word of a granule: read from the source, or the fill. -/
def copyWord (p : Vector W64 36) (n : Nat) (b : List Byte) (g : Nat) : BitVec 32 :=
  if 4 * g < n then BitVec.ofNat 32 (ofBytes ((b.drop (4 * g)).take 4)) else (rd p 0x1D 0).setWidth 32

/-- A copy that is read and placed: the channel moves on by it, and holds it with its granules, none of them delivered. -/
theorem issueCopy_placed {s1 s2 : State} {b : List Byte} {locs : List Loc} (hc : core < 320) (hch : ch < 8) (h : copyRead s core ch = (s1, .inl b))
    (hp : copyPlaces s s1 core ch = (s2, .inl locs)) :
    let c := chanOf s core ch
    let c' := chanOf (issueCopy s core ch) core ch
    c'.iter = c.iter + 1 ∧ c'.issued = c.issued + copyLen c.run ∧ c'.running = decide (c.iter + 1 < runLength c.run) ∧
      ∃ cp, c'.copies = c.copies ++ [cp] ∧ cp.run = c.runId ∧ cp.off = c.issued ∧ cp.gran = locs.zipIdx.map fun x =>
        (x.1, copyWord c.run (sourceLen c.run c.iter (copyPlace c c.iter).2.2) b x.2, false) := by
  have hs1 : KeepsCores s s1 := keeps_copyRead.of_pair h
  have hs2 : KeepsCores s s2 := hs1.trans ((keeps_destinations _ _ _ _ _ _).of_pair hp)
  unfold issueCopy
  simp only
  rw [show readSource s _ _ _ _ _ _ = _ from h]
  simp only [copyWho_keeps hs1]
  rw [show destinations s1 _ _ _ _ _ = _ from hp]
  simp only
  rw [chanOf_modE ?turn hc, chanOf_modChan _ hc hch, chanOf_keeps (t := s2.bump.2) (hs2.andThen rfl rfl)]
  case turn => exact fun _ => rfl
  exact ⟨rfl, rfl, by simp only [← decide_not, Nat.not_le], _, rfl, rfl, rfl, rfl⟩

/-! ### The phased start and the batch of indices (R210, R211) -/

theorem execCpgoPhasedStart_early {t : W64} (ht : (chanOf s core ch).startAt = some t) (hn : s.now < t.toNat) :
    execCpgoPhasedStart core ch s = .next s := by
  unfold execCpgoPhasedStart
  simp only [ht]
  exact if_neg (by simp [hn])

theorem execCpgoPhasedStart_due {t : W64} (ht : (chanOf s core ch).startAt = some t) (hr : (chanOf s core ch).running = true)
    (hc : copiesRun s core = true) (hn : t.toNat ≤ s.now) :
    execCpgoPhasedStart core ch s = execCopyIssue core ch (modChan s core ch fun c => { c with startAt := none }) := by
  unfold execCpgoPhasedStart
  simp only [ht]
  exact if_pos (by simp [hr, hc, hn])

/-- A gathered run wants the indices of its next rows, and the banks that hold them are left over. -/
structure BatchMay (s : State) (core ch : Nat) : Prop where
  runs : copiesRun s core = true
  running : (chanOf s core ch).running = true
  gathers : gathers (chanOf s core ch).run = true
  started : (chanOf s core ch).startAt = none
  free : (chanOf s core ch).park = none
  wants : (chanOf s core ch).batch.length ≤ (chanOf s core ch).iter % 8
  banks : let c := chanOf s core ch
    let w := indexLen c.run
    leftOver s core (addrBanks (rd c.run 0x21 0 + w64 (c.iter / 8 * 8 * w)) (min 8 (runLength c.run - c.iter / 8 * 8) * w)) = true

/-- The read of such a batch. -/
def batchRead (s : State) (core ch : Nat) : State × (List Byte ⊕ AErr) :=
  let c := chanOf s core ch
  let w := indexLen c.run
  agentRead s (copyWho s core ch 5) (rd c.run 0x21 0 + w64 (c.iter / 8 * 8 * w)) (min 8 (runLength c.run - c.iter / 8 * 8) * w) w

theorem execGatherIndexRead_may (h : BatchMay s core ch) : execGatherIndexRead core ch s =
    match batchRead s core ch with
    | (t, .inr e) => .next (copyError t core ch e)
    | (t, .inl b) => .next (modChan t core ch fun c => { c with
        batch := (List.range (min 8 (runLength (chanOf s core ch).run - (chanOf s core ch).iter / 8 * 8))).map fun i =>
          ofBytes ((b.drop (i * indexLen (chanOf s core ch).run)).take (indexLen (chanOf s core ch).run)) }) := by
  refine (if_neg ?_).trans rfl
  simpa [h.runs, h.running, h.gathers, h.started, h.free, indexReady, h.wants] using h.banks

/-! ### Delivery (R209, R283, R375, R376) -/

theorem mayDeliver_iff {c : Chan} {x : Copy} {n : Nat} {g : Loc × BitVec 32 × Bool} (hg : x.gran[n]? = some g) :
    mayDeliver c x n = true ↔ g.2.2 = false ∧ (localGran g = true → (∀ h ∈ x.gran.take n, localGran h = true → h.2.2 = true) ∧
      ∀ y ∈ c.copies, y.run = x.run → y.off < x.off → ∀ h ∈ y.gran, localGran h = true → h.2.2 = true) := by
  unfold mayDeliver
  simp only [hg, Bool.and_eq_true, Bool.not_eq_true']
  refine and_congr_right fun _ => ?_
  cases localGran g with
  | false => simp
  | true => simp

/-- A write to global memory has room in the shadow of its task. -/
def DeliveryRoom (s : State) (core : Nat) (l : Loc) : Prop :=
  ∀ pa, l = .phys pa → shadowRoom s (s.core core).task [{ va := 0, loc := l, len := 4, pol := .uc, group := 0 }] = true

/-- The piece that a granule is written as. -/
def granPiece (l : Loc) : Piece := { va := 0, loc := l, len := 4, pol := .uc, group := 0, sys := true }

/-- The granule written at its place. -/
def granWritten (s : State) (core : Nat) (g : Loc × BitVec 32 × Bool) : State :=
  writePiece s (some core) false (s.core core).task 0 (granPiece g.1) (toBytes 4 g.2.1.toNat)

section
variable {id n : Nat} {x : Copy} {g : Loc × BitVec 32 × Bool}
  (hf : (chanOf s core ch).copies.find? (fun y => y.k = id) = some x) (hg : x.gran[n]? = some g)
include hf hg

theorem execCopyDelivery_held (h : ¬(mayDeliver (chanOf s core ch) x n = true ∧ placeFree s core g.1 = true)) :
    execCopyDelivery core ch id n s = .next s := by
  unfold execCopyDelivery
  simp only [hf, hg]
  refine if_pos ?_
  simpa only [Bool.or_eq_true, Bool.not_eq_true', Bool.not_eq_true, not_and_or] using h

variable (hm : mayDeliver (chanOf s core ch) x n = true) (hp : placeFree s core g.1 = true)
include hm hp

theorem execCopyDelivery_away (ha : n ∈ x.away) : execCopyDelivery core ch id n s = .next (granDone s core ch id n g) := by
  unfold execCopyDelivery
  simp only [hf, hg, hm, hp]
  exact (if_neg (by simp)).trans (if_pos (by simpa using ha))

theorem execCopyDelivery_starves (ha : n ∉ x.away) (hr : ¬DeliveryRoom s core g.1) : execCopyDelivery core ch id n s = .next (starve s core) := by
  unfold execCopyDelivery
  simp only [hf, hg, hm, hp]
  refine (if_neg (by simp)).trans ((if_neg (by simpa using ha)).trans (if_pos ?_))
  by_contra hc
  refine hr fun pa hl => ?_
  simpa [hl] using hc

theorem execCopyDelivery_writes (ha : n ∉ x.away) (hr : DeliveryRoom s core g.1) : execCopyDelivery core ch id n s =
    .next (if (shadowTask s (s.core core).task).isNone && (remoteOf s (granPiece g.1)).isSome then granLeft (granWritten s core g) core ch id n
      else granDone (granWritten s core g) core ch id n g) := by
  unfold execCopyDelivery
  simp only [hf, hg, hm, hp]
  refine (if_neg (by simp)).trans ((if_neg (by simpa using ha)).trans ((if_neg ?_).trans rfl))
  cases hl : g.1 with
  | phys pa => simpa [hl] using hr pa hl
  | scratch off => simp
  | loft m off => simp
end

/-! ### The byte post (R210, R225, R376) -/

/-- A copy whose granules are delivered posts its length. -/
theorem execCopyBytePost_due {id pkg n : Nat} {x : Copy} (hf : (chanOf s core ch).copies.find? (fun y => y.k = id) = some x)
    (hp : x.post = some (pkg, n)) (hd : ∀ g ∈ x.gran, g.2.2 = true) :
    let t := modChan s core ch fun c => { c with copies := c.copies.filter fun y => y.k ≠ id }
    execCopyBytePost core ch id s = if pkg ≠ t.regs.plkSelf.toNat then .next (sendSync t pkg (.post n (4 * x.gran.length)))
      else if (t.barrier n).target = 0 then .next (copyFault t core ch 11 0x102 0 x.iter)
      else match addPend (t.barrier n) (-Int.ofNat (4 * x.gran.length)) with
        | none => .next (copyFault t core ch 11 0x100 0 x.iter)
        | some b => .next (t.modBarrier n fun _ => b) := by
  unfold execCopyBytePost
  simp only [hf, hp]
  refine (if_neg ?_).trans rfl
  simpa [undelivered] using hd

end

end Sys2Proof.Machine
end

section
open Sys2Proof Sys2Proof.Machine Sys2Proof.Claims

namespace Sys2Proof.Machine

/-- The width of an index, as the rule states it (R211). -/
theorem indexLen_eq (p : Vector W64 36) : indexLen p = if pf p 0x22 / 2 % 2 = 1 then 4 else 2 := by
  simp only [indexLen, bitAt, pf, Nat.testBit_eq_decide_div_mod_eq, decide_eq_true_eq]
  rfl

end Sys2Proof.Machine

/-- R195, R207 to R211, R269, R376: the events of a copy channel. -/
theorem copyEvents : CopyEvents := by
  unfold CopyEvents
  refine ⟨fun p k hk => ⟨fun l _ => levelIndex_lt p k l, iteration_eq p k hk⟩, fun s core ch hc hch => ?_⟩
  intro e c p k len cls who may i stride gather idx outer src dst allOut esize filled
  have hgather : gathers p = true ↔ gather := gathers_iff p
  have hmay : may ↔ CopyMay s core ch := by rw [CopyMay, bits_zero]; exact Iff.rfl
  have hstride (n : Nat) : signedOf 40 (rd p n 0).toNat = stride n := signedOf_eq_toInt 40 _ (by decide)
  have hsrcStride (l : Nat) : srcStride c.run l = stride (4 * l + 1) := hstride _
  have hdstStride (l : Nat) : dstStride c.run l = stride (4 * l + 2) := hstride _
  have hidx : (rowIndex c k : Int) = idx := by
    simp only [idx, rowIndex]
    cases c.batch[k % 8]? <;> rfl
  have hout : (copyPlace c k).2.2 = true ↔ allOut := by
    rw [copyPlace_out, OutOfBounds]
    by_cases hg : gather
    · rw [if_pos (hgather.2 hg), ← Nat.cast_le (α := Int), hidx]
      exact (iff_of_eq (if_pos hg)).symm
    · rw [if_neg (mt hgather.1 hg)]
      exact (iff_of_eq (if_neg hg)).symm
  have hsrc : (copyPlace c k).1 = src := by
    rw [copyPlace_src]
    simp only [hsrcStride, hidx]
    by_cases hg : gather
    · rw [if_pos (hgather.2 hg)]
      simp only [src, if_pos hg]
      rfl
    · rw [if_neg (mt hgather.1 hg)]
      simp only [src, if_neg hg]
      rfl
  have hdst : (copyPlace c k).2.1 = dst := by
    rw [copyPlace_dst]
    simp only [hdstStride]
    rfl
  have hesize : 2 ^ bits (rd p 0x1B 0) 0 2 = esize := by rw [bits_zero]; rfl
  have hfilled (g : Nat) : GranFilled p k (copyPlace c k).2.2 g ↔ filled g := by
    rw [GranFilled, hout, hgather, hesize]
    exact Iff.rfl
  refine ⟨fun h => execCopyIssue_held (mt hmay.2 h), fun h h4 n hn hf => ?issue, fun t ht hr hcr => ?start,
    fun hcr hr hg hs hp hw' => ?batch, fun id x n g hx hg => ?delivery, fun id x pkg n hx hp hd => ?post⟩
  case issue =>
    intro read
    have hlen : sourceLen p k (copyPlace c k).2.2 = 4 * n := sourceLen_eq h4 hn fun g hg => (hfilled g).trans (hf g hg)
    have hread : copyRead s core ch = read := by
      show readSource s (who 5) (pf p 0x1E / 4 % 4) (2 ^ bits (rd p 0x1B 0) 0 2) (srcStride c.run 1) (copyPlace c k).1
        (sourceLen p k (copyPlace c k).2.2) = read
      rw [hsrc, hlen, hesize, hsrcStride]
    have hgo := execCopyIssue_may (hmay.1 h)
    refine ⟨fun s1 x hr => hgo.trans (congrArg _ (issueCopy_unread (hread.trans hr))), fun s1 b hr => ?_⟩
    intro places
    have hplaces : copyPlaces s s1 core ch = places := by
      show destinations s1 (who 6) p (copyPlace c k).2.1 (len / 4) 0 = places
      rw [hdst]
    refine ⟨fun s2 x hpl => hgo.trans (congrArg _ (issueCopy_unplaced (hread.trans hr) (hplaces.trans hpl))), fun s2 locs hpl => ⟨_, hgo, ?_⟩⟩
    obtain ⟨hiter, hissued, hrunning, cp, hcopies, hrun, hoff, hgran⟩ := issueCopy_placed hc hch (hread.trans hr) (hplaces.trans hpl)
    refine ⟨hiter, hissued, hrunning, cp, hcopies, hrun, hoff, by simp [hgran], fun g l hl => ?_⟩
    have hword : copyWord p (sourceLen p k (copyPlace c k).2.2) b g =
        if g < n then BitVec.ofNat 32 (ofBytes ((b.drop (4 * g)).take 4)) else (rd p 0x1D 0).setWidth 32 := by
      simp only [hlen, copyWord, Nat.mul_lt_mul_left (show 0 < 4 by decide)]
    rw [hgran, List.getElem?_map, List.getElem?_zipIdx, hl, ← hword]
    simp only [Option.map_some, Nat.zero_add]
    rfl
  case start =>
    refine ⟨fun hn => execCpgoPhasedStart_early ht hn, fun hn => ?_⟩
    refine (execCpgoPhasedStart_due ht hr hcr hn).trans ?_
    rw [modChan_eq]
    rfl
  case batch =>
    intro w first n hb read
    have hw : indexLen p = w := indexLen_eq p
    have hmay : BatchMay s core ch :=
      { runs := hcr, running := hr, gathers := hgather.2 hg, started := hs, free := hp, wants := hw', banks := by
          show leftOver s core (addrBanks (rd p 0x21 0 + w64 (first * indexLen p)) (n * indexLen p)) = true
          rw [hw]
          exact hb }
    have hread : batchRead s core ch = read := by
      show agentRead s (who 5) (rd p 0x21 0 + w64 (first * indexLen p)) (n * indexLen p) (indexLen p) = read
      rw [hw]
      rfl
    have hgo := execGatherIndexRead_may hmay
    refine ⟨fun s1 x hr => ?_, fun s1 b hr => ?_⟩
    · refine hgo.trans ?_
      rw [hread, hr]
    · refine hgo.trans ?_
      rw [hread, hr, ← hw]
      rfl
  case delivery =>
    intro here inTurn piece room s1 may far delivered
    have hhere : localGran = here := by
      funext h
      cases hl : h.1 <;> simp [localGran, here, hl]
    have hmay : may ↔ mayDeliver c x n = true ∧ placeFree s core g.1 = true := by
      rw [mayDeliver_iff hg, hhere, and_assoc]
    have hroom : room ↔ DeliveryRoom s core g.1 := by
      cases hl : g.1 with
      | phys pa => simp [room, here, piece, DeliveryRoom, hl]
      | scratch off => simp [room, here, DeliveryRoom, hl]
      | loft m off => simp [room, here, DeliveryRoom, hl]
    have hfar : ((shadowTask s (s.core core).task).isNone && (remoteOf s (granPiece g.1)).isSome) = true ↔ far := by
      rw [Bool.and_eq_true, Option.isNone_iff_eq_none]
      exact Iff.rfl
    refine ⟨fun h => execCopyDelivery_held hx hg (mt hmay.2 h), fun h ha => ?_, fun h ha hr => ?_, fun h ha hr hf => ?_, fun h ha hr hf => ?_⟩
    all_goals obtain ⟨hm, hp⟩ := hmay.1 h
    · exact execCopyDelivery_away hx hg hm hp ha
    · exact execCopyDelivery_starves hx hg hm hp ha (mt hroom.2 hr)
    · refine (execCopyDelivery_writes hx hg hm hp ha (hroom.1 hr)).trans ?_
      rw [if_pos (hfar.2 hf)]
      rfl
    · refine (execCopyDelivery_writes hx hg hm hp ha (hroom.1 hr)).trans ?_
      rw [if_neg (mt hfar.1 hf)]
      rfl
  case post =>
    intro bytes s1 left here stops
    have hgo := execCopyBytePost_due hx hp hd
    refine ⟨fun h => hgo.trans (if_pos h), fun h ht => ?_, fun h ht hlo hhi => ?_, fun h ht hout => ?_⟩
    all_goals replace hgo := hgo.trans (if_neg (not_not.2 h))
    · exact hgo.trans (if_pos ht)
    all_goals replace hgo := hgo.trans (if_neg ht)
    · have hadd : addPend (s1.barrier n) (-Int.ofNat bytes) = some { s1.barrier n with pend := left } := addPend_fits ⟨hlo, hhi⟩
      rw [hadd] at hgo
      exact hgo
    · have hadd : addPend (s1.barrier n) (-Int.ofNat bytes) = none := addPend_out fun hfit => hout.elim hfit.1.not_gt hfit.2.not_ge
      rw [hadd] at hgo
      exact hgo

/-- Settles O58: what a barrier's work does (`barrierEvents`), and what the events of a copy channel do (`copyEvents`). -/
theorem transferEvents : Obligations.TransferEvents := by
  unfold Obligations.TransferEvents
  exact ⟨barrierEvents, copyEvents⟩
end

section
/-! O34: the register files, cores and contexts that reset leaves. -/

namespace Sys2Proof.Machine

/-- A file of equal entries reads so at every index, when the default is that entry too. -/
theorem rd_replicate {α : Type} (n i : Nat) (x : α) : rd (Vector.replicate n x) i x = x := by
  by_cases h : i < n
  · rw [rd_eq _ _ _ h, Vector.getElem_replicate]
  · exact rd_ge _ _ _ (Nat.le_of_not_lt h)

/-- A core as a package reset leaves it (R46, R66). -/
theorem reset_core {n : Nat} (h : n < 320) : State.reset.core n = { physical := n } := by
  show rd (Vector.ofFn fun k : Fin 320 => ({ physical := k.val } : Core)) n {} = _
  rw [rd_eq _ _ _ h, Vector.getElem_ofFn]

/-- A context of such a core, the user's or the firmware's (R46, R47). -/
theorem reset_gctx (n : Nat) (x : Ctx) : ({ physical := n } : Core).gctx x = {} := by cases x <;> rfl

/-- The general registers of an engine at reset (R66). -/
theorem reset_engine_registers (k : Nat) :
    sReg {} k = 0 ∧ vReg {} k = 0 ∧ mReg {} k = BitVec.allOnes 512 ∧ rd ({} : Engine).ma k 0 = 0 ∧
      (k < 16 → qReg {} k = decide (k = 0)) := by
  refine ⟨?_, rd_replicate 32 k 0, ?_, rd_replicate 8 k 0, fun h => ?_⟩
  · rw [sReg, show rd ({} : Engine).s k 0 = 0 from rd_replicate 64 k 0, ite_self]
  · rw [mReg, show rd ({} : Engine).m k (BitVec.allOnes 512) = _ from rd_replicate 8 k _, ite_self]
  · revert k
    decide

/-- The format registers and drain queues of an engine at reset (R21). -/
theorem reset_engine_formats (k : Nat) (h : k < 4) : rd ({} : Engine).fm k 0 = 6 ∧ rd ({} : Engine).oq k [] = [] := by
  revert k
  decide

/-- The g registers of a context at reset, outside handler mode (R46). -/
theorem reset_gReg (r : Reg) : gReg {} r = 0 := by
  rw [gReg, show rd ({} : GenCtx).g r.toNat 0 = 0 from rd_replicate 32 _ 0]
  simp

end Sys2Proof.Machine

open Sys2Proof Sys2Proof.Machine

/-- Settles O34: the tables of the package and the registers of every core, file by file. -/
theorem resetState : Obligations.ResetState := by
  unfold Obligations.ResetState
  refine ⟨rfl, rfl, rfl, rfl, rfl, rfl, rfl, fun n => rd_replicate 64 n _, fun n => rd_replicate 32 n _, fun _ => rfl, rfl, rfl, rfl,
    fun n => rd_replicate _ n _, fun n => rd_replicate 2 n _, fun n hn => ?core⟩
  case core =>
    intro c e
    have hc : c = { physical := n } := reset_core hn
    have he : e = {} := by simp only [e, hc]
    clear_value c e
    subst hc he
    refine ⟨rfl, rfl, rfl, rfl, rfl, rfl, rfl, rfl, rfl, rfl, rfl, rfl, rfl, rfl, rfl, rfl, reset_engine_registers, reset_engine_formats,
      fun sl => rd_replicate 6 _ _, fun x => ?context⟩
    case context =>
      rw [reset_gctx]
      exact ⟨reset_gReg, fun k => rd_replicate 12 k _, fun k => congrArg Loop.active (rd_replicate 4 k _), fun k => rd_replicate 6 k _,
        fun k => congrArg Fb.valid (rd_replicate 8 k _), rfl, rfl, rfl, rfl⟩
end

section
/-! O51, O12, O54, what the V ops share: slot issue under `SlotMay`, lanes of a register built lane by lane, the b operand and the pop. -/

namespace Sys2Proof.Machine

open Sys2Proof.Claims

/-! ### Issue under `SlotMay` (R61, R63, R76) -/

section
variable {s : State} {tagw : BitVec 8} {taga : BitVec 4} {body : State → Option (BitVec 3) → Iss}

/-- An op's own tag is clear, or it has none. -/
theorem tagSet_of_slotMay (h : SlotMay s tagw taga) : tagSet (curE s) (tagOf taga) = false := by
  obtain ⟨-, -, -, ht, -⟩ := h
  unfold tagOf
  split
  next h3 => exact ht h3
  next => rfl

theorem tagaOk_of_slotMay (h : SlotMay s tagw taga) : tagaOk taga = true := by
  obtain ⟨-, -, -, -, ht⟩ := h
  unfold tagaOk
  cases h3 : bitAt taga 3
  · rw [ht h3]
    rfl
  · rfl

theorem slotIssue_may (h : SlotMay s tagw taga) : slotIssue s tagw taga true true body = match body s (tagOf taga) with
    | .fault c a d0 d1 => .next (slotFault s c a d0 d1)
    | .wait => .next s
    | .go s' n => .next (issued s' n (tagOf taga)) :=
  slotIssue_ready body h.1 h.2.1 h.2.2.1 (tagSet_of_slotMay h) (tagaOk_of_slotMay h)

variable {f : VOp} {ok : Bool}

/-- A V op whose fields are good and whose body lets it go. -/
theorem vIssue_goes (h : SlotMay s f.tagw f.taga) (hok : ok = true) {s' : State} {n : Nat} (hb : body s (tagOf f.taga) = .go s' n) :
    vIssue s f ok body = .next (issued s' n (tagOf f.taga)) := by
  rw [vIssue, hok, slotIssue_may h, hb]

/-- A V op whose fields are good and whose body finds a fault. -/
theorem vIssue_faults (h : SlotMay s f.tagw f.taga) (hok : ok = true) {c : BitVec 9} {a d0 d1 : W64}
    (hb : body s (tagOf f.taga) = .fault c a d0 d1) : vIssue s f ok body = .next (slotFault s c a d0 d1) := by
  rw [vIssue, hok, slotIssue_may h, hb]

end

/-! ### Numbers built digit by digit -/

/-- The number with digits `f i % 2 ^ w` in base `2 ^ w`, for `i < n`. -/
def digitSum (w n : Nat) (f : Nat → Nat) : Nat := (List.range n).foldl (fun acc i => acc + f i % 2 ^ w * 2 ^ (w * i)) 0

theorem digitSum_succ (w n : Nat) (f : Nat → Nat) : digitSum w (n + 1) f = digitSum w n f + f n % 2 ^ w * 2 ^ (w * n) := by
  simp only [digitSum, List.range_succ, List.foldl_append, List.foldl_cons, List.foldl_nil]

theorem digitSum_lt (w n : Nat) (f : Nat → Nat) : digitSum w n f < 2 ^ (w * n) := by
  induction n with
  | zero => simp [digitSum]
  | succ n ih =>
    have hd : f n % 2 ^ w + 1 ≤ 2 ^ w := Nat.mod_lt _ (Nat.two_pow_pos w)
    calc digitSum w (n + 1) f < 2 ^ (w * n) + f n % 2 ^ w * 2 ^ (w * n) := by rw [digitSum_succ]; omega
      _ = (f n % 2 ^ w + 1) * 2 ^ (w * n) := by ring
      _ ≤ 2 ^ w * 2 ^ (w * n) := Nat.mul_le_mul_right _ hd
      _ = 2 ^ (w * (n + 1)) := by rw [← pow_add, Nat.mul_succ, Nat.add_comm]

/-- Each digit of the number. -/
theorem lane_digitSum {w n i : Nat} (f : Nat → Nat) (h : i < n) : lane (digitSum w n f) w i = f i % 2 ^ w := by
  induction n with
  | zero => exact absurd h (Nat.not_lt_zero i)
  | succ n ih =>
    rw [digitSum_succ, lane]
    rcases Nat.lt_succ_iff_lt_or_eq.1 h with h | rfl
    · obtain ⟨k, rfl⟩ := Nat.exists_eq_add_of_lt h
      have hsplit : 2 ^ (w * (i + k + 1)) = 2 ^ (w * i) * (2 ^ w * 2 ^ (w * k)) := by
        rw [← pow_add, ← pow_add]
        congr 1
        ring
      rw [hsplit, mul_left_comm, Nat.add_mul_div_left _ _ (Nat.two_pow_pos _), mul_left_comm, Nat.add_mul_mod_self_left]
      exact ih h
    · rw [Nat.add_mul_div_right _ _ (Nat.two_pow_pos _), Nat.div_eq_of_lt (digitSum_lt w i f), Nat.zero_add, Nat.mod_mod]

/-- Lane `i` of a register of `n` lanes. -/
theorem lane_ofLanes {w n i : Nat} (f : Nat → Nat) (hn : w * n ≤ 4096) (h : i < n) : lane (ofLanes w n f).toNat w i = f i % 2 ^ w := by
  show lane (BitVec.ofNat 4096 (digitSum w n f)).toNat w i = _
  rw [BitVec.toNat_ofNat, Nat.mod_eq_of_lt ((digitSum_lt w n f).trans_le (Nat.pow_le_pow_right two_pos hn)), lane_digitSum f h]

theorem lane_lt (v w i : Nat) : lane v w i < 2 ^ w := Nat.mod_lt _ (Nat.two_pow_pos w)

/-- The lane widths (R20). -/
theorem etw_cases (t : Nat) : etw t = 8 ∨ etw t = 16 ∨ etw t = 32 := by
  unfold etw
  split_ifs <;> simp

theorem etw_pos (t : Nat) : 0 < etw t := by rcases etw_cases t with h | h | h <;> omega

/-- The lanes of every width fill a register. -/
theorem etw_mul_lanes (t : Nat) : etw t * (4096 / etw t) = 4096 := by rcases etw_cases t with h | h | h <;> rw [h]

/-! ### The b operand (R65, R79, R149, R174) -/

/-- Freezing a bundle's broadcast operand does not change the element it gives. -/
theorem bcElem_freezeBc (s : State) (n : Nat) (i : BInfo) (t : Nat) : bcElem s n (freezeBc s n i) t = bcElem s n i t := by
  unfold freezeBc
  split
  next h =>
    have hne : i.bcsrc ≠ 2 := by rcases h with h | h <;> rw [h] <;> decide
    have h5 : ¬((5 : BitVec 3) = 2 ∧ (t = 6 ∨ t = 7)) := fun h => absurd h.1 (by decide)
    have hcond : ¬(i.bcsrc = 2 ∧ (t = 6 ∨ t = 7)) := fun h => hne h.1
    simp only [bcElem, if_neg hcond, if_neg h5]
    rfl
  next => rfl

/-- The four forms of the b operand (R79). -/
theorem bk_cases (b : BitVec 2) : b = 0 ∨ b = 1 ∨ b = 2 ∨ b = 3 := by
  revert b
  decide

/-- Where the b operand's vector exists, the op reads the lanes that the statements name. -/
theorem bVec_eq_bLane {s : State} {f : VOp} (hb : f.bk = 2 → f.b.toNat < 8) (row : V4096) (n : Nat) :
    bVec s s.cur.core f (freezeBc s s.cur.core s.cur.info) row 0 n = bLane s f row n := by
  rcases bk_cases f.bk with h | h | h | h
  · simp only [bVec, bLane, h]
    rfl
  · simp only [bVec, bLane, h]
    exact bcElem_freezeBc _ _ _ _
  · simp only [bVec, bLane, h, Nat.mod_eq_of_lt (hb h)]
    rfl
  · simp only [bVec, bLane, h]
    rfl

/-- An integer lane of the b operand is no wider than the type. -/
theorem bLane_lt {s : State} {f : VOp} (ht : f.etype.toNat ≤ 5) (row : V4096) (n : Nat) : bLane s f row n < 2 ^ wOf f := by
  unfold bLane
  split
  next => exact lane_lt _ _ _
  next =>
    have hf : ¬(s.cur.info.bcsrc = 2 ∧ (f.etype.toNat = 6 ∨ f.etype.toNat = 7)) := by omega
    rw [bcElem, if_neg hf]
    exact Nat.mod_lt _ (Nat.two_pow_pos _)
  next => exact lane_lt _ _ _
  next => exact lane_lt _ _ _

/-- An op that pops goes on with the row popped. -/
theorem withPop_of_pops {s s' : State} {f : VOp} {row : V4096} (h : Pops s f s' row) (k : State → V4096 → Iss) :
    withPop s f k = k s' row := by
  unfold Pops at h
  unfold withPop
  by_cases hbk : f.bk = 3
  · rw [if_pos hbk] at h ⊢
    obtain ⟨rest, hq, hn, rfl⟩ := h
    unfold popRow
    simp only [hq]
    exact if_neg (Nat.not_lt.2 hn)
  · rw [if_neg hbk] at h ⊢
    obtain ⟨rfl, rfl⟩ := h
    rfl

/-- A b operand of the statements' form meets the field checks of the op. -/
theorem bkOk_of_bOk {f : VOp} (pops : Bool) (h : BOk f !pops) : bkOk f pops = true := by
  obtain ⟨h1, h2, h3, -⟩ := h
  rcases bk_cases f.bk with hbk | hbk | hbk | hbk
  · simp [bkOk, hbk]
  · simp [bkOk, hbk, h1 hbk]
  · simp [bkOk, hbk, h2 hbk]
  · obtain ⟨hp, hc⟩ := h3 hbk
    simp [bkOk, hbk, hc, Bool.not_eq_eq_eq_not.1 hp]

theorem cFree_of_bOk {f : VOp} (h : BOk f false) : cFree f = true := by
  obtain ⟨-, -, -, h4⟩ := h
  by_cases hbk : f.bk = 3
  · simp [cFree, hbk]
  · simp [cFree, h4 rfl hbk]

/-! ### Elementwise ops (R150) -/

/-- The registers of every beat exist. -/
theorem beyond_eq_false {f : VOp} {r : BitVec 5} (h : r.toNat + f.beats.toNat ≤ 31) : beyond f r = false :=
  decide_eq_false (Nat.not_lt.2 h)

theorem beyondAB_eq_false {f : VOp} (h : BeatsOk f) : beyondAB f = false := by
  obtain ⟨hd, ha, hb, -⟩ := h
  simp only [beyondAB, beyond_eq_false hd, beyond_eq_false ha, Bool.false_or, Bool.and_eq_false_imp, beq_iff_eq]
  exact fun hbk => beyond_eq_false (hb hbk)

/-- An op of one or more beats issues with the lanes of beat 0. -/
theorem beatIssue_lanes {s s' : State} {i : Instr} {f : VOp} {ok out : Bool} {lat : Nat} {sel : State → M512}
    {fn : Nat → Nat → Nat → Nat → Nat} {row : V4096} (h : SlotMay s f.tagw f.taga) (hok : ok = true) (hout : out = false)
    (hbeats : f.beats ≠ 0 → f.bk = 0 ∨ f.bk = 1) (hp : Pops s f s' row) :
    beatIssue s i f ok out lat sel (laneBeat f fn) = .next (elementwise s s' i f lat (sel s)
      (ofLanes (wOf f) (4096 / wOf f) fun n => fn (if laneOn (sel s) (wOf f) n then 1 else 0) (vLane s f f.a.toNat n)
        (bVec s s.cur.core f (freezeBc s s.cur.core s.cur.info) row 0 n) (vLane s f f.c.toNat n))) := by
  have hfields : (ok && (f.beats == 0 || f.bk == 0 || f.bk == 1)) = true := by
    by_cases h0 : f.beats = 0
    · simp [hok, h0]
    · rcases hbeats h0 with hb | hb <;> simp [hok, hb]
  have hcur : s'.cur = s.cur := by
    unfold Pops at hp
    split at hp
    · obtain ⟨rest, -, -, rfl⟩ := hp
      rfl
    · rw [hp.1]
  rw [beatIssue, vIssue, hfields, slotIssue_may h, hout]
  simp only [Bool.false_eq_true, if_false, withPop_of_pops hp, landGo, elementwise, started, landed]
  by_cases h0 : f.beats = 0
  · simp only [h0, if_true]
    rfl
  · simp only [h0, if_false]
    rfl

/-- An elementwise op computes `fn'` when its lane function gives the same bits on lanes of the op's width. -/
theorem elementwise_of_lanes {s : State} {i : Instr} {f : VOp} {ok out : Bool} {lat : Nat} {sel : State → M512}
    {fn fn' : Nat → Nat → Nat → Nat → Nat} (h : SlotMay s f.tagw f.taga)
    (hexec : exec i s = beatIssue s i f ok out lat sel (laneBeat f fn)) (hok : ok = true) (hout : out = false)
    (hbeats : f.beats ≠ 0 → f.bk = 0 ∨ f.bk = 1) (hb : f.bk = 2 → f.b.toNat < 8)
    (hfn : ∀ n a b c, a < 2 ^ wOf f → (f.etype.toNat ≤ 5 → b < 2 ^ wOf f) → c < 2 ^ wOf f →
      fn (if laneOn (sel s) (wOf f) n then 1 else 0) a b c % 2 ^ wOf f = fn' n a b c % 2 ^ wOf f) :
    Elementwise s i f lat (sel s) fn' := by
  intro s' row hp
  refine ⟨_, hexec.trans (beatIssue_lanes h hok hout hbeats hp), fun n hn => ?_⟩
  have hw : wOf f * (4096 / wOf f) ≤ 4096 := (etw_mul_lanes _).le
  rw [lane_ofLanes _ hw hn, bVec_eq_bLane hb]
  exact hfn _ _ _ _ (lane_lt _ _ _) (fun ht => bLane_lt ht _ _) (lane_lt _ _ _)

end Sys2Proof.Machine
end

section
/-! O51: the lane functions of R151 against the exact functions of the lanes' values. -/

namespace Sys2Proof.Machine

open Sys2Proof.Claims

/-! ### The values of integer lanes (R20, R151) -/

/-- A type is signed when its lowest bit is clear. -/
theorem etSigned_eq (f : VOp) : etSigned f.etype.toNat = !f.etype.getLsbD 0 := by
  rw [etSigned, BitVec.getLsbD, Nat.testBit_zero]
  rcases Nat.mod_two_eq_zero_or_one f.etype.toNat with h | h <;> simp [h]

theorem signedOf_lane (f : VOp) (a : Nat) : signedOf (wOf f) a = (BitVec.ofNat (wOf f) a).toInt := signedOf_eq_toInt _ _ (etw_pos _)

/-- A lane has the value that the statements give it. -/
theorem laneInt_eq_valOf (f : VOp) {a : Nat} (ha : a < 2 ^ wOf f) : laneInt f.etype.toNat a = valOf f a := by
  rw [laneInt, etSigned_eq, valOf, ← signedOf_lane]
  cases f.etype.getLsbD 0
  · rfl
  · exact congrArg Int.ofNat (Nat.mod_eq_of_lt ha)

/-- A lane's value has the lane's bits. -/
theorem valOf_modEq (f : VOp) (a : Nat) : valOf f a ≡ a [ZMOD (2 ^ wOf f : Nat)] := by
  unfold valOf
  split
  · rfl
  · rw [BitVec.toInt_ofNat']
    exact Int.bmod_emod ..

/-! ### Wrapping and clamping (R151) -/

theorem wrapLane_eq (f : VOp) (x : Int) : wrapLane f x = wrap (wOf f) x := rfl

theorem wrap_cast (w : Nat) (x : Int) : (wrap w x : Int) = x % (2 ^ w : Nat) :=
  Int.toNat_of_nonneg (Int.emod_nonneg _ (by positivity))

theorem wrap_lt (w : Nat) (x : Int) : wrap w x < 2 ^ w := by
  have h := Int.emod_lt_of_pos x (show (0 : Int) < (2 ^ w : Nat) by positivity)
  rw [← wrap_cast] at h
  exact_mod_cast h

@[simp] theorem wrap_mod (w : Nat) (x : Int) : wrap w x % 2 ^ w = wrap w x := Nat.mod_eq_of_lt (wrap_lt w x)

/-- Integers that agree modulo the lane's range wrap to the same bits. -/
theorem wrap_eq_mod {w n : Nat} {x : Int} (h : x ≡ n [ZMOD (2 ^ w : Nat)]) : wrap w x = n % 2 ^ w := by
  have hc : (wrap w x : Int) = (n % 2 ^ w : Nat) := by rw [wrap_cast, h, Int.natCast_mod]
  exact_mod_cast hc

theorem wrap_valOf (f : VOp) (a : Nat) : wrap (wOf f) (valOf f a) = a % 2 ^ wOf f := wrap_eq_mod (valOf_modEq f a)

/-- Clamping to a range, with `min` and `max`. -/
theorem clampInt_eq {lo hi : Int} (h : lo ≤ hi) (x : Int) : clampInt lo hi x = max lo (min hi x) := by
  unfold clampInt
  split_ifs <;> omega

/-- The range of an integer type (R20). -/
theorem laneRange_clamp (signed : Bool) (w : Nat) (x : Int) :
    clampInt (laneRange signed w).1 (laneRange signed w).2 x =
      if signed then max (-2 ^ (w - 1)) (min (2 ^ (w - 1) - 1) x) else max 0 (min (2 ^ w - 1) x) := by
  have h1 (n : Nat) : (1 : Int) ≤ 2 ^ n := by exact_mod_cast Nat.one_le_two_pow
  have hc (n : Nat) : ((2 ^ n - 1 : Nat) : Int) = 2 ^ n - 1 := by rw [Nat.cast_sub Nat.one_le_two_pow]; simp
  cases signed
  · simp only [laneRange, Bool.false_eq_true, if_false, hc]
    exact clampInt_eq (by linarith [h1 w]) x
  · simp only [laneRange, if_true, hc, Nat.cast_pow, Nat.cast_ofNat]
    exact clampInt_eq (by linarith [h1 (w - 1)]) x

theorem clampLane_eq (f : VOp) (x : Int) : clampLane f x = clamp f x := by
  show wrap (wOf f) (clampInt (laneRange (etSigned f.etype.toNat) (wOf f)).1 (laneRange (etSigned f.etype.toNat) (wOf f)).2 x) = _
  rw [laneRange_clamp, etSigned_eq, clamp]
  cases f.etype.getLsbD 0 <;> rfl

theorem finLane_eq (f : VOp) (x : Int) : finLane f x = fin f x := by
  rw [finLane, fin, clampLane_eq, wrapLane_eq]

/-- Above and below the range of a type every integer clamps alike. -/
theorem clamp_of_ge (f : VOp) {x : Int} (h : 2 ^ wOf f ≤ x) : clamp f x = clamp f (2 ^ wOf f) := by
  have hp : (2 : Int) ^ (wOf f - 1) ≤ 2 ^ wOf f := pow_le_pow_right₀ (by norm_num) (Nat.sub_le _ _)
  simp only [clamp]
  split
  · rw [min_eq_left (by linarith : (2 : Int) ^ wOf f - 1 ≤ x), min_eq_left (by linarith : (2 : Int) ^ wOf f - 1 ≤ 2 ^ wOf f)]
  · rw [min_eq_left (by linarith : (2 : Int) ^ (wOf f - 1) - 1 ≤ x), min_eq_left (by linarith : (2 : Int) ^ (wOf f - 1) - 1 ≤ 2 ^ wOf f)]

theorem clamp_of_le (f : VOp) {x : Int} (h : x ≤ -2 ^ wOf f) : clamp f x = clamp f (-2 ^ wOf f) := by
  have hp : (2 : Int) ^ (wOf f - 1) ≤ 2 ^ wOf f := pow_le_pow_right₀ (by norm_num) (Nat.sub_le _ _)
  have h0 : (0 : Int) < 2 ^ wOf f := by positivity
  simp only [clamp]
  split
  · rw [max_eq_left ((min_le_right _ _).trans (by linarith)), max_eq_left ((min_le_right _ _).trans (by linarith))]
  · rw [max_eq_left ((min_le_right _ _).trans (by linarith)), max_eq_left ((min_le_right _ _).trans (by linarith))]

/-! ### Lane functions (R151)

Each is the function of the statement, up to the lane's width. -/

section
variable (f : VOp) {a b : Nat} (n c : Nat)

theorem laneVadd_mod (ha : a < 2 ^ wOf f) (hb : b < 2 ^ wOf f) : laneVadd f n a b c % 2 ^ wOf f = (a + b) % 2 ^ wOf f := by
  rw [laneVadd, lane2, wrapLane_eq, wrap_mod, laneInt_eq_valOf f ha, laneInt_eq_valOf f hb]
  refine wrap_eq_mod ?_
  push_cast
  exact (valOf_modEq f a).add (valOf_modEq f b)

theorem laneVsub_mod (ha : a < 2 ^ wOf f) (hb : b < 2 ^ wOf f) :
    laneVsub f n a b c % 2 ^ wOf f = (a + 2 ^ wOf f - b) % 2 ^ wOf f := by
  rw [laneVsub, lane2, wrapLane_eq, wrap_mod, laneInt_eq_valOf f ha, laneInt_eq_valOf f hb]
  refine wrap_eq_mod ?_
  have hcast : ((a + 2 ^ wOf f - b : Nat) : Int) = a - b + (2 ^ wOf f : Nat) := by omega
  rw [hcast]
  exact ((valOf_modEq f a).sub (valOf_modEq f b)).trans (Int.add_emod_right _ _).symm

theorem laneVmul_mod (ha : a < 2 ^ wOf f) (hb : b < 2 ^ wOf f) :
    laneVmul f n a b c % 2 ^ wOf f = fin f (valOf f a * valOf f b) % 2 ^ wOf f := by
  rw [laneVmul, lane2, finLane_eq, laneInt_eq_valOf f ha, laneInt_eq_valOf f hb]

theorem laneVmulh_mod (ha : a < 2 ^ wOf f) (hb : b < 2 ^ wOf f) :
    laneVmulh f n a b c % 2 ^ wOf f = wrap (wOf f) (valOf f a * valOf f b / (2 ^ wOf f : Nat)) % 2 ^ wOf f := by
  rw [laneVmulh, lane2, wrapLane_eq, laneInt_eq_valOf f ha, laneInt_eq_valOf f hb, Int.fdiv_eq_ediv_of_nonneg _ (Int.natCast_nonneg _)]
  rfl

theorem laneVmad_mod (ha : a < 2 ^ wOf f) (hb : b < 2 ^ wOf f) {c : Nat} (hc : c < 2 ^ wOf f) :
    laneVmad f n a b c % 2 ^ wOf f = fin f ((if f.neg.getLsbD 0 then -(valOf f a * valOf f b) else valOf f a * valOf f b) +
      if f.neg.getLsbD 1 then -valOf f c else valOf f c) % 2 ^ wOf f := by
  simp only [laneVmad, finLane_eq, laneInt_eq_valOf f ha, laneInt_eq_valOf f hb, laneInt_eq_valOf f hc]
  rfl

theorem laneVsadd_mod (ha : a < 2 ^ wOf f) (hb : b < 2 ^ wOf f) :
    laneVsadd f n a b c % 2 ^ wOf f = clamp f (valOf f a + valOf f b) % 2 ^ wOf f := by
  rw [laneVsadd, lane2, clampLane_eq, laneInt_eq_valOf f ha, laneInt_eq_valOf f hb]

theorem laneVssub_mod (ha : a < 2 ^ wOf f) (hb : b < 2 ^ wOf f) :
    laneVssub f n a b c % 2 ^ wOf f = clamp f (valOf f a - valOf f b) % 2 ^ wOf f := by
  rw [laneVssub, lane2, clampLane_eq, laneInt_eq_valOf f ha, laneInt_eq_valOf f hb]

theorem laneVmin_mod (ha : a < 2 ^ wOf f) (hb : b < 2 ^ wOf f) :
    laneVmin f n a b c % 2 ^ wOf f = (if valOf f a ≤ valOf f b then a else b) % 2 ^ wOf f := by
  rw [laneVmin, lane2, wrapLane_eq, wrap_mod, laneInt_eq_valOf f ha, laneInt_eq_valOf f hb]
  split
  next h => rw [min_eq_left h, wrap_valOf]
  next h => rw [min_eq_right (not_le.1 h).le, wrap_valOf]

theorem laneVmax_mod (ha : a < 2 ^ wOf f) (hb : b < 2 ^ wOf f) :
    laneVmax f n a b c % 2 ^ wOf f = (if valOf f a ≤ valOf f b then b else a) % 2 ^ wOf f := by
  rw [laneVmax, lane2, wrapLane_eq, wrap_mod, laneInt_eq_valOf f ha, laneInt_eq_valOf f hb]
  split
  next h => rw [max_eq_right h, wrap_valOf]
  next h => rw [max_eq_left (not_le.1 h).le, wrap_valOf]

theorem laneVabs_mod (ha : a < 2 ^ wOf f) : laneVabs f n a b c % 2 ^ wOf f = fin f |valOf f a| % 2 ^ wOf f := by
  simp only [laneVabs, lane2, finLane_eq, laneInt_eq_valOf f ha]
  split
  next h => rw [abs_of_neg h]
  next h => rw [abs_of_nonneg (not_lt.1 h)]

/-- VSHL under SAT: from the width on, an amount takes every nonzero lane beyond the range. -/
theorem laneVshl_saturates (ha : a < 2 ^ wOf f) (hsat : f.sat = 1) : laneVshl f n a b c = clamp f (valOf f a * (2 ^ b : Nat)) := by
  simp only [laneVshl, if_pos hsat, clampLane_eq, laneInt_eq_valOf f ha]
  split
  next hb =>
    have hp : (2 : Int) ^ wOf f ≤ 2 ^ b := pow_le_pow_right₀ (by norm_num) hb
    have h2 : (2 : Int) ^ wOf f ≤ (2 ^ (2 * etw f.etype.toNat) : Nat) := by
      exact_mod_cast Nat.pow_le_pow_right two_pos (Nat.le_mul_of_pos_left (wOf f) two_pos)
    rcases lt_trichotomy (valOf f a) 0 with h | h | h
    · have hx : valOf f a * (2 ^ b : Nat) ≤ -2 ^ wOf f := by push_cast; nlinarith
      rw [if_neg h.ne, if_pos h, clamp_of_le f (neg_le_neg h2), clamp_of_le f hx]
    · simp [h]
    · have hx : 2 ^ wOf f ≤ valOf f a * (2 ^ b : Nat) := by push_cast; nlinarith
      rw [if_neg h.ne', if_neg h.not_gt, clamp_of_ge f h2, clamp_of_ge f hx]
  next => rfl

theorem laneVshl_mod (ha : a < 2 ^ wOf f) :
    laneVshl f n a b c % 2 ^ wOf f = (if f.sat = 1 then clamp f (valOf f a * (2 ^ b : Nat)) else a * 2 ^ b) % 2 ^ wOf f := by
  by_cases hsat : f.sat = 1
  · rw [laneVshl_saturates f n c ha hsat, if_pos hsat]
  · simp only [laneVshl, if_neg hsat]
    split
    next hb =>
      obtain ⟨k, rfl⟩ := Nat.exists_eq_add_of_le hb
      rw [Nat.zero_mod, pow_add, mul_left_comm]
      exact (Nat.mul_mod_right _ _).symm
    next => exact Nat.mod_mod _ _

theorem laneVshr_eq (ha : a < 2 ^ wOf f) : laneVshr f n a b c = a / 2 ^ b := by
  simp only [laneVshr]
  split
  next hb => exact (Nat.div_eq_of_lt (ha.trans_le (Nat.pow_le_pow_right two_pos hb))).symm
  next => rfl

/-- A shift by the width or more leaves the sign alone. -/
theorem ediv_two_pow_of_le {x : Int} {w s : Nat} (hl : -2 ^ w ≤ x) (hu : x < 2 ^ w) (hs : w ≤ s) : x / 2 ^ s = x / 2 ^ w := by
  have hp : (2 : Int) ^ w ≤ 2 ^ s := pow_le_pow_right₀ (by norm_num) hs
  rcases lt_or_ge x 0 with h | h
  · rw [Int.ediv_eq_neg_one_of_neg_of_le h (by linarith), Int.ediv_eq_neg_one_of_neg_of_le h (by linarith)]
  · rw [Int.ediv_eq_zero_of_lt h (hu.trans_le hp), Int.ediv_eq_zero_of_lt h hu]

theorem laneVsra_mod : laneVsra f n a b c % 2 ^ wOf f = wrap (wOf f) ((BitVec.ofNat (wOf f) a).toInt / (2 ^ b : Nat)) % 2 ^ wOf f := by
  show wrap (wOf f) (Int.fdiv (signedOf (wOf f) a) (2 ^ min b (wOf f) : Nat)) % _ = _
  rw [signedOf_lane, Int.fdiv_eq_ediv_of_nonneg _ (Int.natCast_nonneg _)]
  rcases le_total b (wOf f) with h | h
  · rw [min_eq_left h]
  · have hu := (BitVec.ofNat (wOf f) a).two_mul_toInt_lt
    have hl := (BitVec.ofNat (wOf f) a).le_two_mul_toInt
    have h0 : (0 : Int) < 2 ^ wOf f := by positivity
    rw [min_eq_right h]
    push_cast
    rw [ediv_two_pow_of_le (by linarith) (by linarith) h]

theorem laneVclz_eq : laneVclz f n a b c = if a = 0 then wOf f else wOf f - 1 - Nat.log2 a := by
  rw [laneVclz, bitlen]
  split
  · rfl
  · rw [Nat.add_comm, Nat.sub_add_eq]
    rfl

theorem laneVpopc_eq : laneVpopc f n a b c = (List.range (wOf f)).countP a.testBit := List.countP_eq_length_filter.symm

end

/-! ### Elementwise ops -/

section
variable {s : State} {f : VOp} {i : Instr} {lat : Nat} {ok : Bool} {fn : Nat → Nat → Nat → Nat → Nat} {fn' : Nat → Nat → Nat → Nat}

/-- An op of two operands under its fields' conditions computes what its lane function gives on lanes of its width. -/
theorem elem2_elementwise (h : SlotMay s f.tagw f.taga) (hbeats : BeatsOk f) (hb : BOk f false) (hok : ok = true)
    (hexec : exec i s = elem2 s i f ok lat fn)
    (hfn : ∀ n a b c, a < 2 ^ wOf f → (f.etype.toNat ≤ 5 → b < 2 ^ wOf f) → fn n a b c % 2 ^ wOf f = fn' a b c % 2 ^ wOf f) :
    Elementwise s i f lat 0 fun _ a b c => fn' a b c :=
  elementwise_of_lanes (sel := fun _ => 0) h hexec hok (beyondAB_eq_false hbeats) hbeats.2.2.2 hb.2.1
    fun _ a b c ha hb _ => hfn _ a b c ha hb

/-- An op of one operand. -/
theorem elem1_elementwise (h : SlotMay s f.tagw f.taga) (hbeats : BeatsOk f) (hok : ok = true) (hbk : f.bk = 0) (hb : f.b = 0)
    (hc : f.c = 0) (hexec : exec i s = elem1 s i f ok lat fn)
    (hfn : ∀ n a b c, a < 2 ^ wOf f → fn n a b c % 2 ^ wOf f = fn' a b c % 2 ^ wOf f) :
    Elementwise s i f lat 0 fun _ a b c => fn' a b c := by
  obtain ⟨hd, ha, -, -⟩ := hbeats
  refine elementwise_of_lanes (sel := fun _ => 0) h hexec (by simp [hok, noB, hbk, hb, hc]) ?_ (fun _ => .inl hbk) (by simp [hbk])
    fun _ a b c ha _ _ => hfn _ a b c ha
  rw [beyond_eq_false hd, beyond_eq_false ha, Bool.or_false]

/-- An op of three operands. -/
theorem elem3_elementwise (h : SlotMay s f.tagw f.taga) (hbeats : BeatsOk f) (hc : f.c.toNat + f.beats.toNat ≤ 31) (hb : BOk f true)
    (hok : ok = true) (hexec : exec i s = beatIssue s i f ok (beyondAB f || beyond f f.c) lat (fun _ => 0) (laneBeat f fn))
    (hfn : ∀ n a b c, a < 2 ^ wOf f → (f.etype.toNat ≤ 5 → b < 2 ^ wOf f) → c < 2 ^ wOf f →
      fn n a b c % 2 ^ wOf f = fn' a b c % 2 ^ wOf f) :
    Elementwise s i f lat 0 fun _ a b c => fn' a b c :=
  elementwise_of_lanes (sel := fun _ => 0) h hexec hok (by rw [beyondAB_eq_false hbeats, beyond_eq_false hc, Bool.or_false])
    hbeats.2.2.2 hb.2.1 fun _ a b c ha hb hc => hfn _ a b c ha hb hc

end

/-- R150, R151: the elementwise integer ops. -/
theorem vectorElementwiseInteger : VectorElementwiseInteger := by
  intro s f h ht hrnd hx hbeats w v sgn op
  have hint : intOk f = true := by simp [intOk, ht, hrnd, hx]
  refine ⟨fun hsat hneg hb => ?plain, fun hneg hb => ?saturating, fun hb hc => ?mad, fun hneg hbk hb hc => ?unary⟩
  case plain =>
    have hok : plain2 f = true := by simp [plain2, hint, hsat, hneg, bkOk_of_bOk true hb, cFree_of_bOk hb]
    have two {i : Instr} {lat : Nat} {fn : Nat → Nat → Nat → Nat → Nat} {fn' : Nat → Nat → Nat → Nat}
        (hexec : exec i s = elem2 s i f (plain2 f) lat fn)
        (hfn : ∀ n a b c, a < 2 ^ wOf f → b < 2 ^ wOf f → fn n a b c % 2 ^ wOf f = fn' a b c % 2 ^ wOf f) : op i lat fn' :=
      elem2_elementwise h hbeats hb hok hexec fun n a b c ha hb => hfn n a b c ha (hb ht)
    exact ⟨two rfl fun n _ _ c ha hb => laneVadd_mod f n c ha hb, two rfl fun n _ _ c ha hb => laneVsub_mod f n c ha hb,
      two rfl fun n _ _ c ha hb => laneVmulh_mod f n c ha hb, two rfl fun n _ _ c ha hb => laneVsadd_mod f n c ha hb,
      two rfl fun n _ _ c ha hb => laneVssub_mod f n c ha hb, two rfl fun n _ _ c ha hb => laneVmin_mod f n c ha hb,
      two rfl fun n _ _ c ha hb => laneVmax_mod f n c ha hb, two rfl fun _ _ _ _ _ _ => rfl, two rfl fun _ _ _ _ _ _ => rfl,
      two rfl fun _ _ _ _ _ _ => rfl, two rfl fun n _ _ c ha _ => congrArg (· % _) (laneVshr_eq f n c ha),
      two rfl fun n _ _ c _ _ => laneVsra_mod f n c⟩
  case saturating =>
    have hok : (intOk f && f.neg == 0 && bkOk f true && cFree f) = true := by simp [hint, hneg, bkOk_of_bOk true hb, cFree_of_bOk hb]
    exact ⟨elem2_elementwise h hbeats hb hok rfl fun n _ _ c ha hb => laneVmul_mod f n c ha (hb ht),
      elem2_elementwise h hbeats hb hok rfl fun n _ _ c ha _ => laneVshl_mod f n c ha⟩
  case mad =>
    have hok : (intOk f && bkOk f false) = true := by simp [hint, bkOk_of_bOk false hb]
    exact elem3_elementwise h hbeats hc hb hok rfl fun n _ _ _ ha hb hc => laneVmad_mod f n ha (hb ht) hc
  case unary =>
    refine ⟨fun hs => ?_, fun hsat => ?_⟩
    · have hok : (intOk f && etSigned f.etype.toNat && f.neg == 0) = true := by simp only [hint, etSigned_eq, hs, hneg]; rfl
      exact elem1_elementwise h hbeats hok hbk hb hc rfl fun n _ _ c ha => laneVabs_mod f n c ha
    · have hok : (intOk f && f.sat == 0 && f.neg == 0) = true := by simp [hint, hsat, hneg]
      exact ⟨elem1_elementwise h hbeats hok hbk hb hc rfl fun n _ _ c _ => congrArg (· % _) (laneVclz_eq f n c),
        elem1_elementwise h hbeats hok hbk hb hc rfl fun n _ _ c _ => congrArg (· % _) (laneVpopc_eq f n c)⟩

/-- R150, R151, R12: VSEL and VMOV. -/
theorem vectorSelectAndMove : VectorSelectAndMove := by
  intro s f h ht hrnd hx hsat hneg hd hbb hbeats
  have hany : anyType f = true := by simp [anyType, ht, hrnd, hsat, hneg]
  refine ⟨fun ha hb hc => ?sel, fun ha hb => ?mov⟩
  case sel =>
    refine elementwise_of_lanes (sel := fun s => mReg (curE s) f.c.toNat) h rfl (by simp [hany, hx, bkOk_of_bOk false hb, hc])
      (beyondAB_eq_false ⟨hd, ha, hbb, hbeats⟩) hbeats hb.2.1 fun n a b c _ _ _ => congrArg (· % _) ?_
    show (if (if laneOn _ (wOf f) n then 1 else 0) = 1 then a else b) = if laneOn _ (wOf f) n then a else b
    cases laneOn (mReg (curE s) f.c.toNat) (wOf f) n <;> rfl
  case mov =>
    refine elementwise_of_lanes (sel := fun _ => 0) h rfl (by simp [hany, hx, ha, bkOk_of_bOk true hb, cFree_of_bOk hb]) ?_ hbeats hb.2.1
      fun _ _ _ _ _ _ _ => rfl
    rw [beyond_eq_false hd, Bool.false_or, Bool.and_eq_false_imp]
    exact fun hbk => beyond_eq_false (hbb (beq_iff_eq.1 hbk))

end Sys2Proof.Machine

open Sys2Proof Sys2Proof.Machine

/-- Settles O51: the integer lane functions, and the moves of lanes. -/
theorem vectorLaneOps : Obligations.VectorLaneOps := by
  unfold Obligations.VectorLaneOps
  exact ⟨vectorElementwiseInteger, vectorSelectAndMove⟩
end

section
/-! O54: conversions of lanes, and elements packed into fields of a register and read from them. -/

namespace Sys2Proof.Machine

open Sys2Proof.Claims

/-! ### Fields of a register -/

theorem getLsbD_eq_testBit {w : Nat} (b : BitVec w) (j : Nat) : b.getLsbD j = b.toNat.testBit j := rfl

/-- A number with the field of `n` bits at `lo` replaced by `x`. -/
theorem testBit_field (hi x low lo n j : Nat) (hx : x < 2 ^ n) (hl : low < 2 ^ lo) :
    (2 ^ lo * (2 ^ n * hi + x) + low).testBit j =
      if j < lo then low.testBit j else if j < lo + n then x.testBit (j - lo) else hi.testBit (j - lo - n) := by
  rw [Nat.testBit_two_pow_mul_add _ hl, Nat.testBit_two_pow_mul_add _ hx]
  by_cases h : j < lo
  · simp [h]
  · have hj : j - lo < n ↔ j < lo + n := by omega
    simp [h, hj]

/-- The bits of a register with a field replaced. -/
theorem getLsbD_setBits {w lo n : Nat} (b : BitVec w) (v j : Nat) (h : lo + n ≤ w) :
    (setBits b lo n v).getLsbD j = if lo ≤ j ∧ j < lo + n then v.testBit (j - lo) else b.getLsbD j := by
  have hl : b.toNat % 2 ^ lo < 2 ^ lo := Nat.mod_lt _ (Nat.two_pow_pos lo)
  have hx (x : Nat) : x % 2 ^ n < 2 ^ n := Nat.mod_lt _ (Nat.two_pow_pos n)
  have hb : b.toNat = 2 ^ lo * (2 ^ n * (b.toNat / 2 ^ lo / 2 ^ n) + b.toNat / 2 ^ lo % 2 ^ n) + b.toNat % 2 ^ lo := by
    rw [Nat.div_add_mod, Nat.div_add_mod]
  have hset : b.toNat - b.toNat / 2 ^ lo % 2 ^ n * 2 ^ lo + v % 2 ^ n * 2 ^ lo =
      2 ^ lo * (2 ^ n * (b.toNat / 2 ^ lo / 2 ^ n) + v % 2 ^ n) + b.toNat % 2 ^ lo := by
    rw [Nat.mul_add] at hb ⊢
    rw [Nat.mul_comm (2 ^ lo) (b.toNat / 2 ^ lo % 2 ^ n)] at hb
    rw [Nat.mul_comm (2 ^ lo) (v % 2 ^ n)]
    omega
  rw [setBits, hset, BitVec.getLsbD_ofNat, testBit_field _ _ _ _ _ _ (hx v) hl, getLsbD_eq_testBit b]
  by_cases hj : j < w
  · conv_rhs => rw [hb, testBit_field _ _ _ _ _ _ (hx _) hl]
    rw [Nat.testBit_mod_two_pow]
    by_cases h1 : j < lo
    · simp [hj, h1, Nat.not_le.2 h1]
    · by_cases h2 : j < lo + n
      · simp [hj, h1, h2, Nat.not_lt.1 h1, (by omega : j - lo < n)]
      · simp [hj, h1, h2]
  · rw [if_neg (show ¬(lo ≤ j ∧ j < lo + n) by omega), ← getLsbD_eq_testBit, b.getLsbD_of_ge j (Nat.not_lt.1 hj)]
    simp [hj]

/-- The bits of a span of bytes. -/
theorem getLsbD_byteSpan {lo hi j : Nat} (h : lo ≤ hi) (hj : j < 512) : (byteSpan lo hi).getLsbD j = true ↔ lo ≤ j ∧ j < hi := by
  have hsplit : 2 ^ hi - 2 ^ min lo hi = (2 ^ (hi - lo) - 1) * 2 ^ lo := by
    rw [min_eq_left h, Nat.sub_mul, Nat.one_mul, ← pow_add, Nat.sub_add_cancel h]
  rw [byteSpan, hsplit, BitVec.getLsbD_ofNat, Nat.testBit_mul_two_pow, Nat.testBit_two_pow_sub_one]
  simp only [hj, decide_true, Bool.true_and, Bool.and_eq_true, decide_eq_true_eq]
  omega

section
variable {off w k : Nat} {on : Nat → Bool} {code : Nat → Nat} (old : V4096)

theorem putElems_succ (off w k : Nat) (on : Nat → Bool) (code : Nat → Nat) : putElems old off w (k + 1) on code =
    if on k then setBits (putElems old off w k on code) (off + w * k) w (code k) else putElems old off w k on code := by
  simp only [putElems, List.range_succ, List.foldl_append, List.foldl_cons, List.foldl_nil]

/-- Outside the elements that are placed a register keeps its bits. -/
theorem getLsbD_putElems_outside (hk : off + w * k ≤ 4096) {j : Nat}
    (hj : ∀ i, i < k → on i = true → ¬(off + w * i ≤ j ∧ j < off + w * (i + 1))) :
    (putElems old off w k on code).getLsbD j = old.getLsbD j := by
  induction k with
  | zero => rfl
  | succ k ih =>
    rw [Nat.mul_succ] at hk
    rw [putElems_succ]
    split
    next hon =>
      have hout := hj k (Nat.lt_succ_self k) hon
      rw [Nat.mul_succ, ← Nat.add_assoc] at hout
      rw [getLsbD_setBits _ _ _ (by omega), if_neg hout]
      exact ih (by omega) fun i hi => hj i (hi.trans (Nat.lt_succ_self k))
    next => exact ih (by omega) fun i hi => hj i (hi.trans (Nat.lt_succ_self k))

/-- A bit of an element that is placed. -/
theorem getLsbD_putElems_inside (hk : off + w * k ≤ 4096) {i r : Nat} (hi : i < k) (hon : on i = true) (hr : r < w) :
    (putElems old off w k on code).getLsbD (off + w * i + r) = (code i).testBit r := by
  induction k with
  | zero => exact absurd hi (Nat.not_lt_zero i)
  | succ k ih =>
    rw [Nat.mul_succ] at hk
    rw [putElems_succ]
    rcases Nat.lt_succ_iff_lt_or_eq.1 hi with h | rfl
    · have hle : w * i + w ≤ w * k := by rw [← Nat.mul_succ]; exact Nat.mul_le_mul_left w h
      split
      · rw [getLsbD_setBits _ _ _ (by omega), if_neg (by omega)]
        exact ih (by omega) h
      · exact ih (by omega) h
    · rw [if_pos hon, getLsbD_setBits _ _ _ (by omega), if_pos (by omega)]
      congr 1
      omega

/-- An element that is placed is read back. -/
theorem fieldOf_putElems (hk : off + w * k ≤ 4096) {i : Nat} (hi : i < k) (hon : on i = true) :
    fieldOf (putElems old off w k on code) (off + w * i) w = code i % 2 ^ w := by
  refine Nat.eq_of_testBit_eq fun r => ?_
  rw [fieldOf, Nat.testBit_mod_two_pow, Nat.testBit_mod_two_pow, Nat.testBit_div_two_pow]
  by_cases hr : r < w
  · rw [← getLsbD_putElems_inside old hk hi hon hr, getLsbD_eq_testBit, Nat.add_comm r]
  · simp [hr]

/-- Which bits a pack writes: those of the elements that are placed. -/
theorem getLsbD_putElems_ones (hk : off + w * k ≤ 4096) (j : Nat) :
    (putElems 0 off w k on fun _ => 2 ^ w - 1).getLsbD j = true ↔ ∃ i, i < k ∧ on i = true ∧ off + w * i ≤ j ∧ j < off + w * (i + 1) := by
  constructor
  · intro h
    by_contra hne
    rw [getLsbD_putElems_outside 0 hk fun i hi hon hj => hne ⟨i, hi, hon, hj⟩] at h
    simp at h
  · rintro ⟨i, hi, hon, hlo, hhi⟩
    obtain ⟨r, rfl⟩ := Nat.exists_eq_add_of_le hlo
    rw [Nat.mul_succ] at hhi
    have hr : r < w := by omega
    rw [getLsbD_putElems_inside 0 hk hi hon hr, Nat.testBit_two_pow_sub_one]
    exact decide_eq_true hr

end

/-- Lanes shifted up by whole lanes. -/
theorem lane_ofLanes_shift {w k d i : Nat} (f : Nat → Nat) (hk : w * (d + k) ≤ 4096) (hi : i < k) :
    lane (ofLanes w k f <<< (d * w)).toNat w (d + i) = f i % 2 ^ w := by
  have hle : w * k ≤ 4096 := (Nat.mul_le_mul_left w (Nat.le_add_left k d)).trans hk
  have hlt : (ofLanes w k f).toNat * 2 ^ (w * d) < 2 ^ 4096 := by
    have hd : (ofLanes w k f).toNat < 2 ^ (w * k) := (Nat.mod_le _ _).trans_lt (digitSum_lt w k f)
    calc (ofLanes w k f).toNat * 2 ^ (w * d) < 2 ^ (w * k) * 2 ^ (w * d) := Nat.mul_lt_mul_of_pos_right hd (Nat.two_pow_pos _)
      _ = 2 ^ (w * (d + k)) := by rw [← pow_add]; congr 1; ring
      _ ≤ 2 ^ 4096 := Nat.pow_le_pow_right two_pos hk
  rw [BitVec.toNat_shiftLeft, Nat.shiftLeft_eq, Nat.mul_comm d w, Nat.mod_eq_of_lt hlt, lane, Nat.mul_add, pow_add,
    Nat.mul_comm (2 ^ (w * d)), Nat.mul_div_mul_right _ _ (Nat.two_pow_pos _)]
  exact lane_ofLanes f hle hi

end Sys2Proof.Machine
end

section
/-! O54: VCVT's three forms, and the block packs and unpacks. -/

namespace Sys2Proof.Machine

open Sys2Proof.Claims

/-! ### Converted lanes (R28, R29) -/

/-- Conversion into a lane is the clamped or wrapped integer, or the rounded float, of the statement. -/
theorem toLane_eq_intoLane (td : Nat) (mode : Rnd) (sat : Bool) (x : Num) (int : Option Int) :
    toLane td mode sat x int = intoLane td mode sat x int := by
  have hclamp (v : Int) : unsignedOf (etw td) (clampInt (laneRange (etSigned td) (etw td)).1 (laneRange (etSigned td) (etw td)).2 v) =
      if td % 2 = 1 then wrap (etw td) (max 0 (min (2 ^ etw td - 1) v))
      else wrap (etw td) (max (-2 ^ (etw td - 1)) (min (2 ^ (etw td - 1) - 1) v)) := by
    rw [laneRange_clamp, etSigned]
    rcases Nat.mod_two_eq_zero_or_one td with h | h <;> simp only [h] <;> rfl
  simp only [toLane, intoLane, hclamp]
  split
  · cases int <;> rfl
  · rfl

/-- A lane as a value, and as an exact integer where it is one. -/
theorem laneValue_eq (t c : Nat) : laneValue t c = (laneNum t c, laneInteger t c) := by
  unfold laneValue laneNum laneInteger
  split <;> rfl

/-! ### Format registers (R21 to R24) -/

theorem withFm_read {s : State} {k : Nat} {v : BitVec 32} (h : fmRead s s.cur.core s.cur.info k = some v) (go : BitVec 32 → Iss) :
    withFm s k go = go v := by
  rw [withFm, h]

section
variable {v : BitVec 32} {accepts : Nat → Bool}

theorem fmFault_invalid (h : fmValid v = false) : fmFault v accepts = some 6 := by simp [fmFault, h]

theorem fmFault_foreign (h : fmValid v = true) (ha : accepts (fmFamily v) = false) : fmFault v accepts = some 1 := by simp [fmFault, h, ha]

theorem fmFault_none (h : fmValid v = true) (ha : accepts (fmFamily v) = true) : fmFault v accepts = none := by simp [fmFault, h, ha]

end

/-! ### VCVT (R166 to R168) -/

section
variable {s : State} {f : VOp} (h : SlotMay s f.tagw f.taga) (ht : f.etype.toNat ≤ 8) (hneg : f.neg = 0) (hbeats : f.beats = 0)
  (hbk : f.bk = 0) (hb : f.b = 0)

/-- The form and the part of a VCVT. -/
theorem xtra_form (x : BitVec 6) : bits x 0 2 = x.toNat % 4 ∧ bits x 2 4 = x.toNat / 4 := by
  have := x.isLt
  constructor <;> simp only [bits] <;> omega

include h ht hneg hbeats hbk hb in
/-- The lane form. -/
theorem execVcvt_lanes (hform : f.xtra.toNat % 4 = 0) (htd : f.c.toNat ≤ 8)
    (hp : f.xtra.toNat / 4 < max (etw f.etype.toNat) (etw f.c.toNat) / min (etw f.etype.toNat) (etw f.c.toNat)) :
    let t := f.etype.toNat
    let td := f.c.toNat
    let ws := etw t
    let wd := etw td
    let p := f.xtra.toNat / 4
    let a := (vReg (curE s) f.a.toNat).toNat
    let k := 4096 / max ws wd
    let src := if ws ≤ wd then p * k else 0
    let dst := if ws ≤ wd then 0 else p * k
    execVcvt f s = .next (landed s f.taga 3 1 [.v f.dst.toNat
      (ofLanes wd k (fun i => toLane td (rndOf f.rnd) (f.sat == 1) (laneNum t (lane a ws (src + i))) (laneInteger t (lane a ws (src + i))))
        <<< (dst * wd))
      (spread (mReg (curE s) f.msk.toNat) wd &&& byteSpan (dst * (wd / 8)) ((dst + k) * (wd / 8)))]) := by
  intro t td ws wd p a k src dst
  obtain ⟨hx0, hx2⟩ := xtra_form f.xtra
  refine vIssue_goes h ?_ ?_
  · simp [ht, hneg, hbeats, noB, hbk, hb, hx0, hx2, hform, htd, hp]
  · simp only [hx0, hx2, hform]
    rfl

variable {v : BitVec 32} (hform : f.xtra.toNat % 4 = 1 ∧ f.rnd.toNat ≤ 1 ∨ f.xtra.toNat % 4 = 2) (htd : f.c.toNat < 4)
  (hfm : fmRead s s.cur.core s.cur.info f.c.toNat = some v)

include h ht hneg hbeats hbk hb hform htd hfm in
/-- A pack or unpack whose format register is refused. -/
theorem execVcvt_format {x : Nat} (hx : fmFault v (fun fam => fam == 0 || fam == 3) = some x) : execVcvt f s = opFaults s x := by
  obtain ⟨hx0, hx2⟩ := xtra_form f.xtra
  refine vIssue_faults h ?_ ?_
  · rcases hform with ⟨hform, hrnd⟩ | hform
    · simp [ht, hneg, hbeats, noB, hbk, hb, hx0, hform, htd, hrnd]
    · simp [ht, hneg, hbeats, noB, hbk, hb, hx0, hform, htd]
  · have hne : bits f.xtra 0 2 ≠ 0 := by omega
    simp only [hne, if_false, Nat.mod_eq_of_lt htd, withFm_read hfm, hx]
    rfl

variable (hok : fmFault v (fun fam => fam == 0 || fam == 3) = none)

include h ht hneg hbeats hbk hb hform htd hfm hok in
/-- A pack or unpack of a part beyond the register. -/
theorem execVcvt_beyond (hfit : 4096 < (f.xtra.toNat / 4 + 1) * (4096 / etw f.etype.toNat) * narrowWidth v) :
    execVcvt f s = opFaults s 2 := by
  obtain ⟨hx0, hx2⟩ := xtra_form f.xtra
  refine vIssue_faults h ?_ ?_
  · rcases hform with ⟨hform, hrnd⟩ | hform
    · simp [ht, hneg, hbeats, noB, hbk, hb, hx0, hform, htd, hrnd]
    · simp [ht, hneg, hbeats, noB, hbk, hb, hx0, hform, htd]
  · have hne : bits f.xtra 0 2 ≠ 0 := by omega
    simp only [hne, if_false, Nat.mod_eq_of_lt htd, withFm_read hfm, hok, hx2, hfit, if_true]
    rfl

variable (hfit : (f.xtra.toNat / 4 + 1) * (4096 / etw f.etype.toNat) * narrowWidth v ≤ 4096)

include h ht hneg hbeats hbk hb htd hfm hok hfit in
/-- A pack. -/
theorem execVcvt_packs (hform : f.xtra.toNat % 4 = 1) (hrnd : f.rnd.toNat ≤ 1) :
    let t := f.etype.toNat
    let ws := etw t
    let k := 4096 / ws
    let wf := narrowWidth v
    let off := f.xtra.toNat / 4 * k * wf
    let a := (vReg (curE s) f.a.toNat).toNat
    let on := laneOn (mReg (curE s) f.msk.toNat) ws
    execVcvt f s = .next (landed s f.taga 3 1 [.vbits f.dst.toNat
      (putElems 0 off wf k on fun i => toNarrow v (narrowRnd s s.cur.core s.cur.slot s.cur.info f.rnd i) (f.sat == 1)
        (laneNum t (lane a ws i)) (laneInteger t (lane a ws i)))
      (putElems 0 off wf k on fun _ => 2 ^ wf - 1)]) := by
  intro t ws k wf off a on
  obtain ⟨hx0, hx2⟩ := xtra_form f.xtra
  refine vIssue_goes h ?_ ?_
  · simp [ht, hneg, hbeats, noB, hbk, hb, hx0, hform, htd, hrnd]
  · simp only [hx0, hform, Nat.mod_eq_of_lt htd, withFm_read hfm, hok, hx2, not_lt.2 hfit, if_false, if_true]
    rfl

/-- The code that an unpack reads for element `i` of its part. -/
def unpackCode (s : State) (f : VOp) (v : BitVec 32) (i : Nat) : Nat :=
  (vReg (curE s) f.a.toNat).toNat /
    2 ^ (f.xtra.toNat / 4 * (4096 / etw f.etype.toNat) * narrowWidth v + narrowWidth v * i) % 2 ^ narrowWidth v

/-- The first element of an unpack whose code is reserved (R19). -/
def reservedElem (s : State) (f : VOp) (v : BitVec 32) : Option Nat :=
  if fmFamily v = 0 then (List.range (4096 / etw f.etype.toNat)).find? fun i => (narrowInt v (unpackCode s f v i)).isNone else none

include h ht hneg hbeats hbk hb htd hfm hok hfit in
/-- An unpack that finds a reserved code. -/
theorem execVcvt_reserved (hform : f.xtra.toNat % 4 = 2) {i : Nat} (hi : reservedElem s f v = some i) :
    execVcvt f s = .next (slotFault s (class0 s.cur.slot 2) 0 (w64 i) 0) := by
  obtain ⟨hx0, hx2⟩ := xtra_form f.xtra
  refine vIssue_faults h ?_ ?_
  · simp [ht, hneg, hbeats, noB, hbk, hb, hx0, hform, htd]
  · simp only [reservedElem, unpackCode] at hi
    simp only [hx0, hform, Nat.mod_eq_of_lt htd, withFm_read hfm, hok, hx2, not_lt.2 hfit, OfNat.ofNat_ne_zero, OfNat.ofNat_ne_one,
      if_false, hi]

include h ht hneg hbeats hbk hb htd hfm hok hfit in
/-- An unpack. -/
theorem execVcvt_unpacks (hform : f.xtra.toNat % 4 = 2) (hi : reservedElem s f v = none) :
    let t := f.etype.toNat
    let ws := etw t
    execVcvt f s = .next (landed s f.taga 3 1 [.v f.dst.toNat
      (ofLanes ws (4096 / ws) fun i =>
        if fmFamily v = 0 then toLane t (rndOf f.rnd) (f.sat == 1) (numOfInt ((narrowInt v (unpackCode s f v i)).getD 0))
          (some ((narrowInt v (unpackCode s f v i)).getD 0))
        else toLane t (rndOf f.rnd) (f.sat == 1) (decodeF (fp8Fmt v) (unpackCode s f v i)) none)
      (spread (mReg (curE s) f.msk.toNat) ws)]) := by
  intro t ws
  obtain ⟨hx0, hx2⟩ := xtra_form f.xtra
  refine vIssue_goes h ?_ ?_
  · simp [ht, hneg, hbeats, noB, hbk, hb, hx0, hform, htd]
  · simp only [reservedElem, unpackCode] at hi
    simp only [hx0, hform, Nat.mod_eq_of_lt htd, withFm_read hfm, hok, hx2, not_lt.2 hfit, OfNat.ofNat_ne_zero, OfNat.ofNat_ne_one,
      if_false, hi]
    rfl

end

/-- What `reservedElem` finds: the lowest-numbered element whose code is reserved. -/
theorem reservedElem_eq_some {s : State} {f : VOp} {v : BitVec 32} {i : Nat} (hi : i < 4096 / etw f.etype.toNat)
    (h0 : fmFamily v = 0) (hr : narrowInt v (unpackCode s f v i) = none) (hlt : ∀ j, j < i → narrowInt v (unpackCode s f v j) ≠ none) :
    reservedElem s f v = some i := by
  rw [reservedElem, if_pos h0, List.find?_range_eq_some]
  refine ⟨by simp [hr], List.mem_range.2 hi, fun j hj => ?_⟩
  simpa [Option.ne_none_iff_isSome] using hlt j hj

theorem reservedElem_eq_none {s : State} {f : VOp} {v : BitVec 32}
    (h : ∀ i, ¬(i < 4096 / etw f.etype.toNat ∧ fmFamily v = 0 ∧ narrowInt v (unpackCode s f v i) = none)) : reservedElem s f v = none := by
  unfold reservedElem
  split
  next h0 =>
    rw [List.find?_eq_none]
    intro i hi hr
    exact h i ⟨List.mem_range.1 hi, h0, Option.isNone_iff_eq_none.1 hr⟩
  next => rfl

/-- The lanes that the lane form writes lie in the register (R166). -/
theorem lanes_fit {t td p : Nat} (hp : p < max (etw t) (etw td) / min (etw t) (etw td)) :
    etw td * ((if etw t ≤ etw td then 0 else p * (4096 / max (etw t) (etw td))) + 4096 / max (etw t) (etw td)) ≤ 4096 := by
  split
  next hle =>
    rw [max_eq_right hle, Nat.zero_add]
    exact (etw_mul_lanes td).le
  next hlt =>
    have hlt := (not_le.1 hlt).le
    rw [max_eq_left hlt, min_eq_right hlt] at hp
    rw [max_eq_left hlt]
    calc etw td * (p * (4096 / etw t) + 4096 / etw t) = etw td * (p + 1) * (4096 / etw t) := by ring
      _ ≤ etw td * (etw t / etw td) * (4096 / etw t) := Nat.mul_le_mul_right _ (Nat.mul_le_mul_left _ hp)
      _ ≤ etw t * (4096 / etw t) := Nat.mul_le_mul_right _ (Nat.mul_div_le _ _)
      _ = 4096 := etw_mul_lanes t

/-- R166, R167, R168: VCVT. -/
theorem vectorConversions : VectorConversions := by
  intro s f h ht hneg hbeats hbk hb t td ws wd p a mask on gives k
  refine ⟨fun hform htd hp => ?lanes, fun hform htd v hfm => ?narrow⟩
  case lanes =>
    intro k src dst
    have hfit : wd * (dst + k) ≤ 4096 := lanes_fit hp
    refine ⟨_, _, execVcvt_lanes h ht hneg hbeats hbk hb hform htd hp, fun j hj => ?_, fun i hi => ?_⟩
    · have hw : 0 < wd / 8 := by rcases etw_cases td with h | h | h <;> simp only [wd, h] <;> decide
      rw [BitVec.getLsbD_and, Bool.and_eq_true, getLsbD_byteSpan (Nat.mul_le_mul_right _ (Nat.le_add_right dst k)) hj,
        Nat.le_div_iff_mul_le hw, Nat.div_lt_iff_lt_mul hw]
    · rw [lane_ofLanes_shift _ hfit hi, toLane_eq_intoLane, laneValue_eq]
  case narrow =>
    intro wf off known code reserved
    have hbad {x : Nat} (hx : fmFault v (fun fam => fam == 0 || fam == 3) = some x) : exec (.vcvt f) s = opFaults s x :=
      execVcvt_format h ht hneg hbeats hbk hb hform htd hfm hx
    have hgood (hv : known) : fmFault v (fun fam => fam == 0 || fam == 3) = none :=
      fmFault_none hv.1 (by rcases hv.2 with h | h <;> rw [h] <;> rfl)
    refine ⟨fun hv => hbad (fmFault_invalid hv), fun hv h0 h3 => hbad (fmFault_foreign hv (by simp [h0, h3])),
      fun hv hfit => execVcvt_beyond h ht hneg hbeats hbk hb hform htd hfm (hgood hv) hfit, fun hv hfit hform1 => ?packs,
      fun hv hfit hform2 => ⟨fun i hi hlt => ?reserved, fun hnone => ?unpacks⟩⟩
    case packs =>
      have hrnd : f.rnd.toNat ≤ 1 := by omega
      have hk : off + wf * k ≤ 4096 := (by ring : p * k * wf + wf * k = (p + 1) * k * wf).le.trans hfit
      exact ⟨_, _, execVcvt_packs h ht hneg hbeats hbk hb htd hfm (hgood hv) hfit hform1 hrnd,
        fun i hi hon => by rw [fieldOf_putElems 0 hk hi hon, laneValue_eq], fun j _ => getLsbD_putElems_ones hk j⟩
    case reserved =>
      exact execVcvt_reserved h ht hneg hbeats hbk hb htd hfm (hgood hv) hfit hform2
        (reservedElem_eq_some hi.1 hi.2.1 hi.2.2 fun j hj hr => hlt j hj ⟨hj.trans hi.1, hi.2.1, hr⟩)
    case unpacks =>
      refine ⟨_, execVcvt_unpacks h ht hneg hbeats hbk hb htd hfm (hgood hv) hfit hform2 (reservedElem_eq_none hnone), fun i hi => ?_⟩
      rw [lane_ofLanes _ (etw_mul_lanes t).le hi]
      simp only [toLane_eq_intoLane]
      rfl

end Sys2Proof.Machine
end

section
/-! O54: the block packs and unpacks. -/

namespace Sys2Proof.Machine

open Sys2Proof.Claims

/-! ### Block ops (R169, R170) -/

section
variable {s : State} {f : VOp} {v : BitVec 32} {packs out : Bool} {fam : Nat} {width : BitVec 32 → Nat → Nat}
  {writes : State → Nat → M512 → BitVec 32 → Nat → List RegWrite}

/-- The part that a block op names. -/
theorem xtra_part {x : BitVec 6} (h : x.toNat < 16) : bits x 0 4 = x.toNat ∧ bits x 4 2 = 0 := by
  constructor <;> simp only [bits] <;> omega

/-- The fields of a block op that the statements admit. -/
theorem packOk_eq {f : VOp} {packs : Bool} (ht : Floats f) (hneg : f.neg = 0) (hbeats : f.beats = 0) (hbk : f.bk = 0) (hb : f.b = 0)
    (hc : f.c.toNat < 4) (hx : f.xtra.toNat < 16) (hp : if packs then f.rnd.toNat ≤ 1 else f.sat = 0) : packOk f packs = true := by
  have hfloat : floatType f = true := decide_eq_true ht
  simpa [packOk, hfloat, hneg, hbeats, noB, hbk, hb, hc, (xtra_part hx).2] using hp

variable {i : Instr} (hexec : exec i s = blockOp s f packs out fam width writes) (h : SlotMay s f.tagw f.taga)
  (hok : packOk f packs = true) (hc : f.c.toNat < 4) (hx : f.xtra.toNat < 16)
  (hfm : fmRead s s.cur.core s.cur.info f.c.toNat = some v) (hv : fmValid v = true) (hfam : fmFamily v = fam)

include hexec h hok hc hx hfm hv hfam in
/-- A block op whose registers exist and whose part lies in the register. -/
theorem blockOp_writes (hout : out = false) {off : Nat} (hoff : f.xtra.toNat * width v (4096 / wOf f) = off)
    (hfit : (f.xtra.toNat + 1) * width v (4096 / wOf f) ≤ 4096) :
    exec i s = .next (landed s f.taga 3 1 (writes s s.cur.core (mReg (curE s) f.msk.toNat) v off)) := by
  have hnone : fmFault v (fun x => x == fam) = none := fmFault_none hv (by simp [hfam])
  refine hexec.trans (vIssue_goes h hok ?_)
  simp only [Nat.mod_eq_of_lt hc, withFm_read hfm, hnone, (xtra_part hx).1, ← hoff]
  exact if_neg (by rw [hout]; exact fun h => h.elim Bool.false_ne_true (not_lt.2 hfit))

include hexec h hok hc hx hfm hv hfam in
/-- A block op beyond its registers. -/
theorem blockOp_beyond (hout : out = true ∨ 4096 < (f.xtra.toNat + 1) * width v (4096 / wOf f)) : exec i s = opFaults s 2 := by
  have hnone : fmFault v (fun x => x == fam) = none := fmFault_none hv (by simp [hfam])
  refine hexec.trans (vIssue_faults h hok ?_)
  simp only [Nat.mod_eq_of_lt hc, withFm_read hfm, hnone, (xtra_part hx).1]
  exact if_pos hout

end

/-- A span of whole bytes, told by bits. -/
theorem getLsbD_byteSpan_bits {lo hi : Nat} (hlo : 8 ∣ lo) (hhi : 8 ∣ hi) (hle : lo ≤ hi) {j : Nat} (hj : j < 512) :
    (byteSpan (lo / 8) (hi / 8)).getLsbD j = true ↔ lo ≤ 8 * j ∧ 8 * j < hi := by
  rw [getLsbD_byteSpan (Nat.div_le_div_right hle) hj]
  omega

/-- The lanes of a floating op. -/
theorem float_lanes {f : VOp} (ht : Floats f) : 4096 / wOf f = 256 ∨ 4096 / wOf f = 128 := by
  obtain ⟨h6, h8⟩ := ht
  unfold wOf etw
  split_ifs <;> omega

/-- The blocks of a pack, one by one. -/
theorem getD_map_range {α : Type} {n i : Nat} (g : Nat → α) (d : α) (h : i < n) : ((List.range n).map g).getD i d = g i := by
  rw [List.getD_eq_getElem _ _ (by simpa using h), List.getElem_map, List.getElem_range]

/-- R169, R170: the block packs and unpacks. -/
theorem blockPacking : BlockPacking := by
  intro s f v h ht hneg hbeats hbk hb hc hx hfm hv w m p n mask a rnd enters span packs lanesAre
  have hpack (hp : packs) : packOk f true = true := packOk_eq ht hneg hbeats hbk hb hc hx hp
  have hunpack (hs : f.sat = 0) : packOk f false = true := packOk_eq ht hneg hbeats hbk hb hc hx hs
  have hn : n = 256 ∨ n = 128 := float_lanes ht
  refine ⟨fun hfam => ?grist, fun hfam => ?mx⟩
  case grist =>
    intro g lb q off fits
    have hoff : f.xtra.toNat * gristSpan v (4096 / wOf f) = off := (Nat.mul_assoc _ _ _).symm
    have hfits : (f.xtra.toNat + 1) * gristSpan v (4096 / wOf f) = (p + 1) * q * lb := (Nat.mul_assoc _ _ _).symm
    have h8 (k : Nat) : 8 ∣ k * lb := Dvd.dvd.mul_left (show 8 ∣ 16 + 16 * (g + 1) by omega) k
    refine ⟨fun hp hf => ?pack, fun hp hf => ?_, fun hs hf => ?_, fun hs hf => ?unpack⟩
    case pack =>
      refine ⟨_, _, blockOp_writes (exec_vpkgm f s) h (hpack hp) hc hx hfm hv hfam rfl hoff (hfits.le.trans hf), fun j hj => ?_, fun i hi => ?_⟩
      · rw [Nat.mul_comm q]
        exact getLsbD_byteSpan_bits (h8 _) ((h8 _).add (Nat.mul_comm lb q ▸ h8 q)) (Nat.le_add_right _ _) hj
      · exact fieldOf_putElems 0 ((by ring : p * q * lb + lb * q = (p + 1) * q * lb).le.trans hf) hi rfl
    · exact blockOp_beyond (exec_vpkgm f s) h (hpack hp) hc hx hfm hv hfam (.inr (hfits ▸ not_le.1 hf))
    · exact blockOp_beyond (exec_vupgm f s) h (hunpack hs) hc hx hfm hv hfam (.inr (hfits ▸ not_le.1 hf))
    case unpack =>
      exact ⟨_, blockOp_writes (exec_vupgm f s) h (hunpack hs) hc hx hfm hv hfam rfl hoff (hfits.le.trans hf),
        fun j hj => lane_ofLanes _ (etw_mul_lanes _).le hj⟩
  case mx =>
    intro x we q off fits block
    have hoff : f.xtra.toNat * mxSpan v (4096 / wOf f) = off := (Nat.mul_assoc _ _ _).symm
    have hfits : (f.xtra.toNat + 1) * mxSpan v (4096 / wOf f) = (p + 1) * n * we := (Nat.mul_assoc _ _ _).symm
    have h8 (k : Nat) : 8 ∣ k * n * we := ((show 8 ∣ n by omega).mul_left k).mul_right we
    have hpart : bits f.xtra 0 4 = p := (xtra_part hx).1
    have hblock {i : Nat} (hi : i < q) : ((List.range q).map block).getD i (0, []) = block i := getD_map_range block _ hi
    have hq : p * q + q ≤ 128 := by
      have hq8 : q ≤ 8 := by omega
      nlinarith [show p + 1 ≤ 16 from hx]
    have hscale : 8 * (bits f.xtra 0 4 * q) + 8 * q ≤ 4096 := by
      rw [hpart]
      omega
    refine ⟨fun hp hf hd => ?pack, fun hp hf => ?_, fun hs hf => ?_, fun hs hf ha => ?unpack⟩
    case pack =>
      refine ⟨_, _, _, _, blockOp_writes (exec_vpkmx f s) h (hpack hp) hc hx hfm hv hfam (beq_false_of_ne hd) hoff (hfits.le.trans hf), fun j hj => ?_,
        fun j hj => ?_, fun j hj => ?_, fun i hi => ?_⟩
      · rw [Nat.mul_comm n]
        exact getLsbD_byteSpan_bits (h8 _) ((h8 _).add (Nat.mul_comm n we ▸ Nat.one_mul n ▸ h8 1)) (Nat.le_add_right _ _) hj
      · show (byteSpan (bits f.xtra 0 4 * q) ((bits f.xtra 0 4 + 1) * q)).getLsbD j = true ↔ _
        rw [hpart, getLsbD_byteSpan (Nat.mul_le_mul_right q (Nat.le_add_right p 1)) hj]
        omega
      · exact (fieldOf_putElems 0 ((by ring : p * n * we + we * n = (p + 1) * n * we).le.trans hf) hj rfl).trans
          (congrArg (fun b : Nat × List Nat => b.2.getD (j % 32) 0 % 2 ^ we) (hblock (show j / 32 < q by omega)))
      · rw [Nat.mul_add, ← hpart]
        exact (fieldOf_putElems 0 hscale hi rfl).trans (congrArg (fun b : Nat × List Nat => b.1 % 256) (hblock hi))
    · exact blockOp_beyond (exec_vpkmx f s) h (hpack hp) hc hx hfm hv hfam (hf.symm.imp (beq_iff_eq.2 ·) fun hf => hfits ▸ not_le.1 hf)
    · exact blockOp_beyond (exec_vupmx f s) h (hunpack hs) hc hx hfm hv hfam (hf.symm.imp (beq_iff_eq.2 ·) fun hf => hfits ▸ not_le.1 hf)
    case unpack =>
      exact ⟨_, blockOp_writes (exec_vupmx f s) h (hunpack hs) hc hx hfm hv hfam (beq_false_of_ne ha) hoff (hfits.le.trans hf),
        fun j hj => (lane_ofLanes _ (etw_mul_lanes _).le hj).trans (by rw [hpart]; rfl)⟩

end Sys2Proof.Machine

open Sys2Proof Sys2Proof.Machine

/-- Settles O54: VCVT's three forms, and the block packs and unpacks. -/
theorem vectorFormats : Obligations.VectorFormats := by
  unfold Obligations.VectorFormats
  exact ⟨vectorConversions, blockPacking⟩
end

section
/-! O11, O12, values: the real number that a finite value is, and what comparing, adding and multiplying values do to it. -/

namespace Sys2Proof.Machine

/-! ### Finite values (R9) -/

/-- The real number of a sign, a significand and an exponent. -/
noncomputable def finVal (neg : Bool) (sig : Nat) (exp : Int) : ℝ := (if neg then -1 else 1) * (sig * 2 ^ exp)

theorem finVal_false (sig : Nat) (exp : Int) : finVal false sig exp = sig * 2 ^ exp := by simp [finVal]

theorem finVal_true (sig : Nat) (exp : Int) : finVal true sig exp = -(sig * 2 ^ exp) := by simp [finVal]

theorem finVal_not (neg : Bool) (sig : Nat) (exp : Int) : finVal (!neg) sig exp = -finVal neg sig exp := by
  cases neg <;> simp [finVal]

theorem finVal_mul (a b : Bool) (s t : Nat) (e g : Int) : finVal (a != b) (s * t) (e + g) = finVal a s e * finVal b t g := by
  have hpow : (2 : ℝ) ^ (e + g) = 2 ^ e * 2 ^ g := zpow_add₀ two_ne_zero e g
  cases a <;> cases b <;> simp [finVal, hpow] <;> ring

/-- A value on a finer grid. -/
theorem scaled_mul_zpow (neg : Bool) (sig : Nat) {exp e : Int} (h : e ≤ exp) : (scaled neg sig exp e : ℝ) * 2 ^ e = finVal neg sig exp := by
  have hpow : (2 : ℝ) ^ (exp - e).toNat * 2 ^ e = 2 ^ exp := by
    rw [← zpow_natCast, ← zpow_add₀ two_ne_zero, Int.toNat_of_nonneg (by omega), sub_add_cancel]
  cases neg
  · simp [scaled, finVal, mul_assoc, hpow]
  · simp [scaled, finVal, mul_assoc, hpow]

/-- The exact sum (R162). -/
theorem addNum_fin (mode : Rnd) (a b : Bool) (s t : Nat) (e g : Int) :
    ∃ n v q, addNum mode (.fin a s e) (.fin b t g) = .fin n v q ∧ finVal n v q = finVal a s e + finVal b t g := by
  have hsum : (scaled a s e (min e g) + scaled b t g (min e g) : ℝ) * 2 ^ min e g = finVal a s e + finVal b t g := by
    rw [add_mul, scaled_mul_zpow a s (min_le_left e g), scaled_mul_zpow b t (min_le_right e g)]
  rw [← hsum]
  simp only [addNum]
  split
  next h0 =>
    have hz : (scaled a s e (min e g) + scaled b t g (min e g) : ℝ) = 0 := by exact_mod_cast h0
    split <;> exact ⟨_, _, _, rfl, by simp [finVal, hz]⟩
  next =>
    refine ⟨_, _, _, rfl, ?_⟩
    rw [← Int.cast_add]
    generalize scaled a s e (min e g) + scaled b t g (min e g) = v
    rcases lt_or_ge v 0 with h | h
    · rw [decide_eq_true h, finVal_true, Nat.cast_natAbs, abs_of_neg h]
      push_cast
      ring
    · rw [decide_eq_false h.not_gt, finVal_false, Nat.cast_natAbs, abs_of_nonneg h]

/-! ### Values with the infinities -/

/-- A value as an extended real; a NaN, which no order speaks of, as 0. -/
noncomputable def numVal : Num → EReal
  | .nan => 0
  | .inf neg => if neg then ⊥ else ⊤
  | .fin neg sig exp => finVal neg sig exp

@[simp] theorem numVal_fin (neg : Bool) (sig : Nat) (exp : Int) : numVal (.fin neg sig exp) = (finVal neg sig exp : EReal) := rfl

/-- An order that tells how `x` lies to `y`. -/
def Tells (o : Ordering) (x y : EReal) : Prop :=
  match o with
  | .lt => x < y
  | .eq => x = y
  | .gt => y < x

theorem Tells.ne_gt {o : Ordering} {x y : EReal} (h : Tells o x y) : o ≠ .gt ↔ x ≤ y := by
  cases o with
  | lt => exact iff_of_true (by simp) (le_of_lt h)
  | eq => exact iff_of_true (by simp) (le_of_eq h)
  | gt => exact iff_of_false (by simp) (not_le_of_gt h)

theorem Tells.ne_lt {o : Ordering} {x y : EReal} (h : Tells o x y) : o ≠ .lt ↔ y ≤ x := by
  cases o with
  | lt => exact iff_of_false (by simp) (not_le_of_gt h)
  | eq => exact iff_of_true (by simp) (ge_of_eq h)
  | gt => exact iff_of_true (by simp) (le_of_lt h)

/-- Comparing finite values is comparing their numbers (R163). -/
theorem tells_cmpNum_fin (a b : Bool) (s t : Nat) (e g : Int) :
    Tells (cmpNum (.fin a s e) (.fin b t g)) (finVal a s e : ℝ) (finVal b t g : ℝ) := by
  have hpos : (0 : ℝ) < 2 ^ min e g := by positivity
  rw [← scaled_mul_zpow a s (min_le_left e g), ← scaled_mul_zpow b t (min_le_right e g)]
  simp only [cmpNum]
  rcases lt_trichotomy (scaled a s e (min e g)) (scaled b t g (min e g)) with h | h | h
  · rw [compare_lt_iff_lt.2 h]
    exact EReal.coe_lt_coe_iff.2 (mul_lt_mul_of_pos_right (by exact_mod_cast h) hpos)
  · rw [compare_eq_iff_eq.2 h, h]
    rfl
  · rw [compare_gt_iff_gt.2 h]
    exact EReal.coe_lt_coe_iff.2 (mul_lt_mul_of_pos_right (by exact_mod_cast h) hpos)

/-- Comparing values that are no NaN. -/
theorem tells_cmpNum {x y : Num} (hx : isNan x = false) (hy : isNan y = false) : Tells (cmpNum x y) (numVal x) (numVal y) := by
  cases x with
  | nan => cases hx
  | inf a =>
    cases y with
    | nan => cases hy
    | inf b => cases a <;> cases b <;> simp [cmpNum, numVal, Tells]
    | fin b t g => cases a <;> simp [cmpNum, numVal, Tells, EReal.coe_lt_top, EReal.bot_lt_coe]
  | fin a s e =>
    cases y with
    | nan => cases hy
    | inf b => cases b <;> simp [cmpNum, numVal, Tells, EReal.coe_lt_top, EReal.bot_lt_coe]
    | fin b t g => exact tells_cmpNum_fin a b s t e g

end Sys2Proof.Machine
end

section
/-! O11, O12, codes: the values of a binary format's codes rise strictly, and a code decodes to the value of its magnitude with its sign. -/

namespace Sys2Proof.Machine

/-- What the three lane formats share (R10): infinity is the code after the largest finite one, and codes beyond it are NaNs. -/
structure IsBinary (m : FFmt) : Prop where
  one_lt_p : 1 < m.p
  p_le : m.p ≤ 24
  infCode_eq : m.infCode = some (m.maxCode + 1)
  nanCode_isSome : m.nanCode.isSome = true
  inf_lt : m.maxCode + 1 < 2 ^ (m.width - 1)
  one_lt_width : 1 < m.width

theorem isBinary_of_mem {m : FFmt} (h : m ∈ [fp32, fp16, bf16]) : IsBinary m := by
  simp only [List.mem_cons, List.not_mem_nil, or_false] at h
  rcases h with rfl | rfl | rfl <;> constructor <;> decide

/-! ### Magnitudes -/

/-- The value of a magnitude code, on a grid that goes on beyond the largest finite code (R10, R25). -/
noncomputable def codeVal (m : FFmt) (c : Nat) : ℝ :=
  if c / 2 ^ (m.p - 1) = 0 then (c % 2 ^ (m.p - 1) : Nat) * 2 ^ m.qmin
  else (2 ^ (m.p - 1) + c % 2 ^ (m.p - 1) : Nat) * 2 ^ (m.qmin + (c / 2 ^ (m.p - 1) : Nat) - 1)

section
variable {m : FFmt} (hm : IsBinary m)

include hm in
theorem two_pow_p : 2 ^ m.p = 2 * 2 ^ (m.p - 1) := by
  have h : m.p = m.p - 1 + 1 := by have := hm.one_lt_p; omega
  conv_lhs => rw [h, pow_succ']

include hm in
/-- A significand of the full precision, or any one in the lowest binade, is the code of its multiple of the binade's unit. -/
theorem codeVal_grid {k n : Nat} (hn : n ≤ 2 ^ m.p) (hk : k = 0 ∨ 2 ^ (m.p - 1) ≤ n) :
    codeVal m (k * 2 ^ (m.p - 1) + n) = n * 2 ^ (m.qmin + k) := by
  have hP : 0 < 2 ^ (m.p - 1) := Nat.two_pow_pos _
  rw [two_pow_p hm] at hn
  simp only [codeVal, Nat.add_comm (k * _), Nat.add_mul_div_right _ _ hP, Nat.add_mul_mod_self_right]
  rcases lt_or_ge n (2 ^ (m.p - 1)) with h | h
  · obtain rfl : k = 0 := hk.resolve_right (not_le.2 h)
    simp [Nat.div_eq_of_lt h, Nat.mod_eq_of_lt h]
  · rcases hn.lt_or_eq with h2 | rfl
    · have hdiv : n / 2 ^ (m.p - 1) = 1 := by rw [Nat.div_eq_iff hP]; omega
      have hmod : 2 ^ (m.p - 1) + n % 2 ^ (m.p - 1) = n := by
        have := Nat.div_add_mod n (2 ^ (m.p - 1))
        rw [hdiv] at this
        omega
      rw [hdiv, hmod, if_neg (by omega)]
      congr 2
      push_cast
      ring
    · rw [Nat.mul_div_cancel _ hP, Nat.mul_mod_left, if_neg (by omega)]
      have hpow : (2 : ℝ) ^ (m.qmin + ((2 + k : Nat) : Int) - 1) = 2 * 2 ^ (m.qmin + k) := by
        rw [← zpow_one_add₀ two_ne_zero]
        congr 1
        push_cast
        ring
      rw [hpow]
      push_cast
      ring

include hm in
/-- Every code lies on the grid. -/
theorem exists_grid (c : Nat) : ∃ k n, c = k * 2 ^ (m.p - 1) + n ∧ n < 2 ^ m.p ∧ (k = 0 ∨ 2 ^ (m.p - 1) ≤ n) := by
  have hmod : c % 2 ^ (m.p - 1) < 2 ^ (m.p - 1) := Nat.mod_lt _ (Nat.two_pow_pos _)
  have hdiv := Nat.div_add_mod' c (2 ^ (m.p - 1))
  rw [two_pow_p hm]
  rcases Nat.eq_zero_or_eq_succ_pred (c / 2 ^ (m.p - 1)) with h | h
  · exact ⟨0, c % 2 ^ (m.p - 1), by rw [h] at hdiv; exact hdiv.symm, by omega, .inl rfl⟩
  · rw [h, Nat.succ_mul] at hdiv
    exact ⟨(c / 2 ^ (m.p - 1)).pred, 2 ^ (m.p - 1) + c % 2 ^ (m.p - 1), by omega, by omega, .inr (Nat.le_add_right _ _)⟩

include hm in
theorem codeVal_strictMono : StrictMono (codeVal m) := by
  refine strictMono_nat_of_lt_succ fun c => ?_
  obtain ⟨k, n, rfl, hn, hk⟩ := exists_grid hm c
  rw [codeVal_grid hm hn.le hk, Nat.add_assoc, codeVal_grid hm hn (hk.imp_right fun h => h.trans (Nat.le_succ n))]
  exact mul_lt_mul_of_pos_right (by exact_mod_cast Nat.lt_succ_self n) (by positivity)

theorem codeVal_zero (m : FFmt) : codeVal m 0 = 0 := by simp [codeVal]

/-- The value of a magnitude code of the format, infinity included. -/
noncomputable def magVal (m : FFmt) (c : Nat) : EReal := if c ≤ m.maxCode then (codeVal m c : EReal) else ⊤

theorem magVal_zero (m : FFmt) : magVal m 0 = 0 := by simp [magVal, codeVal_zero]

include hm in
theorem magVal_mono {c d : Nat} (h : c ≤ d) : magVal m c ≤ magVal m d := by
  unfold magVal
  split
  next hc =>
    split
    next => exact EReal.coe_le_coe_iff.2 ((codeVal_strictMono hm).monotone h)
    next => exact le_top
  next hc => rw [if_neg (by omega)]

include hm in
theorem magVal_nonneg (c : Nat) : 0 ≤ magVal m c := magVal_zero m ▸ magVal_mono hm (Nat.zero_le c)

/-! ### Signed codes -/

/-- An extended real with a sign. -/
noncomputable def signVal (neg : Bool) (x : EReal) : EReal := if neg then -x else x

theorem testBit_withSign {neg : Bool} {c : Nat} (h : c < 2 ^ (m.width - 1)) : (withSign m neg c).testBit (m.width - 1) = neg := by
  cases neg
  · simp [withSign, Nat.testBit_lt_two_pow h]
  · rw [withSign, if_pos rfl, Nat.add_comm, Nat.testBit_two_pow_add_eq, Nat.testBit_lt_two_pow h]
    rfl

theorem withSign_mod {neg : Bool} {c : Nat} (h : c < 2 ^ (m.width - 1)) : withSign m neg c % 2 ^ (m.width - 1) = c := by
  cases neg
  · simp [withSign, Nat.mod_eq_of_lt h]
  · rw [withSign, if_pos rfl, Nat.add_mod_right, Nat.mod_eq_of_lt h]

include hm in
/-- What a code decodes to: a NaN beyond infinity, and otherwise the value of its magnitude under its sign. -/
theorem decodeF_cases (c : Nat) :
    let mag := c % 2 ^ (m.width - 1)
    if mag ≤ m.maxCode + 1 then
      isNan (decodeF m c) = false ∧ numVal (decodeF m c) = signVal (c.testBit (m.width - 1)) (magVal m mag)
    else isNan (decodeF m c) = true := by
  intro mag
  have hmag : c % 2 ^ (m.width - 1) = mag := rfl
  generalize hneg : c.testBit (m.width - 1) = neg
  clear_value mag
  simp only [decodeF, hm.infCode_eq, hm.nanCode_isSome, Option.some.injEq, Bool.true_and, decide_eq_true_eq, hneg, hmag]
  rcases lt_trichotomy mag (m.maxCode + 1) with h | h | h
  · rw [if_pos h.le, if_neg h.ne', if_neg (by omega)]
    simp only [magVal, if_pos (Nat.le_of_lt_succ h), codeVal]
    split <;> cases neg <;> simp [isNan, signVal, finVal, EReal.coe_neg]
  · rw [if_pos h.le, if_pos h.symm]
    cases neg <;> simp [isNan, numVal, signVal, magVal, h]
  · rw [if_neg (by omega), if_neg h.ne, if_pos (by omega)]
    rfl

include hm in
theorem numVal_withSign (neg : Bool) {c : Nat} (h : c ≤ m.maxCode + 1) :
    isNan (decodeF m (withSign m neg c)) = false ∧ numVal (decodeF m (withSign m neg c)) = signVal neg (magVal m c) := by
  have hlt := h.trans_lt hm.inf_lt
  have hd := decodeF_cases hm (withSign m neg c)
  simp only [withSign_mod hlt, testBit_withSign hlt, if_pos h] at hd
  exact hd

include hm in
/-- A code that is no NaN has the value of a magnitude, or its negation. -/
theorem numVal_decodeF {c : Nat} (h : isNan (decodeF m c) = false) :
    ∃ neg d, d ≤ m.maxCode + 1 ∧ numVal (decodeF m c) = signVal neg (magVal m d) := by
  have hd := decodeF_cases hm c
  simp only at hd
  split at hd
  next hle => exact ⟨_, _, hle, hd.2⟩
  next => rw [h] at hd; cases hd

include hm in
/-- A decoded significand has no more bits than the format's precision. -/
theorem decodeF_sig_lt {c : Nat} {neg : Bool} {sig : Nat} {exp : Int} (h : decodeF m c = .fin neg sig exp) : sig < 2 ^ m.p := by
  have hmod (x : Nat) : x % 2 ^ (m.p - 1) < 2 ^ (m.p - 1) := Nat.mod_lt _ (Nat.two_pow_pos _)
  have hP := two_pow_p hm
  simp only [decodeF] at h
  split_ifs at h
  · obtain ⟨-, rfl, -⟩ := Num.fin.inj h
    have := hmod (c % 2 ^ (m.width - 1))
    omega
  · obtain ⟨-, rfl, -⟩ := Num.fin.inj h
    have := hmod (c % 2 ^ (m.width - 1))
    omega

end

end Sys2Proof.Machine
end

section
/-! O11, O12, rounding: the code that each mode gives lies next to the exact magnitude, on the side that R25 tells. -/

namespace Sys2Proof.Machine

/-- The exact magnitude `A` is `sig × 2 ^ exp` and, with a tail, a little more (R25): less than a unit, with bits enough to round. -/
structure Approximates (p sig : Nat) (exp : Int) (tail : Bool) (A : ℝ) : Prop where
  le : sig * 2 ^ exp ≤ A
  lt : A < (sig + 1) * 2 ^ exp
  tail_iff : tail = true ↔ A ≠ sig * 2 ^ exp
  bits : tail = true → 2 ^ p ≤ sig

/-- A value without a tail is its own magnitude. -/
theorem approximates_self (p sig : Nat) (exp : Int) : Approximates p sig exp false (sig * 2 ^ exp) where
  le := le_rfl
  lt := mul_lt_mul_of_pos_right (lt_add_one _) (by positivity)
  tail_iff := by simp
  bits := by simp

/-- Whether a mode takes the upper of two neighbours `lo` and `hi` of the exact magnitude `A` (R25), `odd` telling the lower one's
lowest bit. -/
def TakesUpper (neg : Bool) (lo A hi : ℝ) (odd : Prop) (mode : Rnd) (up : Bool) : Prop :=
  match mode with
  | .rne => up = true ↔ lo + hi < 2 * A ∨ (lo + hi = 2 * A ∧ odd)
  | .rtz => up = false
  | .rdn => up = true ↔ neg = true ∧ A ≠ lo
  | .rup => up = true ↔ neg = false ∧ A ≠ lo
  | .sr _ => A = lo → up = false

/-- An exact magnitude stays. -/
theorem takesUpper_exact (neg : Bool) {A hi : ℝ} (h : A < hi) (odd : Prop) (mode : Rnd) :
    TakesUpper neg A A hi odd mode false := by
  cases mode with
  | rne =>
    simp only [TakesUpper, Bool.false_eq_true, false_iff, not_or, not_and]
    exact ⟨by linarith, fun h2 => absurd h2 (by linarith)⟩
  | rtz => rfl
  | rdn => simp [TakesUpper]
  | rup => simp [TakesUpper]
  | sr w => exact fun _ => rfl

/-- At an exact magnitude no mode takes the upper neighbour. -/
theorem eq_false_of_takesUpper {neg : Bool} {A hi : ℝ} {odd : Prop} {mode : Rnd} {up : Bool} (ht : TakesUpper neg A A hi odd mode up)
    (h : A < hi) : up = false := by
  rw [← Bool.not_eq_true]
  intro hup
  cases mode with
  | rne => rcases ht.1 hup with h2 | ⟨h2, -⟩ <;> linarith
  | rtz => exact Bool.false_ne_true (ht.symm.trans hup)
  | rdn => exact (ht.1 hup).2 rfl
  | rup => exact (ht.1 hup).2 rfl
  | sr w => exact Bool.false_ne_true ((ht rfl).symm.trans hup)

/-- The decision on the bits dropped, `r` of `2 ^ (k + 1)` and a tail `φ` of less than a unit, is that of R25. -/
theorem roundsUp_takesUpper (neg : Bool) {M r k : Nat} {φ u : ℝ} {tail : Bool} (mode : Rnd) (hu : 0 < u) (h0 : 0 ≤ φ) (h1 : φ < 1)
    (ht : tail = true ↔ φ ≠ 0) :
    TakesUpper neg (M * (2 ^ (k + 1) * u)) ((M * 2 ^ (k + 1) + r + φ) * u) ((M + 1) * (2 ^ (k + 1) * u)) (M % 2 = 1) mode
      (roundsUp mode neg M r (k + 1) tail) := by
  have hr0 : (0 : ℝ) ≤ r := Nat.cast_nonneg r
  have hlow : (M * 2 ^ (k + 1) + r + φ) * u - M * (2 ^ (k + 1) * u) = (r + φ) * u := by ring
  have hmid : 2 * ((M * 2 ^ (k + 1) + r + φ) * u) - (M * (2 ^ (k + 1) * u) + (M + 1) * (2 ^ (k + 1) * u)) = 2 * ((r + φ - 2 ^ k) * u) := by ring
  have hexact : (M * 2 ^ (k + 1) + r + φ) * u ≠ M * (2 ^ (k + 1) * u) ↔ r ≠ 0 ∨ tail = true := by
    rw [← sub_ne_zero, hlow, mul_ne_zero_iff_right hu.ne', ht, Ne, add_eq_zero_iff_of_nonneg hr0 h0, not_and_or, Nat.cast_eq_zero]
  cases mode with
  | rne =>
    have habove : M * (2 ^ (k + 1) * u) + (M + 1) * (2 ^ (k + 1) * u) < 2 * ((M * 2 ^ (k + 1) + r + φ) * u) ↔ (2 : ℝ) ^ k < r + φ := by
      rw [← sub_pos, hmid, mul_pos_iff_of_pos_left two_pos, mul_pos_iff_of_pos_right hu, sub_pos]
    have htie : M * (2 ^ (k + 1) * u) + (M + 1) * (2 ^ (k + 1) * u) = 2 * ((M * 2 ^ (k + 1) + r + φ) * u) ↔ (r : ℝ) + φ = 2 ^ k := by
      rw [eq_comm, ← sub_eq_zero, hmid, mul_eq_zero_iff_left two_ne_zero, mul_eq_zero_iff_right hu.ne', sub_eq_zero]
    simp only [TakesUpper, roundsUp, Nat.add_one_ne_zero, if_false, Nat.add_sub_cancel, habove, htie]
    rcases lt_trichotomy r (2 ^ k) with h | h | h
    · have hr : (r : ℝ) + 1 ≤ 2 ^ k := by exact_mod_cast h
      simp [h.not_gt, h.ne, (by linarith : ¬(2 : ℝ) ^ k < r + φ), (by linarith : (r : ℝ) + φ ≠ 2 ^ k)]
    · have hr : (r : ℝ) = 2 ^ k := by exact_mod_cast h
      rcases h0.eq_or_lt' with hφ | hφ
      · have htail : tail = false := by simpa [hφ] using ht
        simp [h, hφ, htail]
      · have htail : tail = true := ht.2 hφ.ne'
        simp [h, hφ, htail]
    · have hr : (2 : ℝ) ^ k < r := by exact_mod_cast h
      simp [h, (by linarith : (2 : ℝ) ^ k < r + φ)]
  | rtz => rfl
  | rdn =>
    show (neg && (r != 0 || tail)) = true ↔ _
    rw [hexact]
    simp
  | rup =>
    show (!neg && (r != 0 || tail)) = true ↔ _
    rw [hexact]
    simp
  | sr w =>
    intro hA
    have hr : r = 0 := by by_contra hr; exact hexact.2 (.inl hr) hA
    simp [roundsUp, hr]

/-- Rounding to a multiple of `2 ^ q`: the multiplier is one of the two next to the exact magnitude, as the mode takes it. -/
theorem roundAt_takesUpper (neg : Bool) {p sig : Nat} {exp q : Int} {tail : Bool} {A : ℝ} (h : Approximates p sig exp tail A)
    (hq : tail = true → exp < q) : ∃ M : Nat, M * 2 ^ q ≤ A ∧ A < (M + 1) * 2 ^ q ∧ ∀ mode,
      ∃ up, roundAt mode neg sig exp q tail = (if up then M + 1 else M) ∧ TakesUpper neg (M * 2 ^ q) A ((M + 1) * 2 ^ q) (M % 2 = 1) mode up := by
  rcases le_or_gt q exp with hle | hlt
  · obtain rfl : tail = false := by by_contra ht; exact absurd (hq (by simpa using ht)) hle.not_gt
    have hA : ((sig * 2 ^ (exp - q).toNat : Nat) : ℝ) * 2 ^ q = A := by
      have hx : A = sig * 2 ^ exp := by simpa using h.tail_iff
      push_cast
      rw [hx, mul_assoc, ← zpow_natCast, ← zpow_add₀ two_ne_zero, Int.toNat_of_nonneg (by omega), sub_add_cancel]
    have hlt : A < (((sig * 2 ^ (exp - q).toNat : Nat) : ℝ) + 1) * 2 ^ q := by
      rw [← hA]
      exact mul_lt_mul_of_pos_right (lt_add_one _) (by positivity)
    refine ⟨sig * 2 ^ (exp - q).toNat, hA.le, hlt, fun mode => ⟨false, ?_, ?_⟩⟩
    · rw [roundAt, if_pos hle]
      cases mode <;> simp [roundsUp]
    · rw [hA]
      exact takesUpper_exact neg hlt _ mode
  · obtain ⟨k, hk⟩ : ∃ k, (q - exp).toNat = k + 1 := ⟨(q - exp).toNat - 1, by omega⟩
    have hu : (0 : ℝ) < 2 ^ exp := by positivity
    have hpow : (2 : ℝ) ^ q = 2 ^ (k + 1) * 2 ^ exp := by
      rw [← hk, ← zpow_natCast, ← zpow_add₀ two_ne_zero, Int.toNat_of_nonneg (by omega), sub_add_cancel]
    have hsig : (sig : ℝ) = (sig / 2 ^ (k + 1) : Nat) * 2 ^ (k + 1) + (sig % 2 ^ (k + 1) : Nat) := by
      exact_mod_cast (Nat.div_add_mod' sig (2 ^ (k + 1))).symm
    have hr : ((sig % 2 ^ (k + 1) : Nat) : ℝ) + 1 ≤ 2 ^ (k + 1) := by exact_mod_cast Nat.mod_lt sig (Nat.two_pow_pos (k + 1))
    obtain ⟨φ, hA⟩ : ∃ φ, A = (sig + φ) * 2 ^ exp := ⟨A / 2 ^ exp - sig, by field_simp; ring⟩
    have h0 : 0 ≤ φ := by have := le_of_mul_le_mul_right (hA ▸ h.le) hu; linarith
    have h1 : φ < 1 := by have := lt_of_mul_lt_mul_right (hA ▸ h.lt) hu.le; linarith
    have ht : tail = true ↔ φ ≠ 0 := by
      rw [h.tail_iff, hA, Ne, mul_left_inj' hu.ne', add_eq_left]
    rw [hsig] at hA
    refine ⟨sig / 2 ^ (k + 1), ?_, ?_, fun mode =>
      ⟨roundsUp mode neg (sig / 2 ^ (k + 1)) (sig % 2 ^ (k + 1)) (k + 1) tail, ?_, ?_⟩⟩
    · rw [hA, hpow, ← mul_assoc]
      exact mul_le_mul_of_nonneg_right (by have := Nat.cast_nonneg (α := ℝ) (sig % 2 ^ (k + 1)); linarith) hu.le
    · rw [hA, hpow, ← mul_assoc]
      exact mul_lt_mul_of_pos_right (by linarith) hu
    · rw [roundAt, if_neg hlt.not_ge, hk]
    · rw [hA, hpow]
      exact roundsUp_takesUpper neg mode hu h0 h1 ht

/-! ### Codes -/

theorem two_pow_bitlen {n : Nat} (h : n ≠ 0) : 2 ^ (bitlen n - 1) ≤ n ∧ n < 2 ^ bitlen n ∧ 0 < bitlen n := by
  rw [bitlen, if_neg h]
  exact ⟨Nat.log2_self_le h, Nat.lt_log2_self, Nat.succ_pos _⟩

section
variable {m : FFmt} (hm : IsBinary m) (neg : Bool) {sig : Nat} {exp : Int} {tail : Bool} {A : ℝ} (h : Approximates m.p sig exp tail A)

include hm h in
/-- A nonzero significand: the code that a mode gives is one of two neighbours of the exact magnitude. -/
theorem roundCode_takesUpper (hs : sig ≠ 0) : ∃ c, codeVal m c ≤ A ∧ A < codeVal m (c + 1) ∧ ∀ mode,
    ∃ up, roundCode m mode neg sig exp tail = (if up then c + 1 else c) ∧
      TakesUpper neg (codeVal m c) A (codeVal m (c + 1)) (c % 2 = 1) mode up := by
  obtain ⟨hlow, hhigh, hpos⟩ := two_pow_bitlen hs
  obtain ⟨q, hq⟩ : ∃ q, max (exp + bitlen sig - 1 - m.p + 1) m.qmin = q := ⟨_, rfl⟩
  have htail (ht : tail = true) : exp < q := by
    have : m.p < bitlen sig := (Nat.pow_lt_pow_iff_right (by decide)).1 ((h.bits ht).trans_lt hhigh)
    omega
  obtain ⟨M, hM, hM1, hround⟩ := roundAt_takesUpper neg h htail
  have hu : (0 : ℝ) < 2 ^ q := by positivity
  have hle : M + 1 ≤ 2 ^ m.p := by
    have hA : A < 2 ^ m.p * 2 ^ q := calc
      A < (sig + 1) * 2 ^ exp := h.lt
      _ ≤ 2 ^ bitlen sig * 2 ^ exp := mul_le_mul_of_nonneg_right (by exact_mod_cast hhigh) (by positivity)
      _ = 2 ^ (exp + bitlen sig) := by rw [zpow_add₀ two_ne_zero, zpow_natCast, mul_comm]
      _ ≤ 2 ^ (q + m.p) := zpow_le_zpow_right₀ one_le_two (by omega)
      _ = 2 ^ m.p * 2 ^ q := by rw [zpow_add₀ two_ne_zero, zpow_natCast, mul_comm]
    have : (M : ℝ) < 2 ^ m.p := lt_of_mul_lt_mul_right (hM.trans_lt hA) hu.le
    exact_mod_cast this
  have hge : (q - m.qmin).toNat = 0 ∨ 2 ^ (m.p - 1) ≤ M := by
    refine or_iff_not_imp_left.2 fun hk => ?_
    have hp := hm.one_lt_p
    have hA : 2 ^ (m.p - 1) * 2 ^ q ≤ A := calc
      (2 : ℝ) ^ (m.p - 1) * 2 ^ q = 2 ^ (q + (m.p - 1 : Nat)) := by rw [zpow_add₀ two_ne_zero, zpow_natCast, mul_comm]
      _ ≤ 2 ^ (exp + (bitlen sig - 1 : Nat)) := zpow_le_zpow_right₀ one_le_two (by omega)
      _ = 2 ^ (bitlen sig - 1) * 2 ^ exp := by rw [zpow_add₀ two_ne_zero, zpow_natCast, mul_comm]
      _ ≤ sig * 2 ^ exp := mul_le_mul_of_nonneg_right (by exact_mod_cast hlow) (by positivity)
      _ ≤ A := h.le
    have : (2 : ℝ) ^ (m.p - 1) < M + 1 := lt_of_mul_lt_mul_right (hA.trans_lt hM1) hu.le
    exact Nat.lt_succ_iff.1 (by exact_mod_cast this)
  have hqk : m.qmin + (q - m.qmin).toNat = q := by omega
  have hc := codeVal_grid hm (Nat.le_of_succ_le hle) hge
  have hc1 := codeVal_grid hm hle (hge.imp_right fun h => h.trans (Nat.le_succ M))
  rw [hqk] at hc hc1
  rw [Nat.cast_succ, ← Nat.add_assoc] at hc1
  have hodd : ((q - m.qmin).toNat * 2 ^ (m.p - 1) + M) % 2 = M % 2 := by
    obtain ⟨k, hk⟩ : ∃ k, m.p - 1 = k + 1 := ⟨m.p - 2, by have := hm.one_lt_p; omega⟩
    rw [hk, pow_succ, ← mul_assoc, Nat.mul_comm _ 2, Nat.mul_add_mod]
  refine ⟨(q - m.qmin).toNat * 2 ^ (m.p - 1) + M, hc ▸ hM, hc1 ▸ hM1, fun mode => ?_⟩
  obtain ⟨up, hup, ht⟩ := hround mode
  refine ⟨up, ?_, by rwa [hc, hc1, hodd]⟩
  simp only [roundCode, hq, hup]
  cases up <;> rfl

/-- The magnitude code before the overflow check. -/
def magCode (m : FFmt) (mode : Rnd) (neg : Bool) (sig : Nat) (exp : Int) (tail : Bool) : Nat :=
  if sig = 0 ∧ !tail then 0 else roundCode m mode neg sig exp tail

theorem roundTo_eq (m : FFmt) (mode : Rnd) (sat neg : Bool) (sig : Nat) (exp : Int) (tail : Bool) :
    roundTo m mode sat neg sig exp tail = if m.maxCode < magCode m mode neg sig exp tail then overflow m mode neg sat
      else withSign m neg (magCode m mode neg sig exp tail) := by
  unfold roundTo magCode
  split
  · simp
  · rfl

include hm h in
theorem magCode_takesUpper : ∃ c, codeVal m c ≤ A ∧ A < codeVal m (c + 1) ∧ ∀ mode,
    ∃ up, magCode m mode neg sig exp tail = (if up then c + 1 else c) ∧
      TakesUpper neg (codeVal m c) A (codeVal m (c + 1)) (c % 2 = 1) mode up := by
  by_cases hs : sig = 0
  · subst hs
    obtain rfl : tail = false := by
      by_contra ht
      exact absurd (h.bits (by simpa using ht)) (by simp)
    obtain rfl : A = 0 := by simpa using h.tail_iff
    have hpos := codeVal_strictMono hm Nat.zero_lt_one
    rw [codeVal_zero] at hpos
    refine ⟨0, (codeVal_zero m).le, hpos, fun mode => ⟨false, by simp [magCode], ?_⟩⟩
    rw [codeVal_zero]
    exact takesUpper_exact neg hpos _ mode
  · obtain ⟨c, hc⟩ := roundCode_takesUpper hm neg h hs
    refine ⟨c, ?_⟩
    simpa only [magCode, hs, false_and, if_false] using hc

end

end Sys2Proof.Machine
end

section
/-! O11, O12, rounding into a format: the neighbours of an exact magnitude, and of the signed value, with the infinities. -/

namespace Sys2Proof.Machine

/-- The codes that the four modes give to a magnitude `A` under a sign are those of its neighbours `low` and `high` (R25, R28). -/
structure Neighbours (m : FFmt) (r : Rnd → Nat) (neg : Bool) (A : ℝ) (low high : Nat) : Prop where
  low_le : low ≤ m.maxCode
  high_le : high ≤ m.maxCode + 1
  le_val : magVal m low ≤ A
  val_le : A ≤ magVal m high
  greatest : ∀ d, magVal m d ≤ A → magVal m d ≤ magVal m low
  least : ∀ d, A ≤ magVal m d → magVal m high ≤ magVal m d
  rtz : r .rtz = withSign m neg low
  rdn : r .rdn = withSign m neg (if neg then high else low)
  rup : r .rup = withSign m neg (if neg then low else high)
  rne : r .rne = withSign m neg low ∨ r .rne = withSign m neg high
  nearest : low ≠ high → high ≤ m.maxCode →
    (2 * A < codeVal m low + codeVal m high → r .rne = withSign m neg low) ∧
    (codeVal m low + codeVal m high < 2 * A → r .rne = withSign m neg high) ∧
    (codeVal m low + codeVal m high = 2 * A → r .rne % 2 = 0)

section
variable {m : FFmt} (hm : IsBinary m) (neg : Bool) {sig : Nat} {exp : Int} {tail : Bool} {A : ℝ}

include hm in
/-- A sign does not change the parity of a code. -/
theorem withSign_mod_two (c : Nat) : withSign m neg c % 2 = c % 2 := by
  obtain ⟨k, hk⟩ : ∃ k, m.width - 1 = k + 1 := ⟨m.width - 2, by have := hm.one_lt_width; omega⟩
  rw [withSign, hk, pow_succ]
  split <;> omega

theorem magVal_of_le {c : Nat} (h : c ≤ m.maxCode) : magVal m c = (codeVal m c : EReal) := if_pos h

theorem magVal_of_gt {c : Nat} (h : m.maxCode < c) : magVal m c = ⊤ := if_neg (not_le.2 h)

include hm in
/-- Values beyond the format (R28): each mode gives the largest finite value or infinity. -/
theorem overflow_eq :
    overflow m .rtz neg false = withSign m neg m.maxCode ∧
    overflow m .rdn neg false = withSign m neg (if neg then m.maxCode + 1 else m.maxCode) ∧
    overflow m .rup neg false = withSign m neg (if neg then m.maxCode else m.maxCode + 1) ∧
    overflow m .rne neg false = withSign m neg (m.maxCode + 1) := by
  simp [overflow, hm.infCode_eq]

include hm in
/-- Beyond the largest finite value. -/
theorem neighbours_overflow {r : Rnd → Nat} (hA : codeVal m (m.maxCode + 1) ≤ A)
    (hr : ∀ mode, r mode = overflow m mode neg false) : Neighbours m r neg A m.maxCode (m.maxCode + 1) := by
  obtain ⟨hrtz, hrdn, hrup, hrne⟩ := overflow_eq hm neg
  have hlt {d : Nat} (hd : d ≤ m.maxCode) : codeVal m d < A := (codeVal_strictMono hm (Nat.lt_succ_of_le hd)).trans_le hA
  exact {
    low_le := le_rfl
    high_le := le_rfl
    le_val := by
      rw [magVal_of_le le_rfl]
      exact EReal.coe_le_coe_iff.2 (hlt le_rfl).le
    val_le := by
      rw [magVal_of_gt (Nat.lt_succ_self _)]
      exact le_top
    greatest := fun d hd => by
      by_cases hdm : d ≤ m.maxCode
      · exact magVal_mono hm hdm
      · rw [magVal_of_gt (not_le.1 hdm)] at hd
        exact absurd hd (not_le.2 (EReal.coe_lt_top A))
    least := fun d hd => by
      by_cases hdm : d ≤ m.maxCode
      · rw [magVal_of_le hdm, EReal.coe_le_coe_iff] at hd
        exact absurd hd (not_le.2 (hlt hdm))
      · rw [magVal_of_gt (not_le.1 hdm)]
        exact le_top
    rtz := (hr _).trans hrtz
    rdn := (hr _).trans hrdn
    rup := (hr _).trans hrup
    rne := .inr ((hr _).trans hrne)
    nearest := fun _ h => absurd h (Nat.not_succ_le_self _) }

/-- A magnitude that the format has. -/
theorem neighbours_exact {r : Rnd → Nat} {c : Nat} (hc : c ≤ m.maxCode)
    (hr : ∀ mode, r mode = withSign m neg c) : Neighbours m r neg (codeVal m c) c c where
  low_le := hc
  high_le := hc.trans (Nat.le_succ _)
  le_val := (magVal_of_le hc).le
  val_le := (magVal_of_le hc).ge
  greatest := fun d hd => hd.trans (magVal_of_le hc).ge
  least := fun d hd => (magVal_of_le hc).le.trans hd
  rtz := hr _
  rdn := by rw [ite_self]; exact hr _
  rup := by rw [ite_self]; exact hr _
  rne := .inl (hr _)
  nearest := fun h => absurd rfl h

include hm in
/-- A magnitude between two neighbours. -/
theorem neighbours_inexact {r : Rnd → Nat} {c : Nat} (hcm : c ≤ m.maxCode) (hc : codeVal m c < A) (hc1 : A < codeVal m (c + 1))
    (hrtz : r .rtz = withSign m neg c) (hrdn : r .rdn = withSign m neg (if neg then c + 1 else c))
    (hrup : r .rup = withSign m neg (if neg then c else c + 1)) {up : Bool} (hrne : r .rne = withSign m neg (if up then c + 1 else c))
    (hup : TakesUpper neg (codeVal m c) A (codeVal m (c + 1)) (c % 2 = 1) .rne up) : Neighbours m r neg A c (c + 1) where
  low_le := hcm
  high_le := Nat.succ_le_succ hcm
  le_val := by
    rw [magVal_of_le hcm]
    exact EReal.coe_le_coe_iff.2 hc.le
  val_le := by
    by_cases h : c + 1 ≤ m.maxCode
    · rw [magVal_of_le h]
      exact EReal.coe_le_coe_iff.2 hc1.le
    · rw [magVal_of_gt (not_le.1 h)]
      exact le_top
  greatest := fun d hd => by
    by_cases hdm : d ≤ m.maxCode
    · rw [magVal_of_le hdm, EReal.coe_le_coe_iff] at hd
      exact magVal_mono hm (Nat.lt_succ_iff.1 ((codeVal_strictMono hm).lt_iff_lt.1 (hd.trans_lt hc1)))
    · rw [magVal_of_gt (not_le.1 hdm)] at hd
      exact absurd hd (not_le.2 (EReal.coe_lt_top A))
  least := fun d hd => by
    by_cases hdm : d ≤ m.maxCode
    · rw [magVal_of_le hdm, EReal.coe_le_coe_iff] at hd
      exact magVal_mono hm ((codeVal_strictMono hm).lt_iff_lt.1 (hc.trans_le hd))
    · rw [magVal_of_gt (not_le.1 hdm)]
      exact le_top
  rtz := hrtz
  rdn := hrdn
  rup := hrup
  rne := by
    cases up
    · exact .inl hrne
    · exact .inr hrne
  nearest := fun _ _ => by
    change up = true ↔ _ at hup
    refine ⟨fun hlt => ?_, fun hgt => ?_, fun heq => ?_⟩
    · obtain rfl : up = false := by
        rw [← Bool.not_eq_true, hup]
        rintro (h | ⟨h, -⟩) <;> linarith
      exact hrne
    · obtain rfl : up = true := hup.2 (.inl hgt)
      exact hrne
    · rw [hrne, withSign_mod_two hm]
      rcases Nat.mod_two_eq_zero_or_one c with h | h
      · obtain rfl : up = false := by
          rw [← Bool.not_eq_true, hup]
          rintro (h' | ⟨-, h'⟩)
          · linarith
          · omega
        exact h
      · obtain rfl : up = true := hup.2 (.inr ⟨heq, h⟩)
        exact Nat.succ_mod_two_eq_zero_iff.2 h

variable (h : Approximates m.p sig exp tail A)

include hm h in
/-- Rounding into a format (R25, R28). -/
theorem exists_neighbours : ∃ low high, Neighbours m (fun mode => roundTo m mode false neg sig exp tail) neg A low high := by
  obtain ⟨c, hc, hc1, hround⟩ := magCode_takesUpper hm neg h
  rcases lt_or_ge m.maxCode c with hbig | hsmall
  · refine ⟨_, _, neighbours_overflow hm neg (((codeVal_strictMono hm).monotone hbig).trans hc) fun mode => ?_⟩
    obtain ⟨up, hup, -⟩ := hround mode
    rw [roundTo_eq, hup, if_pos]
    cases up
    · exact hbig
    · exact hbig.trans (Nat.lt_succ_self c)
  have hgo {mode : Rnd} {up : Bool} (hmag : magCode m mode neg sig exp tail = if up then c + 1 else c)
      (hover : up = true → overflow m mode neg false = withSign m neg (m.maxCode + 1)) :
      roundTo m mode false neg sig exp tail = withSign m neg (if up then c + 1 else c) := by
    rw [roundTo_eq, hmag]
    cases up with
    | false => exact if_neg (not_lt.2 hsmall)
    | true =>
      rcases hsmall.lt_or_eq with hlt | rfl
      · exact if_neg (not_lt.2 hlt)
      · exact (if_pos (Nat.lt_succ_self _)).trans (hover rfl)
  obtain ⟨hotz, hodn, houp, hone⟩ := overflow_eq hm neg
  rcases hc.eq_or_lt with rfl | hlt
  · refine ⟨c, c, neighbours_exact neg hsmall fun mode => ?_⟩
    obtain ⟨up, hup, ht⟩ := hround mode
    obtain rfl : up = false := eq_false_of_takesUpper ht hc1
    exact hgo hup nofun
  · obtain ⟨uz, huz, hz⟩ := hround .rtz
    obtain ⟨ud, hud, hd⟩ := hround .rdn
    obtain ⟨uu, huu, hu⟩ := hround .rup
    obtain ⟨ue, hue, he⟩ := hround .rne
    obtain rfl : uz = false := hz
    have hd : ud = neg := Bool.eq_iff_iff.2 (hd.trans (and_iff_left hlt.ne'))
    have hu : uu = !neg := Bool.eq_iff_iff.2 (hu.trans ((and_iff_left hlt.ne').trans (by simp)))
    refine ⟨c, c + 1, neighbours_inexact hm neg hsmall hlt hc1 (hgo huz nofun) ?_ ?_ (hgo hue fun _ => hone) he⟩
    · rw [hd] at hud
      exact hgo hud fun hneg => by rw [hodn, if_pos hneg]
    · rw [hu] at huu
      cases neg
      · exact hgo huu fun _ => houp
      · exact hgo huu nofun

end

end Sys2Proof.Machine
end

section
/-! O11, O12, signed rounding: the four modes against the values of a format's codes. -/

namespace Sys2Proof.Machine

open Sys2Proof.Claims

/-- The codes that `r` gives in each mode are the exact value `X`, of the sign `neg`, rounded by R25. -/
structure RoundsReal (m : FFmt) (r : Rnd → Nat) (neg : Bool) (X : ℝ) : Prop where
  down_num : isNan (decodeF m (r .rdn)) = false
  up_num : isNan (decodeF m (r .rup)) = false
  down_le : numVal (decodeF m (r .rdn)) ≤ X
  le_up : X ≤ numVal (decodeF m (r .rup))
  greatest : ∀ c, isNan (decodeF m c) = false → numVal (decodeF m c) ≤ X → numVal (decodeF m c) ≤ numVal (decodeF m (r .rdn))
  least : ∀ c, isNan (decodeF m c) = false → X ≤ numVal (decodeF m c) → numVal (decodeF m (r .rup)) ≤ numVal (decodeF m c)
  rtz : r .rtz = r (if neg then .rup else .rdn)
  rne : r .rne = r .rdn ∨ r .rne = r .rup
  nearest : ∀ D U : ℝ, numVal (decodeF m (r .rdn)) = D → numVal (decodeF m (r .rup)) = U → r .rdn ≠ r .rup →
    (2 * X < D + U → r .rne = r .rdn) ∧ (D + U < 2 * X → r .rne = r .rup) ∧ (D + U = 2 * X → r .rne % 2 = 0)

section
variable {m : FFmt} (hm : IsBinary m) {r : Rnd → Nat} {neg : Bool} {A : ℝ} {low high : Nat}

theorem signVal_not (neg : Bool) (x : EReal) : signVal (!neg) x = -signVal neg x := by cases neg <;> simp [signVal]

include hm in
/-- The lower neighbour of a magnitude is the greatest of all values, negative ones included, not above it. -/
theorem signVal_le_low (h : Neighbours m r neg A low high) (n : Bool) (d : Nat) (hd : signVal n (magVal m d) ≤ A) :
    signVal n (magVal m d) ≤ magVal m low := by
  cases n
  · exact h.greatest d hd
  · exact (EReal.neg_le_zero.2 (magVal_nonneg hm d)).trans (magVal_nonneg hm low)

include hm in
/-- The upper neighbour is the least of all values not below it. -/
theorem high_le_signVal (hA : 0 ≤ A) (h : Neighbours m r neg A low high) (n : Bool) (d : Nat) (hd : A ≤ signVal n (magVal m d)) :
    magVal m high ≤ signVal n (magVal m d) := by
  cases n
  · exact h.least d hd
  · have h0 : (0 : EReal) ≤ signVal true (magVal m d) := (EReal.coe_nonneg.2 hA).trans hd
    have hz : signVal true (magVal m d) = 0 := le_antisymm (EReal.neg_le_zero.2 (magVal_nonneg hm d)) h0
    rw [hz] at hd ⊢
    rw [← magVal_zero m] at hd ⊢
    exact h.least 0 hd

/-- A value that is a real number is that of a finite code. -/
theorem le_maxCode_of_real {n : Bool} {c : Nat} {D : ℝ} (h : signVal n (magVal m c) = D) :
    c ≤ m.maxCode ∧ (if n then -codeVal m c else codeVal m c) = D := by
  by_cases hc : c ≤ m.maxCode
  · rw [magVal_of_le hc] at h
    refine ⟨hc, ?_⟩
    cases n <;> exact EReal.coe_injective h
  · rw [magVal_of_gt (not_le.1 hc)] at h
    cases n <;> simp [signVal] at h

/-- The signed value of a magnitude, as a real number. -/
def signReal (neg : Bool) (A : ℝ) : ℝ := if neg then -A else A

section
variable (h : Neighbours m r neg A low high)

include h in
theorem down_le_signReal : signVal neg (magVal m (if neg then high else low)) ≤ signReal neg A := by
  cases neg
  · exact h.le_val
  · exact EReal.neg_le_neg_iff.2 h.val_le

include h in
theorem signReal_le_up : signReal neg A ≤ signVal neg (magVal m (if neg then low else high)) := by
  cases neg
  · exact h.val_le
  · exact EReal.neg_le_neg_iff.2 h.le_val

include hm h in
/-- Of all values not above the signed one, the down-rounded is the greatest. -/
theorem le_down_of_le (hA : 0 ≤ A) (n : Bool) (d : Nat) (hd : signVal n (magVal m d) ≤ signReal neg A) :
    signVal n (magVal m d) ≤ signVal neg (magVal m (if neg then high else low)) := by
  cases neg
  · exact signVal_le_low hm h n d hd
  · refine EReal.le_neg_of_le_neg (signVal_not n _ ▸ high_le_signVal hm hA h (!n) d ?_)
    rw [signVal_not]
    exact EReal.le_neg_of_le_neg hd

include hm h in
/-- Of all values not below the signed one, the up-rounded is the least. -/
theorem up_le_of_le (hA : 0 ≤ A) (n : Bool) (d : Nat) (hd : signReal neg A ≤ signVal n (magVal m d)) :
    signVal neg (magVal m (if neg then low else high)) ≤ signVal n (magVal m d) := by
  cases neg
  · exact high_le_signVal hm hA h n d hd
  · refine EReal.neg_le_of_neg_le (signVal_not n _ ▸ signVal_le_low hm h (!n) d ?_)
    rw [signVal_not]
    exact EReal.neg_le_of_neg_le hd

include hm in
/-- The sign laid on the neighbours of the magnitude. -/
theorem roundsReal_of_neighbours (hA : 0 ≤ A) (h : Neighbours m r neg A low high) : RoundsReal m r neg (signReal neg A) := by
  have hlow := h.low_le.trans (Nat.le_succ _)
  obtain ⟨hdn, hdv⟩ := numVal_withSign hm neg (show (if neg then high else low) ≤ m.maxCode + 1 by cases neg; exacts [hlow, h.high_le])
  obtain ⟨hun, huv⟩ := numVal_withSign hm neg (show (if neg then low else high) ≤ m.maxCode + 1 by cases neg; exacts [h.high_le, hlow])
  rw [← h.rdn] at hdn hdv
  rw [← h.rup] at hun huv
  refine ⟨hdn, hun, hdv ▸ down_le_signReal h, huv ▸ signReal_le_up h, fun c hc hle => ?_, fun c hc hle => ?_, ?_, ?_,
    fun D U hD hU hne => ?_⟩
  · obtain ⟨n, d, -, hd⟩ := numVal_decodeF hm hc
    rw [hd] at hle ⊢
    exact hdv ▸ le_down_of_le hm h hA n d hle
  · obtain ⟨n, d, -, hd⟩ := numVal_decodeF hm hc
    rw [hd] at hle ⊢
    exact huv ▸ up_le_of_le hm h hA n d hle
  · have hrdn := h.rdn
    have hrup := h.rup
    cases neg
    · exact h.rtz.trans hrdn.symm
    · exact h.rtz.trans hrup.symm
  · have hrdn := h.rdn
    have hrup := h.rup
    cases neg
    · exact h.rne.imp (·.trans hrdn.symm) (·.trans hrup.symm)
    · exact (h.rne.imp (·.trans hrup.symm) (·.trans hrdn.symm)).symm
  · rw [hdv] at hD
    rw [huv] at hU
    obtain ⟨hdm, rfl⟩ := le_maxCode_of_real hD
    obtain ⟨hum, rfl⟩ := le_maxCode_of_real hU
    rw [h.rdn, h.rup] at hne ⊢
    cases neg with
    | false => exact h.nearest (fun he => hne (by rw [he])) hum
    | true =>
      obtain ⟨hbelow, habove, htie⟩ := h.nearest (fun he => hne (by rw [he])) hdm
      refine ⟨fun hlt => habove ?_, fun hgt => hbelow ?_, fun heq => htie ?_⟩
      all_goals simp only [signReal, if_true] at *; linarith

end

end

/-- Rounding into a format gives the codes of R25. -/
theorem roundTo_roundsReal {m : FFmt} (hm : IsBinary m) (neg : Bool) {sig : Nat} {exp : Int} {tail : Bool} {A : ℝ}
    (h : Approximates m.p sig exp tail A) : RoundsReal m (fun mode => roundTo m mode false neg sig exp tail) neg (signReal neg A) := by
  obtain ⟨low, high, hN⟩ := exists_neighbours hm neg h
  exact roundsReal_of_neighbours hm ((by positivity : (0 : ℝ) ≤ sig * 2 ^ exp).trans h.le) hN

/-- A finite value is its magnitude under its sign. -/
theorem finVal_eq_signReal (neg : Bool) (sig : Nat) (exp : Int) : finVal neg sig exp = signReal neg (sig * 2 ^ exp) := by
  cases neg
  · exact finVal_false sig exp
  · exact finVal_true sig exp

/-- A value that is neither a NaN nor an infinity. -/
theorem exists_fin_of_num {x : Num} (hn : isNan x = false) (hi : isInf x = false) : ∃ neg sig exp, x = .fin neg sig exp := by
  cases x with
  | nan => cases hn
  | inf => cases hi
  | fin neg sig exp => exact ⟨neg, sig, exp, rfl⟩

end Sys2Proof.Machine

open Sys2Proof Sys2Proof.Machine

/-- Settles O11: a finite value is its own exact magnitude, and its distances from two finite neighbours compare as their numbers do. -/
theorem roundingModes : Obligations.RoundingModes := by
  intro m neg sig exp hmem x r val down up
  have h : RoundsReal m r neg (finVal neg sig exp) := by
    rw [finVal_eq_signReal]
    exact roundTo_roundsReal (isBinary_of_mem hmem) neg (approximates_self m.p sig exp)
  have hx : isNan x = false := rfl
  refine ⟨⟨(tells_cmpNum h.down_num hx).ne_gt.2 h.down_le, fun c _ hc hle => ?_⟩,
    ⟨(tells_cmpNum hx h.up_num).ne_gt.2 h.le_up, fun c _ hc hle => ?_⟩, h.rtz, h.rne, fun hdi hui hne => ?_⟩
  · exact (tells_cmpNum hc h.down_num).ne_gt.2 (h.greatest c hc ((tells_cmpNum hc hx).ne_gt.1 hle))
  · exact (tells_cmpNum h.up_num hc).ne_gt.2 (h.least c hc ((tells_cmpNum hx hc).ne_gt.1 hle))
  · obtain ⟨nd, sd, ed, hd⟩ := exists_fin_of_num h.down_num hdi
    obtain ⟨nu, su, eu, hu⟩ := exists_fin_of_num h.up_num hui
    obtain ⟨hbelow, habove, htie⟩ := h.nearest _ _ (congrArg numVal hd) (congrArg numVal hu) hne
    have hd' : down = .fin nd sd ed := hd
    have hu' : up = .fin nu su eu := hu
    obtain ⟨na, sa, ea, ha, hav⟩ := addNum_fin .rne neg (!nd) sig sd exp ed
    obtain ⟨nb, sb, eb, hb, hbv⟩ := addNum_fin .rne nu (!neg) su sig eu exp
    have ht := tells_cmpNum_fin na nb sa sb ea eb
    rw [hav, hbv, finVal_not, finVal_not] at ht
    simp only [x, hd', hu', negNum, ha, hb]
    generalize cmpNum (.fin na sa ea) (.fin nb sb eb) = o at ht
    cases o with
    | lt => exact hbelow (by have := EReal.coe_lt_coe_iff.1 ht; linarith)
    | eq => exact htie (by have := EReal.coe_injective ht; linarith)
    | gt => exact habove (by have := EReal.coe_lt_coe_iff.1 ht; linarith)
end

section
/-! O12, lanes: each elementwise floating op is its lane function of R42, R162 or R163. -/

namespace Sys2Proof.Machine

open Sys2Proof.Claims

/-- R42, R150, R162, R163: the elementwise floating ops. -/
theorem vectorFloatLanes : VectorFloatLanes := by
  intro s f h ht hx hsat hbeats m r val exact op one
  have hfloat : floatType f = true := decide_eq_true ht
  refine ⟨fun hneg hb => ?two, fun hb _ hc => ?fma, fun hneg hbk hb hc => ?one⟩
  case two =>
    have hok : float2 f = true := by simp [float2, hfloat, hsat, hneg, hx, bkOk_of_bOk true hb, cFree_of_bOk hb]
    have two {i : Instr} {lat : Nat} {fn : Nat → Nat → Nat → Nat} (hexec : exec i s = elem2 s i f (float2 f) lat fun _ => fn) :
        op i lat fn :=
      elem2_elementwise h hbeats hb hok hexec fun _ _ _ _ _ _ => rfl
    refine ⟨two rfl, two rfl, two rfl, two rfl, fun hrnd => ?_⟩
    have hokr : (float2 f && f.rnd == 0) = true := by simp [hok, hrnd]
    exact ⟨elem2_elementwise h hbeats hb hokr rfl fun _ _ _ _ _ _ => rfl, elem2_elementwise h hbeats hb hokr rfl fun _ _ _ _ _ _ => rfl⟩
  case fma =>
    have hok : (floatType f && f.sat == 0 && f.xtra == 0 && bkOk f false) = true := by simp [hfloat, hsat, hx, bkOk_of_bOk false hb]
    exact elem3_elementwise h hbeats hc hb hok rfl fun _ _ _ _ _ _ _ => rfl
  case one =>
    have hok : float1 f = true := by simp [float1, hfloat, hsat, hneg, hx]
    have one {i : Instr} {lat : Nat} {fn : Nat → Nat} (hexec : exec i s = elem1 s i f (float1 f) lat fun _ a _ _ => fn a) :
        op i lat fun a _ _ => fn a :=
      elem1_elementwise h hbeats hok hbk hb hc hexec fun _ _ _ _ _ => rfl
    exact ⟨one rfl, one rfl, one rfl, one rfl, one rfl, one rfl, one rfl, one rfl⟩

end Sys2Proof.Machine
end

section
/-! O12, single rounding: quotients and roots as exact magnitudes with a tail, and the orders that tell them. -/

namespace Sys2Proof.Machine

open Sys2Proof.Claims

/-- A real number between two whole multiples of `2 ^ exp`, with the tail that tells whether it is the lower one. -/
theorem approximates_of_real {p N : Nat} {exp : Int} {tail : Bool} {y : ℝ} (hle : N ≤ y) (hlt : y < N + 1) (ht : tail = true ↔ y ≠ N)
    (hbits : tail = true → 2 ^ p ≤ N) : Approximates p N exp tail (y * 2 ^ exp) where
  le := mul_le_mul_of_nonneg_right hle (by positivity)
  lt := mul_lt_mul_of_pos_right hlt (by positivity)
  tail_iff := by rw [ht, Ne, Ne, mul_left_inj' (by positivity : (2 : ℝ) ^ exp ≠ 0)]
  bits := hbits

/-! ### Quotients (R162) -/

/-- A whole quotient and its remainder against the real quotient. -/
theorem quotient_bounds {n t : Nat} (ht : t ≠ 0) :
    ((n / t : Nat) : ℝ) ≤ (n : ℝ) / t ∧ (n : ℝ) / t < (n / t : Nat) + 1 ∧ (n % t = 0 ↔ (n : ℝ) / t = (n / t : Nat)) := by
  have hpos : (0 : ℝ) < t := by exact_mod_cast Nat.pos_of_ne_zero ht
  have hn : (n : ℝ) = t * (n / t : Nat) + (n % t : Nat) := by exact_mod_cast (Nat.div_add_mod n t).symm
  have hmod : ((n % t : Nat) : ℝ) < t := by exact_mod_cast Nat.mod_lt n (Nat.pos_of_ne_zero ht)
  refine ⟨Nat.cast_div_le, ?_, ?_⟩
  · rw [div_lt_iff₀ hpos]
    linarith
  · rw [div_eq_iff hpos.ne', mul_comm, ← Nat.cast_eq_zero (R := ℝ)]
    constructor <;> intro h <;> linarith

/-- The significand and tail of a quotient (R162). -/
theorem approximates_quotient {p s t : Nat} (e g : Int) (hp : p ≤ 24) (ht : t ≠ 0) (htp : t < 2 ^ p) :
    Approximates p (s * 2 ^ 96 / t) (e - g - 96) (s * 2 ^ 96 % t != 0) (s * 2 ^ e / (t * 2 ^ g)) := by
  obtain ⟨hle, hlt, hexact⟩ := quotient_bounds (n := s * 2 ^ 96) ht
  have hA : (s * 2 ^ e / (t * 2 ^ g) : ℝ) = ((s * 2 ^ 96 : Nat) : ℝ) / t * 2 ^ (e - g - 96) := by
    rw [zpow_sub₀ two_ne_zero, zpow_sub₀ two_ne_zero]
    push_cast
    field_simp
    norm_cast
  rw [hA]
  refine approximates_of_real hle hlt (by rw [bne_iff_ne, Ne, hexact]) fun hr => ?_
  have hs : 1 ≤ s := Nat.one_le_iff_ne_zero.2 fun h0 => by simp [h0] at hr
  rw [Nat.le_div_iff_mul_le (Nat.pos_of_ne_zero ht)]
  calc 2 ^ p * t ≤ 2 ^ 24 * 2 ^ 24 := Nat.mul_le_mul (Nat.pow_le_pow_right two_pos hp) (htp.le.trans (Nat.pow_le_pow_right two_pos hp))
    _ ≤ 1 * 2 ^ 96 := by norm_num
    _ ≤ s * 2 ^ 96 := Nat.mul_le_mul_right _ hs

/-! ### Roots (R42, R162) -/

/-- The bits of the integer square root from the top down: what each leaves to the ones below. -/
theorem isqrt_bounds (n b : Nat) (hn : n < (2 ^ (b + 2)) * (2 ^ (b + 2))) :
    isqrt n (b + 1) * isqrt n (b + 1) ≤ n ∧ n < (isqrt n (b + 1) + 1) * (isqrt n (b + 1) + 1) := by
  have hstep (k : Nat) (hk : k ≤ b + 2) :
      let r := (List.range k).foldl (fun r i => let c := r + 2 ^ (b + 1 - i); if c * c ≤ n then c else r) 0
      r * r ≤ n ∧ n < (r + 2 ^ (b + 2 - k)) * (r + 2 ^ (b + 2 - k)) := by
    induction k with
    | zero => simpa using hn
    | succ k ih =>
      obtain ⟨hle, hlt⟩ := ih (Nat.le_of_succ_le hk)
      simp only [List.range_succ, List.foldl_append, List.foldl_cons, List.foldl_nil]
      generalize (List.range k).foldl _ 0 = r at hle hlt ⊢
      obtain ⟨j, hj⟩ : ∃ j, b + 1 = k + j := Nat.exists_eq_add_of_le (Nat.le_of_succ_le_succ hk)
      have h1 : b + 1 - k = j := by omega
      have h2 : b + 2 - (k + 1) = j := by omega
      have h3 : b + 2 - k = j + 1 := by omega
      rw [h3, pow_succ, mul_two, ← Nat.add_assoc] at hlt
      rw [h1, h2]
      split
      next h => exact ⟨h, hlt⟩
      next h => exact ⟨hle, not_le.1 h⟩
  have := hstep (b + 2) le_rfl
  rwa [Nat.sub_self] at this

/-- The integer square root against the real one. -/
theorem sqrt_bounds {n r : Nat} {x : ℝ} (hn : r * r ≤ n ∧ n < (r + 1) * (r + 1)) (hx : n ≤ x) (hx1 : x < n + 1) :
    (r : ℝ) ≤ √x ∧ √x < r + 1 ∧ (√x = r ↔ x = n ∧ r * r = n) := by
  have h0 : (0 : ℝ) ≤ x := (Nat.cast_nonneg n).trans hx
  have hlow : (r : ℝ) * r ≤ n := by exact_mod_cast hn.1
  have hhigh : (n : ℝ) + 1 ≤ (r + 1) * (r + 1) := by exact_mod_cast hn.2
  refine ⟨Real.le_sqrt_of_sq_le (by nlinarith), (Real.sqrt_lt' (by positivity)).2 (by nlinarith), fun h => ?_, fun h => ?_⟩
  · have hsq : x = r * r := by rw [← h, Real.mul_self_sqrt h0]
    have hxn : x = n := le_antisymm (hsq ▸ hlow) hx
    exact ⟨hxn, by exact_mod_cast hsq.symm.trans hxn⟩
  · rw [h.1, ← h.2]
    push_cast
    exact Real.sqrt_mul_self (Nat.cast_nonneg r)

/-- A square root and an even power of two. -/
theorem sqrt_mul_zpow {a : ℝ} (ha : 0 ≤ a) {h j : Int} (hj : 2 * h = j) : √(a * 2 ^ j) = √a * 2 ^ h := by
  rw [← hj, two_mul, zpow_add₀ two_ne_zero, Real.sqrt_mul ha, Real.sqrt_mul_self (by positivity)]

/-- The significand and tail of a square root (R162). -/
theorem approximates_sqrt {p s : Nat} (e : Int) (hp : p ≤ 24) (hs : s ≠ 0) (hsp : s < 2 ^ p) {k : Nat} (hk : k = if e % 2 = 0 then 96 else 97) :
    let r := isqrt (s * 2 ^ k) 64
    Approximates p r ((e - k) / 2) (r * r != s * 2 ^ k) √(s * 2 ^ e) := by
  intro r
  have hk97 : 96 ≤ k ∧ k ≤ 97 := by rw [hk]; split <;> omega
  have hs24 : s ≤ 2 ^ 24 := hsp.le.trans (Nat.pow_le_pow_right two_pos hp)
  have hn : r * r ≤ s * 2 ^ k ∧ s * 2 ^ k < (r + 1) * (r + 1) := isqrt_bounds _ 63 <| calc
    s * 2 ^ k ≤ 2 ^ 24 * 2 ^ 97 := Nat.mul_le_mul hs24 (Nat.pow_le_pow_right two_pos hk97.2)
    _ < 2 ^ (63 + 2) * 2 ^ (63 + 2) := by norm_num
  obtain ⟨hle, hlt, hexact⟩ := sqrt_bounds hn le_rfl (lt_add_one _)
  have hA : √(s * 2 ^ e) = √((s * 2 ^ k : Nat) : ℝ) * 2 ^ ((e - k) / 2) := by
    have hj : 2 * ((e - k) / 2) = e - k := by rw [hk]; split <;> omega
    rw [← sqrt_mul_zpow (Nat.cast_nonneg _) hj]
    push_cast
    rw [mul_assoc, ← zpow_natCast, ← zpow_add₀ two_ne_zero, add_sub_cancel]
  rw [hA]
  refine approximates_of_real hle hlt (by rw [bne_iff_ne, Ne, Ne, hexact, and_iff_right rfl]) fun _ => ?_
  have hbig : 2 ^ 24 * 2 ^ 24 < (r + 1) * (r + 1) := calc
    2 ^ 24 * 2 ^ 24 ≤ 1 * 2 ^ 96 := by norm_num
    _ ≤ s * 2 ^ k := Nat.mul_le_mul (Nat.one_le_iff_ne_zero.2 hs) (Nat.pow_le_pow_right two_pos hk97.1)
    _ < _ := hn.2
  exact (Nat.pow_le_pow_right two_pos hp).trans (Nat.lt_succ_iff.1 (Nat.mul_self_lt_mul_self_iff.1 hbig))

/-- The significand and tail of a reciprocal square root (R42). -/
theorem approximates_rsqrt {p s : Nat} (e : Int) (hp : p ≤ 24) (hs : s ≠ 0) (hsp : s < 2 ^ p) {k : Nat} (hk : k = if e % 2 = 0 then 160 else 161) :
    let r := isqrt (2 ^ k / s) 100
    Approximates p r ((-e - k) / 2) (2 ^ k % s != 0 || r * r != 2 ^ k / s) √(1 / (s * 2 ^ e)) := by
  intro r
  have hk161 : 160 ≤ k ∧ k ≤ 161 := by rw [hk]; split <;> omega
  have hs24 : s ≤ 2 ^ 24 := hsp.le.trans (Nat.pow_le_pow_right two_pos hp)
  obtain ⟨hqle, hqlt, hqexact⟩ := quotient_bounds (n := 2 ^ k) hs
  have hn : r * r ≤ 2 ^ k / s ∧ 2 ^ k / s < (r + 1) * (r + 1) := isqrt_bounds _ 99 <| calc
    2 ^ k / s ≤ 2 ^ k := Nat.div_le_self _ _
    _ ≤ 2 ^ 161 := Nat.pow_le_pow_right two_pos hk161.2
    _ < 2 ^ (99 + 2) * 2 ^ (99 + 2) := by norm_num
  obtain ⟨hle, hlt, hexact⟩ := sqrt_bounds hn hqle hqlt
  have hA : √(1 / (s * 2 ^ e)) = √(((2 ^ k : Nat) : ℝ) / s) * 2 ^ ((-e - k) / 2) := by
    have hj : 2 * ((-e - k) / 2) = -e - k := by rw [hk]; split <;> omega
    rw [← sqrt_mul_zpow (by positivity) hj, zpow_sub₀ two_ne_zero, zpow_neg]
    congr 1
    push_cast
    field_simp
    norm_cast
  rw [hA]
  refine approximates_of_real hle hlt ?_ fun _ => ?_
  · rw [Ne, hexact, ← hqexact, Bool.or_eq_true, bne_iff_ne, bne_iff_ne, not_and_or]
  have hbig : 2 ^ 24 * 2 ^ 24 < (r + 1) * (r + 1) := lt_of_le_of_lt ((Nat.le_div_iff_mul_le (Nat.pos_of_ne_zero hs)).2 <| calc
    2 ^ 24 * 2 ^ 24 * s ≤ 2 ^ 24 * 2 ^ 24 * 2 ^ 24 := Nat.mul_le_mul_left _ hs24
    _ ≤ 2 ^ 160 := by norm_num
    _ ≤ 2 ^ k := Nat.pow_le_pow_right two_pos hk161.1) hn.2
  exact (Nat.pow_le_pow_right two_pos hp).trans (Nat.lt_succ_iff.1 (Nat.mul_self_lt_mul_self_iff.1 hbig))

end Sys2Proof.Machine
end

section
/-! O12, single rounding: the orders of the statement, and the values that the functions of R42 round. -/

namespace Sys2Proof.Machine

open Sys2Proof.Claims

/-- What the statement asks of a rounding, from what the codes are and what the order tells. -/
theorem rounds_of_roundsReal {m : FFmt} {r : Rnd → Nat} {neg : Bool} {X : ℝ} {order : Num → Ordering} (h : RoundsReal m r neg X)
    (ho : ∀ y, isNan y = false → Tells (order y) (numVal y) X) : Rounds m r neg order := by
  unfold Rounds
  intro val down up
  refine ⟨⟨(ho _ h.down_num).ne_gt.2 h.down_le, fun c _ hc hle => ?_⟩, ⟨(ho _ h.up_num).ne_lt.2 h.le_up, fun c _ hc hle => ?_⟩, h.rtz, h.rne,
    fun hdi hui hne => ?_⟩
  · exact (tells_cmpNum hc h.down_num).ne_gt.2 (h.greatest c hc ((ho _ hc).ne_gt.1 hle))
  · exact (tells_cmpNum h.up_num hc).ne_gt.2 (h.least c hc ((ho _ hc).ne_lt.1 hle))
  · obtain ⟨nd, sd, ed, hd⟩ := exists_fin_of_num h.down_num hdi
    obtain ⟨nu, su, eu, hu⟩ := exists_fin_of_num h.up_num hui
    obtain ⟨hbelow, habove, htie⟩ := h.nearest _ _ (congrArg numVal hd) (congrArg numVal hu) hne
    have hd' : down = .fin nd sd ed := hd
    have hu' : up = .fin nu su eu := hu
    obtain ⟨n, s, e, hsum, hval⟩ := addNum_fin .rne nd nu sd su ed eu
    have hmid : mulNum (.fin false 1 (-1)) (addNum .rne down up) = .fin (false != n) (1 * s) (-1 + e) := by rw [hd', hu', hsum]; rfl
    have ht := ho (.fin (false != n) (1 * s) (-1 + e)) rfl
    rw [numVal_fin, finVal_mul, hval, finVal_false] at ht
    rw [hmid]
    generalize order (.fin (false != n) (1 * s) (-1 + e)) = o at ht
    cases o with
    | lt => exact habove (by have := EReal.coe_lt_coe_iff.1 ht; norm_num at this; linarith)
    | eq => exact htie (by have := EReal.coe_injective ht; norm_num at this; linarith)
    | gt => exact hbelow (by have := EReal.coe_lt_coe_iff.1 ht; norm_num at this; linarith)

/-! ### Orders -/

/-- Orders of real numbers carry over along a map that keeps and reflects them. -/
theorem Tells.of_iff {o : Ordering} {x y x' y' : ℝ} (h : Tells o x y) (hlt : x < y ↔ x' < y') (hgt : y < x ↔ y' < x') : Tells o x' y' := by
  cases o with
  | lt => exact EReal.coe_lt_coe_iff.2 (hlt.1 (EReal.coe_lt_coe_iff.1 h))
  | eq =>
    have he : x = y := EReal.coe_injective h
    exact congrArg _ (le_antisymm (not_lt.1 (mt hgt.2 he.le.not_gt)) (not_lt.1 (mt hlt.2 he.ge.not_gt)))
  | gt => exact EReal.coe_lt_coe_iff.2 (hgt.1 (EReal.coe_lt_coe_iff.1 h))

theorem finVal_pos {sig : Nat} (h : sig ≠ 0) (exp : Int) : 0 < finVal false sig exp := by
  rw [finVal_false]
  have : (0 : ℝ) < sig := by exact_mod_cast Nat.pos_of_ne_zero h
  positivity

/-- Comparing `y × b` with `a`, turned round for a negative `b`, tells how `y` lies to `a / b`. -/
theorem tells_ratio {na nb : Bool} {sa sb : Nat} {ea eb : Int} (hb : sb ≠ 0) {y : Num} (hy : isNan y = false) :
    Tells (if nb then cmpNum (.fin na sa ea) (mulNum y (.fin nb sb eb)) else cmpNum (mulNum y (.fin nb sb eb)) (.fin na sa ea))
      (numVal y) (finVal na sa ea / finVal nb sb eb : ℝ) := by
  have hpos := finVal_pos hb eb
  cases y with
  | nan => cases hy
  | inf c => cases nb <;> cases c <;> simp [mulNum, hb, cmpNum, Tells, numVal, EReal.coe_lt_top, EReal.bot_lt_coe]
  | fin c t g =>
    simp only [mulNum, numVal_fin]
    cases nb with
    | false =>
      have ht := tells_cmpNum_fin (c != false) na (t * sb) sa (g + eb) ea
      rw [finVal_mul] at ht
      exact ht.of_iff (lt_div_iff₀ hpos).symm (div_lt_iff₀ hpos).symm
    | true =>
      have hneg : finVal true sb eb < 0 := by
        rw [← Bool.not_false, finVal_not]
        exact neg_neg_of_pos hpos
      have ht := tells_cmpNum_fin na (c != true) sa (t * sb) ea (g + eb)
      rw [finVal_mul] at ht
      exact ht.of_iff (lt_div_iff_of_neg hneg).symm (div_lt_iff_of_neg hneg).symm

/-- Comparing `y × y` with a nonnegative number tells how a nonnegative `y` lies to its root. -/
theorem Tells.sqrt {o : Ordering} {y z : ℝ} (h : Tells o (y * y : ℝ) z) (hy : 0 ≤ y) (hz : 0 ≤ z) : Tells o y √z :=
  h.of_iff (by rw [Real.lt_sqrt hy, sq]) (by rw [Real.sqrt_lt hz hy, sq])

/-- The order of a positive root: values with a minus sign lie below it, and infinity above. -/
theorem tells_root {sq : Num → Ordering} {z : ℝ} (hz : 0 < z) (hinf : sq (.inf false) = .gt)
    (hfin : ∀ s e, Tells (sq (.fin false s e)) (finVal false s e * finVal false s e : ℝ) z) {y : Num} (hy : isNan y = false) :
    Tells (if isNeg y then .lt else sq y) (numVal y) √z := by
  have hroot : 0 < √z := Real.sqrt_pos.2 hz
  have h0 (s : Nat) (e : Int) : 0 ≤ finVal false s e := by rw [finVal_false]; positivity
  cases y with
  | nan => cases hy
  | inf c =>
    cases c
    · rw [isNeg, if_neg Bool.false_ne_true, hinf]
      exact EReal.coe_lt_top _
    · exact EReal.bot_lt_coe _
  | fin c s e =>
    cases c
    · exact (hfin s e).sqrt (h0 s e) hz.le
    · refine EReal.coe_lt_coe_iff.2 (lt_of_le_of_lt ?_ hroot)
      rw [← Bool.not_false, finVal_not]
      exact neg_nonpos.2 (h0 s e)

/-- Comparing `y × y` with a positive value. -/
theorem tells_sqrt {s : Nat} {e : Int} (hs : s ≠ 0) {y : Num} (hy : isNan y = false) :
    Tells (if isNeg y then .lt else cmpNum (mulNum y y) (.fin false s e)) (numVal y) √(s * 2 ^ e) := by
  rw [← finVal_false]
  refine tells_root (sq := fun y => cmpNum (mulNum y y) (.fin false s e)) (finVal_pos hs e) rfl (fun t g => ?_) hy
  rw [← finVal_mul]
  exact tells_cmpNum_fin _ _ _ _ _ _

/-- Comparing `y × y × x` with 1, for a positive value `x`. -/
theorem tells_rsqrt {s : Nat} {e : Int} (hs : s ≠ 0) {y : Num} (hy : isNan y = false) :
    Tells (if isNeg y then .lt else cmpNum (mulNum (mulNum y y) (.fin false s e)) (.fin false 1 0)) (numVal y) √(1 / (s * 2 ^ e)) := by
  have hpos := finVal_pos hs e
  rw [← finVal_false]
  refine tells_root (sq := fun y => cmpNum (mulNum (mulNum y y) (.fin false s e)) (.fin false 1 0)) (by positivity) (by simp [mulNum, hs, cmpNum])
    (fun t g => ?_) hy
  have ht := tells_cmpNum_fin ((false != false) != false) false (t * t * s) 1 (g + g + e) 0
  have hone : finVal false 1 0 = 1 := by simp [finVal]
  rw [finVal_mul, finVal_mul, hone] at ht
  exact ht.of_iff (lt_div_iff₀ hpos).symm (div_lt_iff₀ hpos).symm

/-! ### Quotients and roots, rounded -/

section
variable {m : FFmt} (hm : IsBinary m)

include hm in
/-- A quotient by a nonzero value of the format. -/
theorem rounds_divRound (na nb : Bool) (sa : Nat) {sb : Nat} (ea eb : Int) (hb : sb ≠ 0) (hbp : sb < 2 ^ m.p) :
    Rounds m (fun r => divRound m r (.fin na sa ea) (.fin nb sb eb)) (na != nb) fun y =>
      if nb then cmpNum (.fin na sa ea) (mulNum y (.fin nb sb eb)) else cmpNum (mulNum y (.fin nb sb eb)) (.fin na sa ea) := by
  have hr (mode : Rnd) : divRound m mode (.fin na sa ea) (.fin nb sb eb) =
      roundTo m mode false (na != nb) (sa * 2 ^ 96 / sb) (ea - eb - 96) (sa * 2 ^ 96 % sb != 0) := if_neg hb
  have hX : finVal na sa ea / finVal nb sb eb = signReal (na != nb) (sa * 2 ^ ea / (sb * 2 ^ eb)) := by
    rw [finVal_eq_signReal, finVal_eq_signReal]
    cases na <;> cases nb <;> simp [signReal, div_neg, neg_div]
  simp only [hr]
  refine rounds_of_roundsReal (X := finVal na sa ea / finVal nb sb eb) ?_ fun y hy => tells_ratio hb hy
  rw [hX]
  exact roundTo_roundsReal hm _ (approximates_quotient ea eb hm.p_le hb hbp)

include hm in
/-- A square root of a positive value of the format. -/
theorem rounds_sqrtRound {s : Nat} (e : Int) (hs : s ≠ 0) (hsp : s < 2 ^ m.p) :
    Rounds m (fun r => sqrtRound m r (.fin false s e)) false fun y => if isNeg y then .lt else cmpNum (mulNum y y) (.fin false s e) := by
  have happ := approximates_sqrt e hm.p_le hs hsp rfl
  have hr := roundTo_roundsReal hm false happ
  simp only [sqrtRound, hs, if_false, Bool.false_eq_true]
  exact rounds_of_roundsReal hr fun y hy => tells_sqrt hs hy

include hm in
/-- A reciprocal square root of a positive code. -/
theorem rounds_rsq {s : Nat} {e : Int} {c : Nat} (hc : decodeF m c = .fin false s e) (hs : s ≠ 0) :
    Rounds m (fun r => rfun .rsq m r c) false fun y =>
      if isNeg y then .lt else cmpNum (mulNum (mulNum y y) (.fin false s e)) (.fin false 1 0) := by
  have happ := approximates_rsqrt e hm.p_le hs (decodeF_sig_lt hm hc) rfl
  have hr := roundTo_roundsReal hm false happ
  simp only [rfun, hc, hs, if_false, Bool.false_eq_true]
  exact rounds_of_roundsReal hr fun y hy => tells_rsqrt hs hy

/-- A reciprocal is the quotient of 1. -/
theorem rfun_rcp {c : Nat} (hc : isNan (decodeF m c) = false) (mode : Rnd) :
    rfun .rcp m mode c = divRound m mode (.fin false 1 0) (decodeF m c) := by
  unfold rfun
  generalize decodeF m c = x at hc
  cases x with
  | nan => cases hc
  | inf => rfl
  | fin => rfl

end

/-! ### One rounding in every mode (R42) -/

/-- A result that no mode changes, or the rounding of one value, with or without a tail, in every mode. -/
def RoundsOnce (m : FFmt) (g : Rnd → Nat) : Prop :=
  (∀ r, g r = g .rne) ∨ ∃ neg sig exp tail, ∀ r, g r = roundTo m r false neg sig exp tail

section
variable {m : FFmt}

theorem roundsOnce_const (c : Nat) : RoundsOnce m fun _ => c := .inl fun _ => rfl

theorem roundsOnce_roundTo (neg : Bool) (sig : Nat) (exp : Int) (tail : Bool) : RoundsOnce m fun r => roundTo m r false neg sig exp tail :=
  .inr ⟨neg, sig, exp, tail, fun _ => rfl⟩

/-- Where the two ends round apart, one of them is taken in every mode (assumption 14). -/
theorem roundsOnce_decideRound (neg : Bool) (a : Nat) (exp : Int) (fn x : Nat) : RoundsOnce m fun r => decideRound m r neg a exp fn x := by
  cases h : Config.roundUp fn x
  · refine .inr ⟨neg, a - 2 ^ 64, exp, true, fun r => ?_⟩
    simp [decideRound, h]
  · refine .inr ⟨neg, a + 2 ^ 64, exp, true, fun r => ?_⟩
    simp only [decideRound, h, if_true]
    split
    next he => exact he
    next => rfl

theorem roundsOnce_ite {p : Prop} [Decidable p] {g g' : Rnd → Nat} (h : RoundsOnce m g) (h' : RoundsOnce m g') :
    RoundsOnce m fun r => if p then g r else g' r := by
  by_cases hp : p
  · simpa only [hp, if_true] using h
  · simpa only [hp, if_false] using h'

theorem roundsOnce_divRound (x y : Num) : RoundsOnce m fun r => divRound m r x y := by
  cases x with
  | nan => exact roundsOnce_const _
  | inf a => cases y <;> exact roundsOnce_const _
  | fin a s e =>
    cases y with
    | nan => exact roundsOnce_const _
    | inf b => exact roundsOnce_const _
    | fin b t g => exact roundsOnce_ite (roundsOnce_ite (roundsOnce_const _) (roundsOnce_const _)) (roundsOnce_roundTo _ _ _ _)

theorem roundsOnce_trigRound (isCos neg : Bool) (sig : Nat) (exp : Int) (x : Nat) : RoundsOnce m fun r => trigRound m r isCos neg sig exp x :=
  roundsOnce_ite (roundsOnce_const _)
    (roundsOnce_ite (roundsOnce_ite (roundsOnce_const _) (roundsOnce_roundTo _ _ _ _)) (roundsOnce_decideRound _ _ _ _ _))

theorem roundsOnce_log2Round (sig : Nat) (exp : Int) (x : Nat) : RoundsOnce m fun r => log2Round m r sig exp x :=
  roundsOnce_ite (roundsOnce_roundTo _ _ _ _) (roundsOnce_decideRound _ _ _ _ _)

theorem roundsOnce_tanhRound (neg : Bool) (sig : Nat) (exp : Int) (x : Nat) : RoundsOnce m fun r => tanhRound m r neg sig exp x :=
  roundsOnce_ite (roundsOnce_roundTo _ _ _ _) (roundsOnce_decideRound _ _ _ _ _)

end

end Sys2Proof.Machine
end

section
/-! O12, single rounding: the functions of R42 round once, and their special operands. -/

namespace Sys2Proof.Machine

open Sys2Proof.Claims

section
variable {m : FFmt}

theorem roundsOnce_exp2Round (n : Int) (fr x : Nat) : RoundsOnce m fun r => exp2Round m r n fr x := by
  simp only [exp2Round]
  exact roundsOnce_decideRound _ _ _ _ _

theorem roundsOnce_exp2 (neg : Bool) (s : Nat) (e : Int) {c : Nat} (hc : decodeF m c = .fin neg s e) :
    RoundsOnce m fun r => rfun .exp2 m r c := by
  simp only [rfun, hc]
  refine roundsOnce_ite (roundsOnce_const _) (roundsOnce_ite (roundsOnce_roundTo _ _ _ _) (roundsOnce_ite (roundsOnce_roundTo _ _ _ _) ?_))
  exact roundsOnce_ite (roundsOnce_exp2Round _ _ _) (roundsOnce_exp2Round _ _ _)

/-- Each of the seven functions of a finite code. -/
theorem roundsOnce_rfun_fin (fn : RFun) {neg : Bool} {s : Nat} {e : Int} {c : Nat} (hc : decodeF m c = .fin neg s e) :
    RoundsOnce m fun r => rfun fn m r c := by
  cases fn with
  | rcp =>
    simp only [rfun_rcp (show isNan (decodeF m c) = false by rw [hc]; rfl)]
    exact roundsOnce_divRound _ _
  | exp2 => exact roundsOnce_exp2 neg s e hc
  | rsq =>
    simp only [rfun, hc]
    exact roundsOnce_ite (roundsOnce_const _) (roundsOnce_ite (roundsOnce_const _) (roundsOnce_roundTo _ _ _ _))
  | log2 =>
    simp only [rfun, hc]
    exact roundsOnce_ite (roundsOnce_const _) (roundsOnce_ite (roundsOnce_const _) (roundsOnce_log2Round _ _ _))
  | sin =>
    simp only [rfun, hc]
    exact roundsOnce_ite (roundsOnce_const _) (roundsOnce_trigRound _ _ _ _ _)
  | cos =>
    simp only [rfun, hc]
    exact roundsOnce_ite (roundsOnce_const _) (roundsOnce_trigRound _ _ _ _ _)
  | tanh =>
    simp only [rfun, hc]
    exact roundsOnce_ite (roundsOnce_const _) (roundsOnce_tanhRound _ _ _ _)

theorem rfun_nan (fn : RFun) (r : Rnd) {c : Nat} (hc : decodeF m c = .nan) : rfun fn m r c = m.nanCode.getD 0 := by
  cases fn <;> simp only [rfun, hc]

/-- Each of the seven functions rounds one value, or gives the same code in every mode. -/
theorem roundsOnce_rfun (fn : RFun) (c : Nat) : RoundsOnce m fun r => rfun fn m r c := by
  cases hc : decodeF m c with
  | nan => exact .inl fun r => (rfun_nan fn r hc).trans (rfun_nan fn .rne hc).symm
  | inf neg => exact .inl fun r => by cases fn <;> simp only [rfun, hc, divRound]
  | fin neg s e => exact roundsOnce_rfun_fin fn hc

end

/-- The infinities in R42's table. -/
theorem rfun_inf {m : FFmt} (r : Rnd) {neg : Bool} {c : Nat} (hc : decodeF m c = .inf neg) :
    let nan := m.nanCode.getD 0
    let inf := convertFloat (.inf false) m .rne false
    [RFun.rcp, .rsq, .exp2, .log2, .sin, .cos, .tanh].map (fun fn => rfun fn m r c) =
      [withSign m neg 0, if neg then nan else 0, if neg then 0 else inf, if neg then nan else inf, nan, nan, withSign m neg (oneCode m)] := by
  simp only [List.map_cons, List.map_nil, rfun, hc, divRound, Bool.false_bne]

/-- The zeros in R42's table. -/
theorem rfun_zero {m : FFmt} (r : Rnd) {neg : Bool} {e : Int} {c : Nat} (hc : decodeF m c = .fin neg 0 e) :
    let inf (neg : Bool) := convertFloat (.inf neg) m .rne false
    [RFun.rcp, .rsq, .exp2, .log2, .sin, .cos, .tanh].map (fun fn => rfun fn m r c) =
      [inf neg, inf neg, oneCode m, inf true, withSign m neg 0, oneCode m, withSign m neg 0] := by
  simp only [List.map_cons, List.map_nil, rfun, hc, divRound, Bool.false_bne, if_true, Nat.one_ne_zero, if_false]
  rfl

/-- The codes of R42's table in the three formats. -/
theorem special_codes {m : FFmt} {unit : Nat} (h : (m, unit) ∈ [(fp32, 0x3F800000), (fp16, 0x3C00), (bf16, 0x3F80)]) :
    oneCode m = unit ∧ decodeF m (m.infCode.getD 0) = .inf false ∧ decodeF m (2 ^ (m.width - 1) + m.infCode.getD 0) = .inf true ∧
      decodeF m 0 = .fin false 0 m.qmin ∧ decodeF m (2 ^ (m.width - 1)) = .fin true 0 m.qmin := by
  revert h
  simp only [List.mem_cons, Prod.mk.injEq, List.not_mem_nil, or_false]
  rintro (⟨rfl, rfl⟩ | ⟨rfl, rfl⟩ | ⟨rfl, rfl⟩) <;> decide

/-- R25, R42, R162: quotients, roots and the functions of R42. -/
theorem singleRounding : SingleRounding := by
  intro m unit hmem one isNeg ratio nan inf sgn fns table
  have hm : IsBinary m := isBinary_of_mem (by simp only [List.mem_cons, Prod.mk.injEq, List.not_mem_nil, or_false] at hmem ⊢; tauto)
  have hneg : isNeg = Machine.isNeg := by funext y; cases y <;> rfl
  obtain ⟨hone, hinf, hninf, hzero, hnzero⟩ := special_codes hmem
  have hcode (neg : Bool) (r : Rnd) : convertFloat (.inf neg) m r false = withSign m neg inf := by
    simp [convertFloat, inf, hm.infCode_eq]
  have hplus (c : Nat) : withSign m false c = c := rfl
  have hminus (c : Nat) : withSign m true c = sgn + c := Nat.add_comm _ _
  refine ⟨fun na nb sa sb ea eb ca cb _ hb hsb => ⟨?_, ?_⟩, fun sa ea ca ha hsa => ⟨?_, ?_⟩, roundsOnce_rfun, fun c hc r => ?_,
    ?_, ?_, ?_, ?_, fun sa ea c r hc hsa => ?_⟩
  · exact rounds_divRound hm na nb sa ea eb hsb (decodeF_sig_lt hm hb)
  · have h := rounds_divRound hm false nb 1 0 eb hsb (decodeF_sig_lt hm hb)
    simp only [rfun_rcp (show isNan (decodeF m cb) = false by rw [hb]; rfl), hb]
    simpa using h
  · rw [hneg]
    exact rounds_sqrtRound hm ea hsa (decodeF_sig_lt hm ha)
  · rw [hneg]
    exact rounds_rsq hm ha hsa
  · have hd : decodeF m c = .nan := by
      revert hc
      cases decodeF m c <;> simp [isNan]
    simp [fns, rfun_nan _ r hd, nan]
  · refine fun r => (rfun_inf r hinf).trans ?_
    simp [hcode, hone, hplus, nan]
  · refine fun r => (rfun_inf r hninf).trans ?_
    simp [hminus, hone, nan]
  · refine fun r => (rfun_zero r hzero).trans ?_
    simp [hcode, hplus, hminus, hone]
  · refine fun r => (rfun_zero r hnzero).trans ?_
    simp [hcode, hminus, hone]
  · simp only [rfun, hc, hsa, if_false, if_true]
    exact ⟨rfl, rfl⟩

end Sys2Proof.Machine

open Sys2Proof Sys2Proof.Machine

/-- Settles O12: the elementwise lanes, and the single rounding of quotients, roots and the functions of R42. -/
theorem vectorFloatElementwise : Obligations.VectorFloatElementwise := by
  unfold Obligations.VectorFloatElementwise
  exact ⟨vectorFloatLanes, singleRounding⟩
end

section
/-! O13, O53, what the V ops of one beat share: their issue, masks of whole lanes, and the tree and the prefixes of R39 and R40 over lists of
lanes. -/

namespace Sys2Proof.Machine

open Sys2Proof.Claims

/-! ### Ops of one beat (R150) -/

section
variable {s : State} {f : VOp} {i : Instr} {ok : Bool} {lat : Nat} {writes : State → Nat → M512 → V4096 → List RegWrite}

/-- An op of one beat lands what it computes from the row that it pops. -/
theorem vOnce_lands {s' : State} {row : V4096} (h : SlotMay s f.tagw f.taga) (hok : ok = true) (hbeats : f.beats = 0)
    (hp : Pops s f s' row) : vOnce s f ok false lat writes =
      .next (landed s' f.taga lat 1 (writes s s.cur.core (mReg (curE s) f.msk.toNat) row)) :=
  vIssue_goes h (by rw [hok, hbeats]; rfl) ((if_neg Bool.false_ne_true).trans (withPop_of_pops hp _))

/-- An op of one beat computes what its register writes say. -/
theorem once_of_vOnce {ws : V4096 → List RegWrite → Prop} (hexec : exec i s = vOnce s f ok false lat writes)
    (h : SlotMay s f.tagw f.taga) (hok : ok = true) (hbeats : f.beats = 0) (hws : ∀ row, ws row (writes s s.cur.core (mReg (curE s) f.msk.toNat) row)) :
    Once s i f lat ws :=
  fun _ row hp => ⟨_, hws row, hexec.trans (vOnce_lands h hok hbeats hp)⟩

/-- An op of one beat that writes lanes of width `w` to vD under its mask. -/
theorem onceV_of_lanes {w : Nat} {lanes want : V4096 → Nat → Nat} (hexec : exec i s = vOnce s f ok false lat writes)
    (h : SlotMay s f.tagw f.taga) (hok : ok = true) (hbeats : f.beats = 0)
    (hwrites : ∀ row, writes s s.cur.core (mReg (curE s) f.msk.toNat) row = [maskedV s f w (ofLanes w (4096 / w) (lanes row))])
    (hlanes : ∀ row n, n < 4096 / w → lanes row n % 2 ^ w = want row n % 2 ^ w) : OnceV s i f lat w want := by
  refine once_of_vOnce hexec h hok hbeats fun row => ⟨_, hwrites row, fun n hn => ?_⟩
  rw [lane_ofLanes _ (Nat.mul_div_le 4096 w) hn, hlanes row n hn]

end

/-- The b operand is that of the bundle, frozen or not. -/
theorem bVec_frozen (s : State) (n : Nat) (f : VOp) (i : BInfo) (row : V4096) (j k : Nat) :
    bVec s n f i row j k = bVec s n f (freezeBc s n i) row j k := by
  simp only [bVec, bcElem_freezeBc]

/-! ### Masks of whole lanes (R66) -/

/-- A mask of whole lanes is built digit by digit. -/
theorem laneMask_eq (w n : Nat) (on : Nat → Bool) :
    laneMask w n on = BitVec.ofNat 512 (digitSum (w / 8) n fun i => if on i then 2 ^ (w / 8) - 1 else 0) := by
  have hlt : 2 ^ (w / 8) - 1 < 2 ^ (w / 8) := Nat.sub_one_lt (Nat.two_pow_pos _).ne'
  rw [laneMask, digitSum]
  congr 2
  funext acc i
  cases on i
  · simp
  · simp [Nat.mod_eq_of_lt hlt, Nat.mul_comm i]

/-- A byte of a mask of whole lanes is enabled with its lane. -/
theorem getLsbD_laneMask {w n j : Nat} (on : Nat → Bool) (hw : 0 < w / 8) (hn : w / 8 * n ≤ 512) (hj : j < w / 8 * n) :
    (laneMask w n on).getLsbD j = on (j / (w / 8)) := by
  have hr : j % (w / 8) < w / 8 := Nat.mod_lt _ hw
  have hlane : j / (w / 8) < n := Nat.div_lt_of_lt_mul hj
  have hdigit := congrArg (·.testBit (j % (w / 8))) (lane_digitSum (w := w / 8) (fun i => if on i then 2 ^ (w / 8) - 1 else 0) hlane)
  simp only [lane, Nat.testBit_mod_two_pow, Nat.testBit_div_two_pow, hr, decide_true, Bool.true_and, Nat.mod_add_div] at hdigit
  rw [laneMask_eq, BitVec.getLsbD_ofNat, decide_eq_true (by omega : j < 512), Bool.true_and, hdigit]
  split
  next hon => rw [Nat.testBit_two_pow_sub_one, decide_eq_true hr, hon]
  next hon => rw [Nat.zero_testBit, Bool.eq_false_iff.2 hon]

/-- All of the first `n` lanes. -/
theorem laneMask_all (w n : Nat) : laneMask w n (fun _ => true) = BitVec.ofNat 512 (2 ^ (n * (w / 8)) - 1) := by
  have hlt : 2 ^ (w / 8) - 1 < 2 ^ (w / 8) := Nat.sub_one_lt (Nat.two_pow_pos _).ne'
  rw [laneMask_eq]
  congr 1
  induction n with
  | zero => simp [digitSum]
  | succ n ih =>
    rw [digitSum_succ, ih, if_pos rfl, Nat.mod_eq_of_lt hlt, Nat.sub_one_mul, ← pow_add, Nat.mul_comm (w / 8) n, Nat.succ_mul,
      Nat.add_comm (w / 8)]
    have hpos := Nat.two_pow_pos (n * (w / 8))
    have hle : 2 ^ (n * (w / 8)) ≤ 2 ^ (n * (w / 8) + w / 8) := Nat.pow_le_pow_right two_pos (Nat.le_add_right _ _)
    omega

theorem wOf_div_pos (f : VOp) : 0 < wOf f / 8 := by
  have h : wOf f = 8 ∨ wOf f = 16 ∨ wOf f = 32 := etw_cases _
  omega

/-- The bytes of a register's lanes. -/
theorem bytes_mul_lanes (f : VOp) : wOf f / 8 * (4096 / wOf f) = 512 := by
  have h : wOf f = 8 ∨ wOf f = 16 ∨ wOf f = 32 := etw_cases _
  rcases h with h | h | h <;> rw [h]

/-! ### The tree and the prefixes (R39, R40) -/

section
variable (g : Nat → Nat → Nat)

/-- One level of the tree. -/
theorem pairUp_range (n : Nat) (l : Nat → Nat) :
    pairUp g ((List.range (2 * n)).map l) = (List.range n).map fun i => g (l (2 * i)) (l (2 * i + 1)) := by
  induction n generalizing l with
  | zero => rfl
  | succ n ih =>
    rw [Nat.mul_succ, List.range_succ_eq_map, List.range_succ_eq_map, List.range_succ_eq_map]
    simp only [List.map_cons, List.map_map, pairUp, List.cons.injEq]
    exact ⟨trivial, ih fun i => l (i + 2)⟩

/-- The tree over the lanes of a register is that of R39. -/
theorem treeOf_range (k : Nat) (l : Nat → Nat) : treeOf g k ((List.range (2 ^ k)).map l) = tree g k l := by
  induction k generalizing l with
  | zero => rfl
  | succ k ih =>
    rw [pow_succ', treeOf, pairUp_range]
    exact ih _

/-- One step of the scan. -/
theorem scanStep_range (n d : Nat) (l : Nat → Nat) :
    scanStep g ((List.range n).map l) d = (List.range n).map fun i => if d ≤ i then g (l (i - d)) (l i) else l i := by
  refine List.ext_getElem (by simp [scanStep]) fun i h _ => ?_
  have hi : i < n := by simpa [scanStep] using h
  have hget : (List.range n)[i - d]? = some (i - d) := List.getElem?_range ((Nat.sub_le i d).trans_lt hi)
  simp [scanStep, hget]

/-- The steps of the scan are those of R40. -/
theorem scanSteps_range (k n : Nat) (l : Nat → Nat) :
    ((List.range k).map (2 ^ ·)).foldl (scanStep g) ((List.range n).map l) = (List.range n).map (prefixSteps g k l) := by
  induction k with
  | zero => rfl
  | succ k ih =>
    rw [List.range_succ, List.map_append, List.foldl_append, ih]
    exact scanStep_range g n _ _

end

/-- The lanes of a floating op fill the levels of its tree. -/
theorem two_pow_levels {f : VOp} (ht : Floats f) : 4096 / wOf f = 2 ^ levels (wOf f) := by
  obtain ⟨h6, h8⟩ := ht
  unfold levels wOf etw
  split_ifs <;> omega

end Sys2Proof.Machine
end

section
/-! O13: the floating compare, scan and reduction. -/

namespace Sys2Proof.Machine

open Sys2Proof.Claims

/-! ### The format of the lanes (R20) -/

theorem width_etFmt {f : VOp} (ht : Floats f) : (fmtOf f).width = wOf f := by
  obtain ⟨h6, h8⟩ := ht
  unfold fmtOf etFmt wOf etw
  split_ifs <;> first | rfl | omega

/-! ### The compare (R164) -/

/-- The conditions of R164. -/
theorem fcond_iff (m : FFmt) (cc a b : Nat) :
    let x := decodeF m a
    let y := decodeF m b
    let nan := isNan x = true ∨ isNan y = true
    fcond m cc a b = true ↔ match cc with
      | 0 => ¬nan ∧ cmpNum x y = .eq | 1 => nan ∨ cmpNum x y ≠ .eq | 2 => ¬nan ∧ cmpNum x y = .lt
      | 3 => ¬nan ∧ cmpNum x y ≠ .lt | 4 => ¬nan ∧ cmpNum x y ≠ .gt | 5 => ¬nan ∧ cmpNum x y = .gt | 6 => nan | _ => ¬nan := by
  intro x y nan
  have hnan : (isNan x || isNan y) = true ↔ nan := by rw [Bool.or_eq_true]
  have hnum : (!(isNan x || isNan y)) = true ↔ ¬nan := by rw [← hnan]; simp
  unfold fcond
  split <;> simp only [Bool.and_eq_true, Bool.or_eq_true, hnum, hnan, beq_iff_eq, bne_iff_ne, x, y]

/-! ### Scan and reduction (R165) -/

/-- The functions of a scan or reduction. -/
theorem fn_cases {c : BitVec 5} (h : c.toNat ≤ 2) : c = 0 ∨ c = 1 ∨ c = 2 := by
  bv_omega

/-- What combines two lanes. -/
theorem fcombine_eq {f : VOp} (hc : f.c.toNat ≤ 2) :
    fcombine (fmtOf f) (rndOf f.rnd) f.c.toNat =
      if f.c = 0 then addRound (fmtOf f) (rndOf f.rnd) else if f.c = 1 then minF (fmtOf f) else maxF (fmtOf f) := by
  rcases fn_cases hc with h | h | h <;> rw [h] <;> rfl

/-- What a disabled lane enters as. -/
theorem fidentity_eq {f : VOp} (ht : Floats f) (hc : f.c.toNat ≤ 2) :
    fidentity (fmtOf f) (rndOf f.rnd) f.c.toNat =
      if f.c = 0 then (if rndOf f.rnd = .rdn then 0 else 2 ^ (wOf f - 1))
      else if f.c = 1 then (fmtOf f).infCode.getD 0 else 2 ^ (wOf f - 1) + (fmtOf f).infCode.getD 0 := by
  rcases fn_cases hc with h | h | h <;> simp [h, fidentity, withSign, width_etFmt ht, Nat.add_comm]

theorem exec_vfscan_eq (f : VOp) (s : State) : exec (.vfscan f) s = vOnce s f (fscanOk f) false 8 fun s n mask _ =>
    [.v f.dst.toNat (ofLanes (wOf f) (4096 / wOf f) fun i => canonF (fmtOf f)
      ((((List.range (levels (wOf f))).map (2 ^ ·)).foldl (scanStep (fcombine (fmtOf f) (rndOf f.rnd) f.c.toNat))
        (fscanLanes s n f mask)).getD i 0)) (spread mask (wOf f))] := rfl

theorem exec_vfred_eq (f : VOp) (s : State) : exec (.vfred f) s = vOnce s f (fscanOk f) false 6 fun s n mask _ =>
    [.v f.dst.toNat (ofLanes (wOf f) 1 fun _ =>
      treeOf (fcombine (fmtOf f) (rndOf f.rnd) f.c.toNat) (levels (wOf f)) (fscanLanes s n f mask)) (laneMask (wOf f) 1 fun _ => true)] := rfl

end Sys2Proof.Machine

open Sys2Proof Sys2Proof.Machine Sys2Proof.Claims

/-- Settles O13: the conditions of the compare byte by byte, and the lists of the scan and the tree lane by lane. -/
theorem vectorFloatCompareAndReduce : Obligations.VectorFloatCompareAndReduce := by
  unfold Obligations.VectorFloatCompareAndReduce
  intro s f h ht hx hsat hneg hbeats w m r comb sgn inf canon unit enters
  have hfloat : floatType f = true := decide_eq_true ht
  refine ⟨fun hrnd hb hbk hd hc => ?compare, fun hbk hb hc hrnd => ?reduce⟩
  case compare =>
    refine once_of_vOnce (exec_vfcmp f s) h (by simp [hfloat, hrnd, hsat, hneg, hx, bkOk_of_bOk false hb, hd, hc]) hbeats
      fun row => ⟨_, rfl, fun j hj => ?_⟩
    have hw : 0 < w / 8 := wOf_div_pos f
    have hbytes : w / 8 * (4096 / w) = 512 := bytes_mul_lanes f
    intro x y nan
    refine (Bool.eq_iff_iff.1 (getLsbD_laneMask _ hw hbytes.le (hbytes.symm ▸ hj))).trans ((fcond_iff _ _ _ _).trans ?_)
    rw [bVec_frozen, bVec_eq_bLane hb.2.1]
    rfl
  case reduce =>
    have hok : fscanOk f = true := by simpa [fscanOk, float1, noB, hfloat, hsat, hneg, hx, hbk, hb, hc] using hrnd
    have hlanes : fscanLanes s s.cur.core f (mReg (curE s) f.msk.toNat) = (List.range (2 ^ levels w)).map enters := by
      rw [fscanLanes, fidentity_eq ht hc, ← two_pow_levels ht]
      rfl
    have hone : w * 1 ≤ 4096 := by rcases etw_cases f.etype.toNat with h | h | h <;> simp [w, wOf, h]
    refine ⟨onceV_of_lanes (exec_vfscan_eq f s) h hok hbeats (fun _ => rfl) fun row n hn => congrArg (· % 2 ^ w) ?_,
      once_of_vOnce (exec_vfred_eq f s) h hok hbeats fun row => ⟨_, congrArg (fun k => [RegWrite.v _ _ k]) ?_, ?_⟩⟩
    · rw [hlanes, fcombine_eq hc, scanSteps_range]
      have hn : n < 2 ^ levels w := two_pow_levels ht ▸ hn
      rw [List.getD_eq_getElem _ _ (by simpa using hn)]
      simp only [List.getElem_map, List.getElem_range]
      rfl
    · rw [laneMask_all, Nat.one_mul]
    · rw [lane_ofLanes _ hone Nat.one_pos, hlanes, fcombine_eq hc, treeOf_range]
      rfl

end

section
/-! O53, selection: the order of VTOPK's candidates is that of their values, −0 below +0, and then of their lanes. -/

namespace Sys2Proof.Machine

open Sys2Proof.Claims

/-! ### Codes and values (R10) -/

section
variable {m : FFmt} (hm : IsBinary m)

include hm in
theorem magVal_inj {c d : Nat} (hc : c ≤ m.maxCode + 1) (hd : d ≤ m.maxCode + 1) (h : magVal m c = magVal m d) : c = d := by
  unfold magVal at h
  split_ifs at h with hcm hdm hdm
  · exact (codeVal_strictMono hm).injective (EReal.coe_eq_coe_iff.1 h)
  · exact absurd h (EReal.coe_ne_top _)
  · exact absurd h.symm (EReal.coe_ne_top _)
  · omega

theorem signVal_inj {neg : Bool} {x y : EReal} (h : signVal neg x = signVal neg y) : x = y := by
  cases neg
  · exact h
  · exact neg_injective h

include hm in
/-- Two codes of one value and one sign are one code. -/
theorem code_eq_of_numVal_eq {a b : Nat} (ha : a < 2 ^ m.width) (hb : b < 2 ^ m.width) (hna : isNan (decodeF m a) = false)
    (hnb : isNan (decodeF m b) = false) (hv : numVal (decodeF m a) = numVal (decodeF m b))
    (hs : a.testBit (m.width - 1) = b.testBit (m.width - 1)) : a = b := by
  have hda := decodeF_cases hm a
  have hdb := decodeF_cases hm b
  simp only [hna, hnb, Bool.false_eq_true, true_and, ite_prop_iff_and] at hda hdb
  have hma := not_imp_comm.1 hda.2 not_false
  have hmb := not_imp_comm.1 hdb.2 not_false
  rw [hda.1 hma, hdb.1 hmb, hs] at hv
  have hmag := magVal_inj hm hma hmb (signVal_inj hv)
  refine Nat.eq_of_testBit_eq fun i => ?_
  rcases lt_trichotomy i (m.width - 1) with h | rfl | h
  · have := congrArg (·.testBit i) hmag
    simpa [Nat.testBit_mod_two_pow, h] using this
  · exact hs
  · have hle : 2 ^ m.width ≤ 2 ^ i := Nat.pow_le_pow_right two_pos (by omega)
    rw [Nat.testBit_lt_two_pow (ha.trans_le hle), Nat.testBit_lt_two_pow (hb.trans_le hle)]

end

/-- The code of −Inf. -/
theorem negInf_lt {m : FFmt} (hm : IsBinary m) : withSign m true (m.infCode.getD 0) < 2 ^ m.width := by
  have hpow : 2 ^ m.width = 2 ^ (m.width - 1) + 2 ^ (m.width - 1) := by
    rw [← two_mul, ← pow_succ', Nat.sub_add_cancel (Nat.le_of_lt hm.one_lt_width)]
  rw [withSign, if_pos rfl, hm.infCode_eq, hpow]
  exact Nat.add_lt_add_right hm.inf_lt _

/-! ### The order of candidates (R171) -/

/-- Where a candidate, a lane and its code, stands: by value downwards, then by sign, then by lane. -/
noncomputable def topKey (m : FFmt) (x : Nat × Nat) : ERealᵒᵈ ×ₗ (Bool ×ₗ Nat) :=
  toLex (OrderDual.toDual (numVal (decodeF m x.2)), toLex (x.2.testBit (m.width - 1), x.1))

theorem topKey_lt_iff (m : FFmt) (x y : Nat × Nat) :
    topKey m x < topKey m y ↔ numVal (decodeF m y.2) < numVal (decodeF m x.2) ∨ numVal (decodeF m x.2) = numVal (decodeF m y.2) ∧
      (x.2.testBit (m.width - 1) < y.2.testBit (m.width - 1) ∨
        x.2.testBit (m.width - 1) = y.2.testBit (m.width - 1) ∧ x.1 < y.1) := by
  simp only [topKey, Prod.Lex.toLex_lt_toLex, OrderDual.toDual_lt_toDual, EmbeddingLike.apply_eq_iff_eq]

/-- A code that a candidate may have. -/
def Candidate (m : FFmt) (x : Nat × Nat) : Prop := x.2 < 2 ^ m.width ∧ isNan (decodeF m x.2) = false

section
variable {m : FFmt} (hm : IsBinary m)

include hm in
/-- A candidate comes before another when its key does. -/
theorem topBefore_iff {x y : Nat × Nat} (hx : Candidate m x) (hy : Candidate m y) : topBefore m x y = true ↔ topKey m x < topKey m y := by
  obtain ⟨hxw, hxn⟩ := hx
  obtain ⟨hyw, hyn⟩ := hy
  rw [topKey_lt_iff, topBefore]
  by_cases hxy : x.2 = y.2
  · simp [hxy]
  have htell := tells_cmpNum hxn hyn
  have hsign (h : numVal (decodeF m x.2) = numVal (decodeF m y.2)) : x.2.testBit (m.width - 1) ≠ y.2.testBit (m.width - 1) :=
    fun hs => hxy (code_eq_of_numVal_eq hm hxw hyw hxn hyn h hs)
  rw [if_neg hxy]
  cases hc : cmpNum (decodeF m x.2) (decodeF m y.2) with
  | gt =>
    rw [hc] at htell
    exact iff_of_true rfl (.inl htell)
  | lt =>
    rw [hc] at htell
    exact iff_of_false Bool.false_ne_true fun h => h.elim (lt_asymm htell) fun h => htell.ne h.1
  | eq =>
    rw [hc] at htell
    have heq : numVal (decodeF m x.2) = numVal (decodeF m y.2) := htell
    have hne := hsign heq
    simp only [heq, lt_irrefl, true_and, false_or]
    revert hne
    cases x.2.testBit (m.width - 1) <;> cases y.2.testBit (m.width - 1) <;> simp

include hm in
/-- A candidate whose key comes before another's is the greater value, −0 below +0, or of equal codes the lower lane. -/
theorem order_of_topKey_lt {x y : Nat × Nat} (hx : Candidate m x) (hy : Candidate m y) (h : topKey m x < topKey m y) :
    match cmpNum (decodeF m x.2) (decodeF m y.2) with
    | .gt => True
    | .lt => False
    | .eq => if x.2 = y.2 then x.1 < y.1 else 2 ^ (m.width - 1) ≤ y.2 := by
  obtain ⟨hxw, hxn⟩ := hx
  obtain ⟨hyw, hyn⟩ := hy
  have htell := tells_cmpNum hxn hyn
  rw [topKey_lt_iff] at h
  cases hc : cmpNum (decodeF m x.2) (decodeF m y.2) with
  | gt => trivial
  | lt =>
    rw [hc] at htell
    exact h.elim (lt_asymm htell) fun h => htell.ne h.1
  | eq =>
    rw [hc] at htell
    obtain ⟨heq, h⟩ := h.resolve_left fun h => h.ne' htell
    rcases h with h | ⟨hs, hlane⟩
    · have hne : x.2 ≠ y.2 := fun hxy => h.ne (by rw [hxy])
      exact (if_neg hne).mpr (Nat.ge_two_pow_of_testBit (Bool.lt_iff.1 h).2)
    · exact (if_pos (code_eq_of_numVal_eq hm hxw hyw hxn hyn heq hs)).mpr hlane

theorem insertTop_perm (x : Nat × Nat) (l : List (Nat × Nat)) : (insertTop m x l).Perm (x :: l) := by
  induction l with
  | nil => exact .refl _
  | cons y r ih =>
    unfold insertTop
    split
    · exact .refl _
    · exact (ih.cons y).trans (.swap x y r)

include hm in
/-- A candidate of a lane of its own finds its place. -/
theorem pairwise_insertTop {x : Nat × Nat} {l : List (Nat × Nat)} (hl : l.Pairwise fun y z => topKey m y < topKey m z)
    (hx : Candidate m x) (hc : ∀ y ∈ l, Candidate m y) (hne : ∀ y ∈ l, x.1 ≠ y.1) :
    (insertTop m x l).Pairwise fun y z => topKey m y < topKey m z := by
  induction l with
  | nil => exact List.pairwise_singleton _ x
  | cons y r ih =>
    obtain ⟨hyr, hr⟩ := List.pairwise_cons.1 hl
    obtain ⟨hcy, hcr⟩ := List.forall_mem_cons.1 hc
    obtain ⟨hney, hner⟩ := List.forall_mem_cons.1 hne
    unfold insertTop
    split
    next hb =>
      have hxy := (topBefore_iff hm hx hcy).1 hb
      exact List.pairwise_cons.2 ⟨List.forall_mem_cons.2 ⟨hxy, fun z hz => hxy.trans (hyr z hz)⟩, hl⟩
    next hb =>
      have hle : topKey m y ≤ topKey m x := not_lt.1 fun h => hb ((topBefore_iff hm hx hcy).2 h)
      have hyx : topKey m y < topKey m x := hle.lt_of_ne fun h => hney (congrArg (fun k => (ofLex (ofLex k).2).2) h).symm
      refine List.pairwise_cons.2 ⟨fun z hz => ?_, ih hr hcr hner⟩
      rcases List.mem_cons.1 ((insertTop_perm x r).mem_iff.1 hz) with rfl | hz
      · exact hyx
      · exact hyr z hz

theorem sortTop_perm (l : List (Nat × Nat)) : (l.foldr (insertTop m) []).Perm l := by
  induction l with
  | nil => exact .refl _
  | cons x r ih => exact (insertTop_perm x _).trans (ih.cons x)

include hm in
/-- Candidates of distinct lanes are put in order. -/
theorem pairwise_sortTop {l : List (Nat × Nat)} (hc : ∀ x ∈ l, Candidate m x) (hne : l.Pairwise fun x y => x.1 ≠ y.1) :
    (l.foldr (insertTop m) []).Pairwise fun y z => topKey m y < topKey m z := by
  induction l with
  | nil => exact .nil
  | cons x r ih =>
    obtain ⟨hcx, hcr⟩ := List.forall_mem_cons.1 hc
    obtain ⟨hx, hr⟩ := List.pairwise_cons.1 hne
    exact pairwise_insertTop hm (ih hcr hr) hcx (fun y hy => hcr y ((sortTop_perm r).mem_iff.1 hy))
      fun y hy => hx y ((sortTop_perm r).mem_iff.1 hy)

end

end Sys2Proof.Machine
end

section
/-! O53: VTOPK, VRAND, CKPROBE and VPOPQ. -/

namespace Sys2Proof.Machine

open Sys2Proof.Claims

/-! ### VTOPK (R171) -/

/-- The format of floating lanes is binary. -/
theorem isBinary_fmtOf (f : VOp) : IsBinary (fmtOf f) := by
  refine isBinary_of_mem ?_
  unfold fmtOf etFmt
  split_ifs <;> simp

/-- The candidates of a VTOPK among the first `l` lanes. -/
def topCands (s : State) (f : VOp) (l : Nat) : List (Nat × Nat) :=
  ((List.range l).filter fun i => laneOn (mReg (curE s) f.msk.toNat) (wOf f) i && !isNan (decodeF (fmtOf f) (vLane s f f.a.toNat i))).map
    fun i => (i, vLane s f f.a.toNat i)

/-- The lanes of the candidates in order. -/
def topOrder (s : State) (f : VOp) (l : Nat) : List Nat := ((topCands s f l).foldr (insertTop (fmtOf f)) []).map Prod.fst

section
variable {s : State} {f : VOp} {l : Nat}

theorem mem_topCands {x : Nat × Nat} : x ∈ topCands s f l ↔ (x.1 < l ∧ (mReg (curE s) f.msk.toNat).getLsbD (x.1 * (wOf f / 8)) = true ∧
    isNan (decodeF (fmtOf f) (vLane s f f.a.toNat x.1)) = false) ∧ x.2 = vLane s f f.a.toNat x.1 := by
  obtain ⟨i, c⟩ := x
  simp only [topCands, List.mem_map, List.mem_filter, List.mem_range, Bool.and_eq_true, Bool.not_eq_true', Prod.mk.injEq]
  constructor
  · rintro ⟨_, h, rfl, rfl⟩
    exact ⟨h, rfl⟩
  · rintro ⟨h, rfl⟩
    exact ⟨i, h, rfl, rfl⟩

theorem mem_topOrder {i : Nat} : i ∈ topOrder s f l ↔ i < l ∧ (mReg (curE s) f.msk.toNat).getLsbD (i * (wOf f / 8)) = true ∧
    isNan (decodeF (fmtOf f) (vLane s f f.a.toNat i)) = false := by
  simp only [topOrder, List.mem_map, (sortTop_perm _).mem_iff, mem_topCands]
  exact ⟨fun ⟨x, h, hx⟩ => hx ▸ h.1, fun h => ⟨(i, vLane s f f.a.toNat i), ⟨h, rfl⟩, rfl⟩⟩

theorem length_topOrder : (topOrder s f l).length = (topCands s f l).length := by
  rw [topOrder, List.length_map, (sortTop_perm _).length_eq]

/-- Each candidate in order is a lane with its code. -/
theorem getD_sortTop (j : Nat) (h : j < (topOrder s f l).length) :
    ((topCands s f l).foldr (insertTop (fmtOf f)) []).getD j (0, 0) =
      ((topOrder s f l)[j], vLane s f f.a.toNat (topOrder s f l)[j]) := by
  have hj : j < ((topCands s f l).foldr (insertTop (fmtOf f)) []).length := by simpa [topOrder] using h
  rw [List.getD_eq_getElem _ _ hj]
  have hmem := mem_topCands.1 ((sortTop_perm _).mem_iff.1 (List.getElem_mem hj))
  exact Prod.ext (by simp [topOrder]) (by rw [hmem.2]; simp [topOrder])

/-- The code of a lane that is no NaN is a candidate's. -/
theorem candidate_of_lane (ht : Floats f) {i : Nat} (h : isNan (decodeF (fmtOf f) (vLane s f f.a.toNat i)) = false) :
    Candidate (fmtOf f) (i, vLane s f f.a.toNat i) := by
  rw [Candidate, width_etFmt ht]
  exact ⟨lane_lt _ _ _, h⟩

/-- The lanes stand in the order of the candidates' keys. -/
theorem pairwise_topOrder (ht : Floats f) : (topOrder s f l).Pairwise fun i j =>
    topKey (fmtOf f) (i, vLane s f f.a.toNat i) < topKey (fmtOf f) (j, vLane s f f.a.toNat j) := by
  have hcand (x) (hx : x ∈ topCands s f l) : Candidate (fmtOf f) x := by
    obtain ⟨⟨-, -, hn⟩, hx⟩ := mem_topCands.1 hx
    rw [Candidate, hx]
    exact candidate_of_lane ht hn
  have hlanes : (topCands s f l).Pairwise fun x y => x.1 ≠ y.1 :=
    List.pairwise_map.2 (List.nodup_range.filter _)
  refine List.pairwise_map.2 ((pairwise_sortTop (isBinary_fmtOf f) hcand hlanes).imp_of_mem fun {x y} hx hy h => ?_)
  have heta (z) (hz : z ∈ (topCands s f l).foldr (insertTop (fmtOf f)) []) : z = (z.1, vLane s f f.a.toNat z.1) :=
    Prod.ext rfl (mem_topCands.1 ((sortTop_perm _).mem_iff.1 hz)).2
  rw [← heta x hx, ← heta y hy]
  exact h

/-- What VTOPK takes from a candidate in order, and what stands beyond the last. -/
theorem getElem?_topOrder {α : Type} (g : Nat × Nat → α) (d : α) {j r : Nat} (hr : j < r ↔ j < (topOrder s f l).length) :
    (if j < r then g (((topCands s f l).foldr (insertTop (fmtOf f)) []).getD j (0, 0)) else d) =
      match (topOrder s f l)[j]? with
      | some i => g (i, vLane s f f.a.toNat i)
      | none => d := by
  by_cases h : j < (topOrder s f l).length
  · rw [if_pos (hr.2 h), getD_sortTop j h, List.getElem?_eq_getElem h]
  · rw [if_neg (mt hr.1 h), List.getElem?_eq_none (not_lt.1 h)]

end

theorem wOf_le {f : VOp} (ht : Floats f) : wOf f ≤ 32 ∧ 16 ≤ wOf f := by
  obtain ⟨h6, h8⟩ := ht
  unfold wOf etw
  split_ifs <;> omega

/-- All of the first `n` lanes of 32 bits. -/
theorem laneMask_all_32 (n : Nat) : BitVec.ofNat 512 (2 ^ (n * 4) - 1) = laneMask 32 n fun _ => true := (laneMask_all 32 n).symm

/-- R171: VTOPK. -/
theorem vectorTopK : VectorTopK := by
  intro s f h ht hrnd hsat hneg hbeats hbk hb hc w m pat k len lanes a num isCand before bad
  have hfloat : floatType f = true := decide_eq_true ht
  have hok : (floatType f && f.rnd == 0 && f.sat == 0 && f.neg == 0 && f.beats == 0 && f.bk == 1 && f.b == 0 && f.c == 0) = true := by
    simp [hfloat, hrnd, hsat, hneg, hbeats, hbk, hb, hc]
  refine ⟨fun hbad => ?bad, fun hbad => ?goes⟩
  case bad =>
    show execVtopk f s = _
    exact vIssue_faults h hok (if_pos hbad)
  obtain ⟨hk0, hk, hlen, hd⟩ : k ≠ 0 ∧ k ≤ 128 ∧ len ≤ lanes ∧ f.dst ≠ 31 := by simpa [bad, not_or] using hbad
  let l := if len = 0 then lanes else len
  let r := min k (topCands s f l).length
  let sorted := (topCands s f l).foldr (insertTop m) []
  let ninf := withSign m true (m.infCode.getD 0)
  have hr {j : Nat} (hj : j < k) : j < r ↔ j < (topOrder s f l).length := by
    rw [length_topOrder, lt_min_iff, and_iff_right hj]
  have hwk : w * k ≤ 4096 := by have := (wOf_le ht).1; nlinarith
  refine ⟨topOrder s f l, ofLanes w k (fun j => if j < r then (sorted.getD j (0, 0)).2 else ninf),
    ofLanes 32 k (fun j => if j < r then (sorted.getD j (0, 0)).1 else 0xFFFFFFFF), w64 r, ?pairwise, fun i => ?mem, ?count, ?writes,
    fun j hj => ⟨?value, ?index⟩⟩
  case pairwise =>
    refine (pairwise_topOrder ht).imp_of_mem fun {i j} hi hj hij => ?_
    have := order_of_topKey_lt (isBinary_fmtOf f) (candidate_of_lane ht (mem_topOrder.1 hi).2.2)
      (candidate_of_lane ht (mem_topOrder.1 hj).2.2) hij
    rw [width_etFmt ht] at this
    exact this
  case mem =>
    have hl : i < l ↔ i < lanes ∧ (len ≠ 0 → i < len) := by
      simp only [l]
      split <;> omega
    rw [mem_topOrder, hl, and_assoc]
    exact Iff.rfl
  case count =>
    have hlt : r < 2 ^ 64 := (min_le_left _ _).trans_lt (by omega)
    rw [w64, BitVec.toNat_ofNat, Nat.mod_eq_of_lt hlt, length_topOrder]
  case writes =>
    rw [← laneMask_all, laneMask_all_32]
    show execVtopk f s = _
    exact vIssue_goes h hok (if_neg hbad)
  case value =>
    rw [lane_ofLanes _ hwk hj]
    refine (congrArg (· % 2 ^ w) (getElem?_topOrder Prod.snd ninf (hr hj))).trans ?_
    cases (topOrder s f l)[j]? with
    | some i => exact Nat.mod_eq_of_lt (lane_lt _ _ _)
    | none =>
      show withSign (fmtOf f) true ((fmtOf f).infCode.getD 0) % 2 ^ wOf f = 2 ^ (wOf f - 1) + (fmtOf f).infCode.getD 0
      rw [← width_etFmt ht, Nat.mod_eq_of_lt (negInf_lt (isBinary_fmtOf f))]
      exact Nat.add_comm _ _
  case index =>
    rw [lane_ofLanes _ (by omega) hj]
    refine (congrArg (· % 2 ^ 32) (getElem?_topOrder Prod.fst _ (hr hj))).trans ?_
    cases hi : (topOrder s f l)[j]? with
    | some i =>
      have hil : i < l := (mem_topOrder.1 (List.mem_of_getElem? hi)).1
      have hl : l ≤ lanes := by
        simp only [l]
        split <;> omega
      have hlanes : lanes = 256 ∨ lanes = 128 := float_lanes ht
      have hi32 : i < 2 ^ 32 := by omega
      exact Nat.mod_eq_of_lt hi32
    | none => rfl

/-! ### VRAND, CKPROBE and VPOPQ (R172 to R174) -/

section
variable {s : State} {f : VOp} (h : SlotMay s f.tagw f.taga)

include h in
/-- An op of one or more beats issues with what its beat 0 writes. -/
theorem beatIssue_starts {s' : State} {i : Instr} {ok : Bool} {lat : Nat} {beat : BeatFn} {row : V4096} (hok : ok = true)
    (hbeats : f.beats ≠ 0 → f.bk = 0 ∨ f.bk = 1) (hp : Pops s f s' row) :
    beatIssue s i f ok false lat (fun _ => 0) beat = .next (started s s' i f lat 0
      (beat s s.cur.core (freezeBc s s.cur.core s.cur.info) (mReg (curE s) f.msk.toNat) 0 0 row)) := by
  have hfields : (ok && (f.beats == 0 || f.bk == 0 || f.bk == 1)) = true := by
    by_cases h0 : f.beats = 0
    · simp [hok, h0]
    · rcases hbeats h0 with hb | hb <;> simp [hok, hb]
  rw [beatIssue, vIssue, hfields, slotIssue_may h]
  simp only [Bool.false_eq_true, if_false, withPop_of_pops hp, landGo, started, landed]
  by_cases h0 : f.beats = 0
  · simp only [h0, if_true]
    rfl
  · simp only [h0, if_false]
    rfl

include h in
/-- CKPROBE issues with the contribution of its beat 0. -/
theorem execCkprobe_starts (ht : Floats f) (hrnd : f.rnd = 0) (hsat : f.sat = 0) (hneg : f.neg = 0) (hx : f.xtra = 0) (hd : f.dst = 0)
    (hc : f.c.toNat < 4) (hb : BOk f true) (hbk : f.bk ≠ 3) (hbeats : BeatsOk f) :
    execCkprobe f s = .next (started s s (.ckprobe f) f 4 0
      (probeBeat f s s.cur.core (freezeBc s s.cur.core s.cur.info) (mReg (curE s) f.msk.toNat) 0 0 0)) := by
  obtain ⟨-, ha, hbb, hmany⟩ := hbeats
  have hfloat : floatType f = true := decide_eq_true ht
  have hout : (beyond f f.a || (f.bk == 0 && beyond f f.b)) = false := by
    rw [beyond_eq_false ha, Bool.false_or, Bool.and_eq_false_imp]
    exact fun h0 => beyond_eq_false (hbb (beq_iff_eq.1 h0))
  have hpop : Pops s f s 0 := by
    rw [Pops, if_neg hbk]
    exact ⟨rfl, rfl⟩
  rw [execCkprobe, hout]
  exact beatIssue_starts h (by simp [hfloat, hrnd, hsat, hneg, hx, hd, hc, bkOk_of_bOk false hb]) hmany hpop

/-- The distance of lane `n` of the operands of a CKPROBE (R41). -/
def probeDist (s : State) (f : VOp) (n : Nat) : Nat :=
  convertFloat (absNum (addNum .rne (decodeF (fmtOf f) (vLane s f f.a.toNat n)) (negNum (decodeF (fmtOf f) (bLane s f 0 n))))) fp32 .rne false

/-- What beat 0 of a CKPROBE contributes: the sum of its lanes' distances, or the greatest (R41). -/
def probeValue (s : State) (f : VOp) : Nat :=
  let on := laneOn (mReg (curE s) f.msk.toNat) (wOf f)
  if f.c.getLsbD 0 = true then tree (addRound fp32 .rne) (levels (wOf f)) fun n => if on n then probeDist s f n else 2 ^ 31
  else (((List.range (4096 / wOf f)).filter on).map (probeDist s f)).foldl (maxF fp32) 0

theorem probeBeat_eq (ht : Floats f) (hb : BOk f true) :
    probeBeat f s s.cur.core (freezeBc s s.cur.core s.cur.info) (mReg (curE s) f.msk.toNat) 0 0 0 =
      [.probe (f.c.getLsbD 1) (f.c.getLsbD 0) (BitVec.ofNat 32 (probeValue s f))] := by
  have hfirst : (bitAt f.c 1 && (0 : Nat) == 0) = f.c.getLsbD 1 := Bool.and_true _
  simp only [probeBeat, hfirst, bVec_eq_bLane hb.2.1]
  refine congrArg (fun x => [RegWrite.probe _ _ (BitVec.ofNat 32 x)]) (if_congr Iff.rfl ?_ ?_)
  · rw [← treeOf_range, ← two_pow_levels ht]
    rfl
  · rw [List.foldl_map]
    rfl

include h in
/-- A V op whose fields are good and whose body waits. -/
theorem vIssue_waits {ok : Bool} {body : State → Option (BitVec 3) → Iss} (hok : ok = true) (hb : body s (tagOf f.taga) = .wait) :
    vIssue s f ok body = .next s := by
  rw [vIssue, hok, slotIssue_may h, hb]

/-- A pop of a queue with too few rows. -/
theorem popRow_short (k : State → V4096 → Iss) {q : Nat} (hlen : (rd (curE s).oq q []).length < rowsNeeded s q) :
    popRow s q k = if drainFlying s.now (curE s) q then .wait else .fault (class0 s.cur.slot 4) 0 0 0 := by
  unfold popRow
  cases hq : rd (curE s).oq q [] with
  | nil => simp only [hq]
  | cons row rest =>
    rw [hq] at hlen
    simp only [hq]
    exact if_pos hlen

/-- A pop of a queue with the rows that it needs. -/
theorem popRow_takes (k : State → V4096 → Iss) {q : Nat} {row : V4096} {rest : List V4096} (hq : rd (curE s).oq q [] = row :: rest)
    (hlen : rowsNeeded s q ≤ rest.length + 1) : popRow s q k = k (modCurE s fun e => { e with oq := wr e.oq q rest }) row := by
  unfold popRow
  simp only [hq]
  exact if_neg (not_lt.2 hlen)

end

/-- The words of VRAND (R44). -/
def randWord (s : State) (f : VOp) (n i : Nat) : Nat :=
  let c := (sReg (s.core n).e f.xtra.toNat).toNat
  philoxWord i ((rd (stepRegs s n) 0 0).toNat % 2 ^ 32) (c % 2 ^ 32) (c / 2 ^ 32) ((sReg (s.core n).e f.a.toNat).toNat % 2 ^ 32)
    ((sReg (s.core n).e f.c.toNat).toNat % 2 ^ 32)

theorem exec_vrand_eq (f : VOp) (s : State) : exec (.vrand f) s =
    vOnce s f ((f.etype == 4 || f.etype == 5) && f.rnd == 0 && f.sat == 0 && f.neg == 0 && noB f) false 6 fun s n mask _ =>
      [.v f.dst.toNat (ofLanes 32 (4096 / 32) (randWord s f n)) (spread mask 32)] := rfl

/-- R41, R44, R172 to R174: VRAND, CKPROBE and VPOPQ. -/
theorem randomProbeAndPop : RandomProbeAndPop := by
  intro s f h hrnd hsat hneg w m mask key ctr step dist on rows
  refine ⟨fun ht hbk hb hbeats => ?random, fun ht hx hd hc hb hbk hbeats => ?probe, fun ht hx hbeats hbk hb ha hc => ?pop⟩
  case random =>
    have hok : ((f.etype == 4 || f.etype == 5) && f.rnd == 0 && f.sat == 0 && f.neg == 0 && noB f) = true := by
      simpa [hrnd, hsat, hneg, noB, hbk, hb] using ht
    exact onceV_of_lanes (exec_vrand_eq f s) h hok hbeats (fun _ => rfl) fun _ _ _ => rfl
  case probe =>
    refine ⟨BitVec.ofNat 32 (probeValue s f), (execCkprobe_starts h ht hrnd hsat hneg hx hd hc hb hbk hbeats).trans ?_, fun h1 => ?_, fun h0 => ?_⟩
    · rw [probeBeat_eq ht hb]
    · rw [BitVec.toNat_ofNat, probeValue, if_pos h1]
      rfl
    · rw [BitVec.toNat_ofNat, probeValue, if_neg (Bool.eq_false_iff.1 h0)]
      rfl
  case pop =>
    have hok : (decide (f.etype.toNat ≤ 8) && f.rnd == 0 && f.sat == 0 && f.neg == 0 && f.xtra == 0 && f.beats == 0 && noB f && f.a == 0 &&
        decide (f.c.toNat < 4)) = true := by
      simp [ht, hrnd, hsat, hneg, hx, hbeats, noB, hbk, hb, ha, hc]
    refine ⟨fun hlen => ?short, fun row rest hq hlen => ?takes⟩
    case short =>
      have hpop := popRow_short (fun s' row => landGo s' 2 [maskedV s f w row] (tagOf f.taga)) hlen
      show execVpopq f s = _
      split
      next hfly =>
        rw [if_pos hfly] at hpop
        exact vIssue_waits h hok hpop
      next hfly =>
        rw [if_neg hfly] at hpop
        exact vIssue_faults h hok hpop
    case takes =>
      have hlen : rowsNeeded s f.c.toNat ≤ rest.length + 1 := by simpa [hq] using hlen
      show execVpopq f s = _
      exact vIssue_goes h hok (popRow_takes _ hq hlen)

end Sys2Proof.Machine

open Sys2Proof Sys2Proof.Machine

/-- Settles O53: the order of VTOPK's candidates, and the random words, probes and pops. -/
theorem vectorSelectionOps : Obligations.VectorSelectionOps := by
  unfold Obligations.VectorSelectionOps
  exact ⟨vectorTopK, randomProbeAndPop⟩
end

section
/-! O55, what raising a fault leaves: no write of the point of coherence by an agent without a core, and no fault raised, changes an
engine. -/

namespace Sys2Proof.Machine

/-! ### Writes of memory by an agent without a core (R276) -/

theorem keeps_heal (s : State) (mk : Nat → Granule) (a len : Nat) : KeepsCores s (heal s mk a len) := by
  unfold heal
  split
  · exact .refl s
  · exact .of_eq rfl rfl

theorem keeps_pocWrite (s : State) (pa : Nat) (data : List Byte) : KeepsCores s (pocWrite s pa data) := by
  unfold pocWrite
  split
  · exact .of_eq rfl rfl
  · exact ((KeepsCores.foldl (fun s g => keeps_l2Fill s true g) _ s).trans (keeps_heal _ _ _ _)).andThen rfl rfl

theorem keeps_uncachedWrite (s : State) (pa : Nat) (data : List Byte) : KeepsCores s (uncachedWrite s pa data) := by
  unfold uncachedWrite
  split
  · exact keeps_pocWrite s pa data
  · refine .trans ?_ (.foldl (fun s g => keeps_l2Fill s true g) _ _)
    exact (keeps_heal s .phys (ownPa pa) data.length).andThen rfl rfl

theorem keeps_pushSector (s : State) (g : Nat) : KeepsCores s (pushSector s g) := by
  unfold pushSector
  split
  · exact .refl s
  · exact .ite (.refl s) (.of_eq rfl rfl)

theorem keeps_throughWrite (s : State) (pa : Nat) (data : List Byte) : KeepsCores s (throughWrite s pa data) := by
  unfold throughWrite
  split
  · exact keeps_uncachedWrite s pa data
  · exact (keeps_uncachedWrite s pa data).trans (.foldl keeps_pushSector _ _)

theorem keeps_performStore (s : State) (n : Nat) (w : Buffered) : KeepsCores s (performStore s n w) := by
  unfold performStore
  split
  · exact .refl s
  · exact (keeps_heal _ _ _ _).trans (.modCore _ _ (fun _ => rfl) fun _ => rfl)
  · exact (KeepsCores.ite (keeps_uncachedWrite s _ _) (keeps_pocWrite s _ _)).trans (keeps_l2Count _ _ _)

theorem keeps_writePiece (s : State) (col : BitVec 3) (p : Piece) (data : List Byte) :
    KeepsCores s (writePiece s none false none col p data) := by
  unfold writePiece
  split
  · exact (keeps_heal _ _ _ _).trans (.modCore _ _ (fun _ => rfl) fun _ => rfl)
  · exact keeps_performStore s 0 _
  · next pa _ =>
    show KeepsCores s (l2Count _ none pa)
    exact (KeepsCores.ite (keeps_throughWrite s _ _) (.ite (keeps_uncachedWrite s _ _) (keeps_pocWrite s _ _))).trans (keeps_l2Count _ _ _)

theorem keeps_writePieces (col : BitVec 3) (ps : List Piece) : ∀ s data, KeepsCores s (writePieces s none false none col ps data) := by
  induction ps with
  | nil => exact fun s _ => .refl s
  | cons p r ih => exact fun s data => (keeps_writePiece s col p _).trans (ih _ _)

theorem keeps_agentWrite {k : Who} (hcore : k.core = none) (htask : k.task = none) (s : State) (va : W64) (align : Nat) (data : List Byte) :
    KeepsCores s (agentWrite s k va align data).1 := by
  unfold agentWrite
  split
  · next h => exact (keeps_access s k va _ align .uc).of_pair h
  · next t ps h =>
    have ht := (keeps_access s k va _ align .uc).of_pair h
    refine .ite_fst ht (ht.trans ?_)
    rw [hcore, htask]
    exact keeps_writePieces _ _ _ _

/-! ### Faults (R293, R333) -/

/-- A record of a bay's log changes no engine. -/
theorem keeps_logRecord (s : State) (bay : Nat) (ws : List W64) : KeepsCores s (logRecord s bay ws) := by
  have hdrop (t : State) : KeepsCores t (if (t.bayAt bay).isSome then t.modBay bay fun b => { b with dropped := b.dropped + 1 }
      else { t with telemetry := { t.telemetry with dropped := t.telemetry.dropped + 1 } }) := .ite (.of_eq rfl rfl) (.of_eq rfl rfl)
  have hw {t u : State} {k : Nat} {va : W64} {data : List Byte} {x : Option AErr} (h : agentWrite t (firmware bay k) va 8 data = (u, x)) :
      KeepsCores t u := (keeps_agentWrite rfl rfl t va 8 data).of_pair h
  unfold logRecord
  dsimp only
  split
  · exact hdrop s
  split
  · next h => exact ((keeps_agentRead s _ _ _ _).of_pair h).trans (hdrop _)
  · next h =>
    refine ((keeps_agentRead s _ _ _ _).of_pair h).trans ?_
    split
    · next h => exact (hw h).trans (hdrop _)
    · next h =>
      refine (hw h).trans ?_
      split
      · next h => exact (hw h).trans (hdrop _)
      · next h => exact hw h

/-- A core replaced beside its engine and its task. -/
theorem keeps_setCore {s : State} {n : Nat} {c : Core} (he : c.e = (s.core n).e) (ht : c.task = (s.core n).task) :
    KeepsCores s (s.setCore n c) := by
  have h := KeepsCores.modCore s n (f := fun x => { c with e := x.e, task := x.task }) (fun _ => rfl) fun _ => rfl
  rw [modCore_def, ← he, ← ht] at h
  exact h

/-- Raising a fault changes no engine. -/
theorem keeps_raise (s : State) (n : Nat) (fi : FaultInfo) : KeepsCores s (raise s n fi) := by
  unfold raise
  dsimp only
  split
  · exact keeps_logRecord _ _ _
  split
  · exact keeps_setCore rfl rfl
  refine .ite (keeps_setCore rfl rfl) (.ite ?_ (keeps_setCore rfl rfl))
  split
  · split
    · exact .refl s
    · exact keeps_setCore rfl rfl
  · refine .ite (.ite (keeps_setCore rfl rfl) (.ite (keeps_setCore rfl rfl) (.refl s))) ?_
    exact .ite (keeps_setCore rfl rfl) (keeps_setCore rfl rfl)

end Sys2Proof.Machine
end

section
/-! O55, accumulation: what a group of chunks adds to a cell of a bank. -/

namespace Sys2Proof.Machine

open Sys2Proof.Claims

/-! ### The elements of a chunk (R182) -/

/-- The elements of a row of a chunk's A. -/
def aRow (r : MaccRun) (x : Chunk) (row : Nat × Nat) (k : Nat) : Option Num :=
  elemNum r.fma row.2 (8 * ((r.start + x.t) % aGroup r.fma) + k) (row.1 / 2 ^ (aWidth r.fma * k) % 2 ^ aWidth r.fma)

/-- Element `k` of row `row` of a chunk's A. -/
def aElem (r : MaccRun) (x : Chunk) (row k : Nat) : Option Num :=
  match x.a[row]? with
  | some c => aRow r x c k
  | none => some .nan

/-- Element `k` of column `col` of a chunk's B. -/
def bElem (r : MaccRun) (x : Chunk) (col k : Nat) : Option Num :=
  elemNum r.fmb (bHdr x.hdr col) (8 * (x.t % (bLayout r.fmb).chunks) + k) (bCode r.fmb x.blk col k)

/-- The products that some chunks add to a cell. -/
def products (r : MaccRun) (chunks : List Chunk) (row col : Nat) : List Num :=
  chunks.flatMap fun x => (List.range 8).map fun k => mulNum ((aElem r x row k).getD .nan) ((bElem r x col k).getD .nan)

section
variable (r : MaccRun) (x : Chunk)

theorem chunkA_eq (h : x.a.length = 256) : chunkA r x = (List.range 256).map fun row => (List.range 8).map (aElem r x row) := by
  refine List.ext_getElem (by simp [chunkA, h]) fun row hrow _ => ?_
  have hrow : row < x.a.length := by simpa [chunkA] using hrow
  have ha : aElem r x row = aRow r x x.a[row] := funext fun k => by rw [aElem, List.getElem?_eq_getElem hrow]
  simp only [chunkA, List.getElem_map, List.getElem_range, ha]
  rfl

theorem chunkB_eq : chunkB r x = (List.range 128).map fun col => (List.range 8).map (bElem r x col) := rfl

end

/-! ### Reserved codes (R186) -/

/-- No code is reserved where each of 8 elements has a value. -/
theorem firstReserved_eq_none (n : Nat) (e : Nat → Nat → Option Num) :
    firstReserved ((List.range n).map fun j => (List.range 8).map (e j)) = none ↔ ∀ j k, j < n → k < 8 → e j k ≠ none := by
  simp only [firstReserved, List.findSome?_eq_none_iff, Option.map_eq_none_iff, List.findIdx?_eq_none_iff]
  constructor
  · intro h j k hj hk hnone
    have := h ((List.range 8).map (e j), j) (by simp [List.mk_mem_zipIdx_iff_getElem?, List.getElem?_range hj]) (e j k)
      (List.mem_map_of_mem (List.mem_range.2 hk))
    rw [hnone] at this
    cases this
  · intro h p hp x hx
    obtain ⟨j, hj, hrow⟩ := List.mem_map.1 (List.fst_mem_of_mem_zipIdx hp)
    rw [← hrow] at hx
    obtain ⟨k, hk, rfl⟩ := List.mem_map.1 hx
    exact Option.isNone_eq_false_iff.2 (Option.isSome_iff_ne_none.2 (h j k (List.mem_range.1 hj) (List.mem_range.1 hk)))

/-! ### Cells (R35 to R38) -/

/-- Products of pairs, chunk by chunk. -/
theorem zipWith_flatMap {α β γ δ : Type} (f : β → γ → δ) (a : α → List β) (b : α → List γ) (l : List α)
    (h : ∀ x ∈ l, (a x).length = (b x).length) :
    List.zipWith f (l.flatMap a) (l.flatMap b) = l.flatMap fun x => List.zipWith f (a x) (b x) := by
  induction l with
  | nil => rfl
  | cons x l ih =>
    obtain ⟨hx, hl⟩ := List.forall_mem_cons.1 h
    simp only [List.flatMap_cons, List.zipWith_append hx, ih hl]

/-- Numbers placed side by side. -/
theorem sum_digits (w n : Nat) (f : Nat → Nat) : ((List.range n).map fun i => f i % 2 ^ w * 2 ^ (w * i)).sum = digitSum w n f := by
  induction n with
  | zero => rfl
  | succ n ih => rw [List.range_succ, List.map_append, List.sum_append, ih, digitSum_succ]; simp

/-- What a cell holds after a group of chunks has been added to it. -/
def addedTo (r : MaccRun) (chunks : List Chunk) (old row col : Nat) : Nat :=
  if r.info.prof = 3 then accumulateInt old ((products r chunks row col).map numInt).sum (r.f.mode.getLsbD 0)
  else accumulate old (groupSum (if r.info.prof = 1 then 24 else 40) (products r chunks row col))

theorem addedTo_eq (r : MaccRun) (chunks : List Chunk) (old row col : Nat) :
    (if r.info.prof.toNat = 3 then accumulateInt old ((products r chunks row col).map numInt).sum (bitAt r.f.mode 0)
      else accumulate old (groupSum (if r.info.prof.toNat = 1 then 24 else 40) (products r chunks row col))) =
      addedTo r chunks old row col := by
  have h1 : r.info.prof.toNat = 1 ↔ r.info.prof = 1 := by rw [← BitVec.toNat_inj]; rfl
  have h3 : r.info.prof.toNat = 3 ↔ r.info.prof = 3 := by rw [← BitVec.toNat_inj]; rfl
  simp only [h1, h3, addedTo]
  rfl

/-- A numbered list of values of numbers. -/
theorem zipIdx_map_range {α β : Type} (n : Nat) (f : Nat → α) (g : α × Nat → β) :
    ((List.range n).map f).zipIdx.map g = (List.range n).map fun i => g (f i, i) :=
  List.ext_getElem (by simp) fun i _ _ => by simp

section
variable {r : MaccRun} {chunks : List Chunk}

/-- The values of row `row` of the A of some chunks. -/
theorem flatMap_chunkA (hc : ∀ x ∈ chunks, x.a.length = 256) {row : Nat} (hrow : row < 256) :
    ((chunks.map (chunkA r)).flatMap fun a => ((a[row]?).getD []).map fun e => e.getD .nan) =
      chunks.flatMap fun x => (List.range 8).map fun k => (aElem r x row k).getD .nan := by
  rw [List.flatMap_map]
  refine List.flatMap_congr fun x hx => ?_
  rw [chunkA_eq r x (hc x hx), List.getElem?_map, List.getElem?_range hrow]
  simp

/-- The values of column `col` of the B of some chunks. -/
theorem flatMap_chunkB {col : Nat} (hcol : col < 128) :
    ((chunks.map (chunkB r)).flatMap fun b => ((b[col]?).getD []).map fun e => e.getD .nan) =
      chunks.flatMap fun x => (List.range 8).map fun k => (bElem r x col k).getD .nan := by
  rw [List.flatMap_map]
  refine List.flatMap_congr fun x _ => ?_
  rw [chunkB_eq r x, List.getElem?_map, List.getElem?_range hcol]
  simp

/-- The products of a row and a column. -/
theorem zipWith_products (row col : Nat) :
    List.zipWith mulNum (chunks.flatMap fun x => (List.range 8).map fun k => (aElem r x row k).getD .nan)
      (chunks.flatMap fun x => (List.range 8).map fun k => (bElem r x col k).getD .nan) = products r chunks row col := by
  rw [zipWith_flatMap _ _ _ _ fun _ _ => by simp]
  refine List.flatMap_congr fun x _ => ?_
  rw [List.zipWith_map, List.zipWith_self]

end

/-- A group of chunks added to a row of cells. -/
theorem row_accumulateGroup (r : MaccRun) (chunks : List Chunk) (hc : ∀ x ∈ chunks, x.a.length = 256) (bank : Vector V4096 256)
    {row : Nat} (hrow : row < 256) : rd (accumulateGroup r chunks bank) row 0 =
      BitVec.ofNat 4096 (digitSum 32 128 fun col => addedTo r chunks (lane (rd bank row 0).toNat 32 col) row col) := by
  have hcell (col : Nat) (h : col < 128) :
      (let ps := List.zipWith mulNum ((chunks.map (chunkA r)).flatMap fun a => ((a[row]?).getD []).map fun e => e.getD .nan)
        ((chunks.map (chunkB r)).flatMap fun b => ((b[col]?).getD []).map fun e => e.getD .nan)
      if r.info.prof.toNat = 3 then accumulateInt (lane (rd bank row 0).toNat 32 col) ((ps.map numInt).sum) (bitAt r.f.mode 0)
      else accumulate (lane (rd bank row 0).toNat 32 col) (groupSum (if r.info.prof.toNat = 1 then 24 else 40) ps)) =
        addedTo r chunks (lane (rd bank row 0).toNat 32 col) row col := by
    rw [flatMap_chunkA hc hrow, flatMap_chunkB h, zipWith_products]
    exact addedTo_eq r chunks _ row col
  rw [rd_eq _ _ _ hrow, accumulateGroup, Vector.getElem_ofFn]
  refine congrArg (BitVec.ofNat 4096) ?_
  rw [zipIdx_map_range, zipIdx_map_range, ← sum_digits]
  refine congrArg List.sum (List.map_congr_left fun col hcol => congrArg (· % 2 ^ 32 * 2 ^ (32 * col)) ?_)
  exact hcell col (List.mem_range.1 hcol)

/-- A group of chunks added to a cell. -/
theorem cell_accumulateGroup (r : MaccRun) (chunks : List Chunk) (hc : ∀ x ∈ chunks, x.a.length = 256) (bank : Vector V4096 256)
    {row col : Nat} (hrow : row < 256) (hcol : col < 128) :
    lane (rd (accumulateGroup r chunks bank) row 0).toNat 32 col =
      addedTo r chunks (lane (rd bank row 0).toNat 32 col) row col % 2 ^ 32 := by
  rw [row_accumulateGroup r chunks hc bank hrow]
  exact lane_ofLanes (w := 32) (n := 128) _ le_rfl hcol

end Sys2Proof.Machine
end

section
/-! O55, beats: what a beat of a MACC changes and keeps. -/

namespace Sys2Proof.Machine

open Sys2Proof.Claims

/-! ### Changes of an engine -/

/-- What every change of an engine keeps, the change of one core's engine keeps in all. -/
theorem engine_modE {α : Type} (P : Engine → α) {f : Engine → Engine} (hf : ∀ e, P (f e) = P e) (s : State) (n m : Nat) :
    P ((s.modE n f).core m).e = P (s.core m).e := by
  by_cases hn : n < 320
  · by_cases hm : n = m
    · subst hm
      rw [core_modE_same s n f hn, hf]
    · rw [State.modE, core_modCore_ne _ _ _ _ hm]
  · simp only [State.core, State.modE, State.modCore, State.setCore, wr, hn, dite_false]

/-- The banks of an engine. -/
def banks (e : Engine) : Vector V4096 256 × Vector V4096 256 × Bool := (e.ac0, e.ac1, e.ac1Active)

section
variable {e e' : Engine} (h : banks e' = banks e)

include h

theorem ac1Active_of_banks : e'.ac1Active = e.ac1Active := congrArg (·.2.2) h

theorem activeBank_of_banks : activeBank e' = activeBank e :=
  congrArg (fun b : Vector V4096 256 × Vector V4096 256 × Bool => if b.2.2 then b.2.1 else b.1) h

theorem drainBank_of_banks : drainBank e' = drainBank e :=
  congrArg (fun b : Vector V4096 256 × Vector V4096 256 × Bool => if b.2.2 then b.1 else b.2.1) h

end

/-- Core `n` has the banks that it had, in the same cycle. -/
structure KeepsBanks (n : Nat) (s t : State) : Prop where
  now : t.now = s.now
  banks : banks (t.core n).e = banks (s.core n).e

namespace KeepsBanks

variable {n : Nat} {s t u : State}

theorem refl (n : Nat) (s : State) : KeepsBanks n s s := ⟨rfl, rfl⟩

theorem trans (h : KeepsBanks n s t) (h' : KeepsBanks n t u) : KeepsBanks n s u := ⟨h'.now.trans h.now, h'.banks.trans h.banks⟩

theorem modE (s : State) (m : Nat) {f : Engine → Engine} (hf : ∀ e, Machine.banks (f e) = Machine.banks e) : KeepsBanks n s (s.modE m f) :=
  ⟨rfl, engine_modE Machine.banks hf s m n⟩

end KeepsBanks

/-! ### The active bank -/

section
variable (e : Engine) (b : Vector V4096 256)

@[simp] theorem ac1Active_setActive : (setActive e b).ac1Active = e.ac1Active := by unfold setActive; split <;> rfl
@[simp] theorem activeBank_setActive : activeBank (setActive e b) = b := by cases h : e.ac1Active <;> simp [activeBank, setActive, h]
@[simp] theorem drainBank_setActive : drainBank (setActive e b) = drainBank e := by cases h : e.ac1Active <;> simp [drainBank, setActive, h]

end

/-! ### What a beat reads (R187, R195) -/

/-- Reading its blocks leaves a core its banks. -/
theorem readBlocks_keeps {s t : State} {core n : Nat} {r : MaccRun} {got : List (BitVec 1024)} (h : readBlocks s core r n = some (t, got)) :
    KeepsBanks core s t := by
  unfold readBlocks at h
  split at h
  · split at h
    · cases h
    · obtain ⟨rfl, rfl⟩ := Prod.mk.inj (Option.some.inj h)
      exact .modE s core fun _ => rfl
  · obtain ⟨rfl, rfl⟩ := Prod.mk.inj (Option.some.inj h)
    exact .modE s core fun _ => rfl

/-- What ends chunk `t` of `n` of a MACC (R185, R186): a reserved code stops it, and otherwise the chunk joins its group, which a full
group's cells take. -/
def endChunk (s : State) (core : Nat) (r : MaccRun) (t n : Nat) : State :=
  let x : Chunk := { t := t, a := r.aNow, hdr := r.hdr, blk := r.blk }
  match firstReserved (chunkA r x), firstReserved (chunkB r x) with
  | some (row, k), _ => maccFault s core r t 0 row k
  | none, some (col, k) => maccFault s core r t 1 col k
  | none, none =>
    let g := r.group ++ [x]
    let full := decide (profileGroup r.info.prof ≤ g.length ∨ n ≤ t + 1)
    let s := if full then s.modE core fun e => setActive e (accumulateGroup r g (activeBank e)) else s
    if n ≤ t + 1 then endMacc s core
    else
      let r := { r with beat := r.beat + 1, next := s.now + 1, group := if full then [] else g, aNow := r.aNext, blk := [] }
      s.modE core fun e => { e with macc := some r }

/-- A beat that lacks its blocks waits. -/
theorem maccBeatOf_waits {s : State} {core : Nat} {r : MaccRun}
    (h : readBlocks s core r (beatBlocks (bLayout r.fmb) (r.beat / bPlanes r.fmb) (r.beat % bPlanes r.fmb)) = none) :
    maccBeatOf s core r = s.modE core fun e => { e with macc := some { r with next := s.now + 1, halted := false } } := by
  have h' : readBlocks s core { r with halted := false }
    (beatBlocks (bLayout r.fmb) (r.beat / bPlanes r.fmb) (r.beat % bPlanes r.fmb)) = none := h
  simp only [maccBeatOf, h']

/-- What a beat has read of its chunk. -/
def withBlocks (r : MaccRun) (got : List (BitVec 1024)) (mark : Nat × Bool × Nat) (aNext : List (Nat × Nat)) : MaccRun :=
  let i := r.beat % bPlanes r.fmb
  let heads := if i = 0 ∧ r.beat / bPlanes r.fmb % (bLayout r.fmb).chunks = 0 then (bLayout r.fmb).hdr else 0
  { r with
    halted := false, mark := mark, used := r.used + 128 * got.length, hdr := if heads = 0 then r.hdr else got.take heads
    blk := (if i = 0 then [] else r.blk) ++ got.drop heads, aNext := aNext }

/-- A beat that has its blocks goes on to the next, or ends its chunk. -/
theorem maccBeatOf_reads {s t : State} {core : Nat} {r : MaccRun} {got : List (BitVec 1024)}
    (h : readBlocks s core r (beatBlocks (bLayout r.fmb) (r.beat / bPlanes r.fmb) (r.beat % bPlanes r.fmb)) = some (t, got)) :
    ∃ u mark aNext, KeepsBanks core s u ∧ maccBeatOf s core r =
      if r.beat % bPlanes r.fmb + 1 < bPlanes r.fmb then
        u.modE core fun e => { e with macc := some { withBlocks r got mark aNext with beat := r.beat + 1, next := u.now + 1 } }
      else endChunk u core (withBlocks r got mark aNext) (r.beat / bPlanes r.fmb) ((r.f.beats.toNat + 1) / bPlanes r.fmb) := by
  have h' : readBlocks s core { r with halted := false }
    (beatBlocks (bLayout r.fmb) (r.beat / bPlanes r.fmb) (r.beat % bPlanes r.fmb)) = some (t, got) := h
  have hkeeps := readBlocks_keeps h
  let wb := rd (s.core core).e.wb r.f.bsrc.toNat {}
  let src := maccSource core r
  let u := r.start + r.beat / bPlanes r.fmb + 1
  let mark := (r.used, wb.cursorHalf, wb.cursorOff)
  by_cases h0 : r.beat % bPlanes r.fmb = 0
  · by_cases hn : r.beat / bPlanes r.fmb + 1 < (r.f.beats.toNat + 1) / bPlanes r.fmb
    · refine ⟨holdBanks t src t.now (aBanks r.fma r.ma r.maScale u r.transposed), mark, readA t src r.fma r.ma r.maScale u r.transposed,
        hkeeps.trans (.modE _ _ fun _ => rfl), ?_⟩
      simp only [maccBeatOf, h']
      simp only [h0, hn, and_self, if_true, true_and, withBlocks, endChunk] <;> rfl
    · refine ⟨t, mark, r.aNext, hkeeps, ?_⟩
      simp only [maccBeatOf, h']
      simp only [h0, hn, and_false, if_true, if_false, true_and, withBlocks, endChunk] <;> rfl
  · refine ⟨t, r.mark, r.aNext, hkeeps, ?_⟩
    simp only [maccBeatOf, h']
    simp only [h0, false_and, if_false, withBlocks, endChunk] <;> rfl

/-! ### The end of a chunk (R186) -/

/-- A reserved code leaves every bank as it is. -/
theorem banks_maccFault (s : State) (core : Nat) (r : MaccRun) (t opnd row k : Nat) :
    banks ((maccFault s core r t opnd row k).core core).e = banks (s.core core).e := by
  have hdrop (u : State) : banks ((dropFirmwareOp u r.info .m core).core core).e = banks (u.core core).e := by
    unfold dropFirmwareOp
    split
    · rfl
    · refine engine_modE banks (fun e => ?_) u core core
      rfl
  have hraise (u : State) (fi : FaultInfo) : banks ((raise u core fi).core core).e = banks (u.core core).e := by
    rw [(keeps_raise u core fi).engine]
  refine (hraise _ _).trans ((hdrop _).trans (engine_modE banks (fun e => ?_) s core core))
  dsimp only
  split <;> rfl

section
variable {s : State} {core t n : Nat} {r : MaccRun}

/-- The chunk that ends. -/
def lastChunk (r : MaccRun) (t : Nat) : Chunk := { t := t, a := r.aNow, hdr := r.hdr, blk := r.blk }

/-- A chunk with a reserved code. -/
theorem endChunk_reserved (h : ¬(firstReserved (chunkA r (lastChunk r t)) = none ∧ firstReserved (chunkB r (lastChunk r t)) = none)) :
    banks ((endChunk s core r t n).core core).e = banks (s.core core).e := by
  unfold endChunk
  dsimp only
  split
  · exact banks_maccFault _ _ _ _ _ _ _
  · exact banks_maccFault _ _ _ _ _ _ _
  · next ha hb => exact absurd ⟨ha, hb⟩ h

/-- A group is full: it has the chunks of its profile, or the MACC ends. -/
def GroupEnds (r : MaccRun) (t n : Nat) : Prop := (if r.info.prof = 2 then 4 else 1) ≤ (r.group ++ [lastChunk r t]).length ∨ n ≤ t + 1

/-- The state with a full group added to the active bank, if the group is full. -/
def groupAdded (s : State) (core : Nat) (r : MaccRun) (t n : Nat) : State :=
  if profileGroup r.info.prof ≤ (r.group ++ [lastChunk r t]).length ∨ n ≤ t + 1 then
    s.modE core fun e => setActive e (accumulateGroup r (r.group ++ [lastChunk r t]) (activeBank e))
  else s

theorem now_groupAdded : (groupAdded s core r t n).now = s.now := by
  unfold groupAdded
  split <;> rfl

theorem engine_groupAdded_full (hn : core < 320) (hg : GroupEnds r t n) : ((groupAdded s core r t n).core core).e =
    setActive (s.core core).e (accumulateGroup r (r.group ++ [lastChunk r t]) (activeBank (s.core core).e)) := by
  have h : groupAdded s core r t n = s.modE core fun e => setActive e (accumulateGroup r (r.group ++ [lastChunk r t]) (activeBank e)) := if_pos hg
  rw [h, core_modE_same _ _ _ hn]

theorem groupAdded_open (hg : ¬GroupEnds r t n) : groupAdded s core r t n = s := if_neg hg

/-- A full group leaves which bank is active, and the other one. -/
theorem ac1Active_groupAdded (hn : core < 320) : ((groupAdded s core r t n).core core).e.ac1Active = (s.core core).e.ac1Active ∧
    drainBank ((groupAdded s core r t n).core core).e = drainBank (s.core core).e := by
  by_cases hg : GroupEnds r t n
  · rw [engine_groupAdded_full hn hg]
    exact ⟨ac1Active_setActive _ _, drainBank_setActive _ _⟩
  · rw [groupAdded_open hg]
    exact ⟨rfl, rfl⟩

variable (ha : firstReserved (chunkA r (lastChunk r t)) = none) (hb : firstReserved (chunkB r (lastChunk r t)) = none)

include ha hb in
/-- The last chunk of a MACC ends it. -/
theorem endChunk_last (hlast : n ≤ t + 1) : endChunk s core r t n = endMacc (groupAdded s core r t n) core := by
  unfold lastChunk at ha hb
  simp only [endChunk, ha, hb, groupAdded, lastChunk, decide_eq_true_eq, hlast, if_true]

/-- A MACC that goes on with its next chunk in cycle `next`. -/
def nextChunk (r : MaccRun) (t n next : Nat) : MaccRun :=
  { r with
    beat := r.beat + 1, next := next, aNow := r.aNext, blk := []
    group := if profileGroup r.info.prof ≤ (r.group ++ [lastChunk r t]).length ∨ n ≤ t + 1 then [] else r.group ++ [lastChunk r t] }

include ha hb in
/-- After any other chunk the MACC goes on with the next. -/
theorem endChunk_next (hlast : t + 1 < n) : endChunk s core r t n =
    (groupAdded s core r t n).modE core fun e => { e with macc := some (nextChunk r t n (s.now + 1)) } := by
  unfold lastChunk at ha hb
  rw [← now_groupAdded (core := core) (r := r) (t := t) (n := n)]
  simp only [endChunk, ha, hb, groupAdded, nextChunk, lastChunk, decide_eq_true_eq, not_le.2 hlast, if_false]

include ha hb in
/-- However it goes on, the banks are those with the group added. -/
theorem banks_endChunk :
    banks ((endChunk s core r t n).core core).e = banks ((groupAdded s core r t n).core core).e := by
  rcases Nat.lt_or_ge (t + 1) n with h | h
  · rw [endChunk_next ha hb h]
    refine engine_modE banks (fun e => ?_) _ _ _
    rfl
  · rw [endChunk_last ha hb h]
    refine engine_modE banks (fun e => ?_) _ _ _
    rfl

end

end Sys2Proof.Machine
end

section
/-! O55: the beats of a MACC. -/

namespace Sys2Proof.Machine

open Sys2Proof.Claims

/-- On a core that runs, a MACC whose cycle has come takes its beat. -/
theorem exec_maccBeat_runs {s : State} {core : Nat} {r : MaccRun} (hmacc : (s.core core).e.macc = some r)
    (hpower : rd s.powered (core / 160) false = true) (hstop : (s.core core).stop = none) (hstall : (s.core core).stallUntil ≤ s.now)
    (hrest : (s.core core).restoring = false) (htask : (s.core core).task.isSome = true) (hnext : r.next ≤ s.now) :
    exec (.maccBeat core) s = .next (maccBeatOf s core r) := by
  rw [exec_maccBeat, execMaccBeat]
  simp only [hmacc, hpower, hstop, hstall, hrest, htask, hnext, decide_true, Bool.not_false, Bool.and_true, if_true]

/-- R34 to R38, R185, R187, R195: the beats of a MACC. -/
theorem matrixAccumulateBeats : MatrixAccumulateBeats := by
  intro s core r hcore hmacc hpower hstop hstall hrest htask hnext hrows hgroup l p t i n e need
  have hexec := exec_maccBeat_runs hmacc hpower hstop hstall hrest htask hnext
  refine ⟨fun hread => hexec.trans (congrArg _ (maccBeatOf_waits hread)), fun s1 got hread => ?_⟩
  intro heads x chunks aElem bElem reserved products groupEnds cell added
  obtain ⟨u, mark, aNext, hkeeps, hbeat⟩ := maccBeatOf_reads hread
  refine ⟨_, hexec, ?_⟩
  by_cases hp : i + 1 < p
  case pos =>
    rw [hbeat, if_pos hp]
    let r' : MaccRun := { withBlocks r got mark aNext with beat := r.beat + 1, next := u.now + 1 }
    have hbanks : banks ((u.modE core fun e => { e with macc := some r' }).core core).e = banks e := by
      refine (engine_modE banks (fun e => ?_) u core core).trans hkeeps.banks
      rfl
    refine ⟨ac1Active_of_banks hbanks, drainBank_of_banks hbanks, fun _ => ⟨activeBank_of_banks hbanks, r', ?_, rfl, ?_, rfl, rfl⟩,
      fun hle => absurd hp (not_lt.2 hle), fun hle => absurd hp (not_lt.2 hle)⟩
    · rw [core_modE_same _ _ _ hcore]
    · exact congrArg (· + 1) hkeeps.now
  case neg =>
    rw [hbeat, if_neg hp]
    have hA : firstReserved (chunkA (withBlocks r got mark aNext) (lastChunk (withBlocks r got mark aNext) t)) = none ↔
        ∀ j k, j < 256 → k < 8 → aElem x j k ≠ none := by
      rw [chunkA_eq _ _ (by exact hrows), firstReserved_eq_none]
      exact Iff.rfl
    have hB : firstReserved (chunkB (withBlocks r got mark aNext) (lastChunk (withBlocks r got mark aNext) t)) = none ↔
        ∀ j k, j < 128 → k < 8 → bElem x j k ≠ none := by
      rw [chunkB_eq, firstReserved_eq_none]
      exact Iff.rfl
    by_cases hres : reserved
    case pos =>
      have hbanks := (endChunk_reserved (s := u) (core := core) (n := n) fun hAB => by
        obtain ⟨j, k, hk, h | h⟩ := hres
        · exact hA.1 hAB.1 j k h.1 hk h.2
        · exact hB.1 hAB.2 j k h.1 hk h.2).trans hkeeps.banks
      exact ⟨ac1Active_of_banks hbanks, drainBank_of_banks hbanks, fun h => absurd h hp, fun _ _ => activeBank_of_banks hbanks,
        fun _ h => absurd hres h⟩
    case neg =>
      have ha := hA.2 fun j k hj hk h => hres ⟨j, k, hk, .inl ⟨hj, h⟩⟩
      have hb := hB.2 fun j k hj hk h => hres ⟨j, k, hk, .inr ⟨hj, h⟩⟩
      have hbanks := banks_endChunk (s := u) (core := core) (n := n) ha hb
      obtain ⟨hac, hdrain⟩ := ac1Active_groupAdded (s := u) (r := withBlocks r got mark aNext) (t := t) (n := n) hcore
      refine ⟨(ac1Active_of_banks hbanks).trans (hac.trans (ac1Active_of_banks hkeeps.banks)),
        (drainBank_of_banks hbanks).trans (hdrain.trans (drainBank_of_banks hkeeps.banks)), fun h => absurd h hp,
        fun _ h => absurd h hres, fun _ _ => ⟨fun hg => ?_, fun hg row col hrow hcol => ?_, fun hlast => ?_, fun hlast => ?_⟩⟩
      · have hg : ¬GroupEnds (withBlocks r got mark aNext) t n := hg
        rw [activeBank_of_banks hbanks, groupAdded_open hg]
        exact activeBank_of_banks hkeeps.banks
      · have hg : GroupEnds (withBlocks r got mark aNext) t n := hg
        have hlen : ∀ y ∈ r.group ++ [lastChunk (withBlocks r got mark aNext) t], y.a.length = 256 :=
          List.forall_mem_append.2 ⟨hgroup, List.forall_mem_singleton.2 hrows⟩
        rw [activeBank_of_banks hbanks, engine_groupAdded_full hcore hg, activeBank_setActive, activeBank_of_banks hkeeps.banks]
        exact cell_accumulateGroup _ _ hlen _ hrow hcol
      · rw [endChunk_last ha hb hlast, endMacc, core_modE_same _ _ _ hcore, now_groupAdded, hkeeps.now]
        exact ⟨rfl, rfl, rd_wr_same _ _ _ _ (by decide)⟩
      · rw [endChunk_next ha hb hlast, core_modE_same _ _ _ hcore, hkeeps.now]
        exact ⟨_, rfl, rfl, rfl⟩

end Sys2Proof.Machine
end

section
/-! O55, issue: M ops under `MMay`, and what an array op takes from its gang's leader or from itself. -/

namespace Sys2Proof.Machine

open Sys2Proof.Claims

/-! ### Address registers and causes (R179, R82) -/

theorem maBad_iff (v : W64) : maBad v = true ↔ maReserved v := by
  have hv := v.isLt
  simp only [maBad, bits, maReserved, bne_iff_ne]
  omega

section
variable (k1 k2 k6 k7 : Bool)

/-- The faults of an M op's checks, of which the lowest kind is reported (R82). -/
theorem mCause_cases : mCause k1 k2 k6 k7 =
    if k1 = true then some (class0 .m 1) else if k2 = true then some (class0 .m 2) else if k6 = true then some (class0 .m 6)
    else if k7 = true then some (class0 .m 7) else none := rfl

end

/-! ### Issue (R177, R178) -/

section
variable {s : State} {f : MOp} {array drain ok : Bool} {body : State → Option (BitVec 3) → Iss}

theorem mIssue_may (h : MMay s f array drain) (hok : ok = true) : mIssue s f array drain ok body = match body s (tagOf f.taga) with
    | .fault c a d0 d1 => .next (slotFault s c a d0 d1)
    | .wait => .next s
    | .go s' n => .next (issued s' n (tagOf f.taga)) := by
  obtain ⟨hmay, -, harray, hdrain, hnext⟩ := h
  have hunits : ((!array || arrayFree s s.cur.core) && (!drain || drainPortFree s s.cur.core) && decide ((curE s).mNext ≤ s.now)) = true := by
    have ha : (!array || arrayFree s s.cur.core) = true := by cases array <;> simp_all
    have hd : (!drain || drainPortFree s s.cur.core) = true := by cases drain <;> simp_all
    rw [ha, hd, decide_eq_true hnext]
    rfl
  simp only [mIssue, hunits, hok]
  exact slotIssue_may hmay

theorem mIssue_faults (h : MMay s f array drain) (hok : ok = true) {k : Nat} (hb : body s (tagOf f.taga) = .fault (class0 .m k) 0 0 0) :
    mIssue s f array drain ok body = opFaults s k := by
  obtain ⟨-, hslot, -⟩ := id h
  rw [mIssue_may h hok, hb, opFaults, hslot]

theorem mIssue_waits (h : MMay s f array drain) (hok : ok = true) (hb : body s (tagOf f.taga) = .wait) :
    mIssue s f array drain ok body = .next s := by
  rw [mIssue_may h hok, hb]

theorem mIssue_goes (h : MMay s f array drain) (hok : ok = true) {s' : State} {n : Nat} (hb : body s (tagOf f.taga) = .go s' n) :
    mIssue s f array drain ok body = .next (issued s' n (tagOf f.taga)) := by
  rw [mIssue_may h hok, hb]

end

/-- The state in which an M op that goes leaves its queue. -/
def mGone (s : State) (tag : Option (BitVec 3)) : State := modCurE (tagOnly s tag) fun e => { e with mNext := s.now + 1 }

/-- An M op leaves its units' times as they are. -/
theorem unitFree_mGone (s : State) (tag : Option (BitVec 3)) : (curE (mGone s tag)).unitFree = (curE s).unitFree := by
  have htag : (curE (tagOnly s tag)).unitFree = (curE s).unitFree := by
    cases tag with
    | none => rfl
    | some t =>
      refine engine_modE (·.unitFree) (fun e => ?_) s _ _
      rfl
  refine (engine_modE (·.unitFree) (fun e => ?_) (tagOnly s tag) _ _).trans htag
  rfl

theorem now_mGone (s : State) (tag : Option (BitVec 3)) : (mGone s tag).now = s.now := by cases tag <;> rfl

theorem mGo_eq (s : State) (occ : Nat) (tag : Option (BitVec 3)) :
    mGo s occ tag = .go (mGone s tag) (max occ (rd (curE s).unitFree 3 0 - s.now)) := by
  show Iss.go (mGone s tag) (max occ (rd (curE (mGone s tag)).unitFree 3 0 - (mGone s tag).now)) = _
  rw [unitFree_mGone, now_mGone]

/-! ### Gangs (R193) -/

theorem mem_gangMembers (n m : Nat) : m ∈ gangMembers n ↔ m / 4 = n / 4 := by
  simp only [gangMembers, List.mem_map, List.mem_range]
  exact ⟨fun ⟨i, hi, hm⟩ => by omega, fun h => ⟨m % 4, by omega, by omega⟩⟩

section
variable {s : State} {f : MOp} {g : GangOp} {gang : State → State} {k : GangOp → Iss} (h : Takes s f g gang)

include h in
/-- What a ganged op does when the members agree: its own faults and waits stand, and it goes once all four can. -/
theorem ganged_takes (hgang : (curE s).ganged = true) : ganged s k = match k g with
    | .fault c a d0 d1 => .fault c a d0 d1
    | .wait => .wait
    | .go t b =>
      if (curE s).gangHeld == some s.now || !(gangMembers s.cur.core).all fun m => gangFits s m (curE s).gangN g then .wait
      else .go (gang t) b := by
  rw [Takes, if_pos hgang] at h
  obtain ⟨own, hown, hlead, hall, rfl⟩ := h
  have hany (d : Option GangOp → Bool) (hd : ∀ q, q.opc = own.opc → (own.opc = 3 → q.beats = own.beats) → d (some q) = false) :
      ((gangMembers s.cur.core).map fun m => gangPart s m (curE s).gangN).any d = false := by
    rw [List.any_map, List.any_eq_false]
    intro m hm
    obtain ⟨q, hq, hopc, hbeats⟩ := hall m ((mem_gangMembers _ _).1 hm)
    simp [hq, hd q hopc hbeats]
  have hagree (q : GangOp) (hopc : q.opc = own.opc) (hbeats : own.opc = 3 → q.beats = own.beats) :
      (q.opc != own.opc || (own.opc == 3 && q.beats != own.beats)) = false := by simpa [hopc] using hbeats
  unfold ganged
  simp only [hown, hlead, hany Option.isNone fun _ _ _ => rfl, Bool.not_false, Bool.true_and, Bool.false_or]
  rw [hany _ hagree]
  cases k g <;> rfl

variable (hma : maBad (maReg (curE s) f.ma.toNat) = false)

include h hma

/-- An array op takes its leader's part in a gang, and its own outside one. -/
theorem withLeader_takes : withLeader s f k = match k g with
    | .fault c a d0 d1 => .fault c a d0 d1
    | .wait => .wait
    | .go t b =>
      if (curE s).ganged && ((curE s).gangHeld == some s.now || !(gangMembers s.cur.core).all fun m => gangFits s m (curE s).gangN g) then .wait
      else .go (gang t) b := by
  rw [withLeader, hma]
  cases hgang : (curE s).ganged with
  | true =>
    rw [ganged_takes h hgang]
    rfl
  | false =>
    rw [Takes, if_neg (by simp [hgang])] at h
    obtain ⟨⟨v, hv, hg⟩, rfl⟩ := h
    rw [if_neg Bool.false_ne_true, if_neg Bool.false_ne_true, withFm_read hv]
    show k (GangOp.mk 0 f.beats (rd (curE s).ma f.ma.toNat 0) (rd (curE s).ma ((f.ma.toNat + 1) % 8) 0) v) = _
    rw [← hg]
    cases k g <;> rfl

/-- An array op that faults on what it takes. -/
theorem withLeader_faults {c : BitVec 9} {a d0 d1 : W64} (hk : k g = .fault c a d0 d1) : withLeader s f k = .fault c a d0 d1 := by
  rw [withLeader_takes h hma, hk]

/-- An array op that waits on what it takes. -/
theorem withLeader_waits (hk : k g = .wait) : withLeader s f k = .wait := by
  rw [withLeader_takes h hma, hk]

/-- An array op that goes, in a gang with the other members. -/
theorem withLeader_goes (hr : GangReady s g) {t : State} {n : Nat} (hk : k g = .go t n) : withLeader s f k = .go (gang t) n := by
  rw [withLeader_takes h hma, hk]
  refine if_neg ?_
  cases hgang : (curE s).ganged with
  | false => simp
  | true =>
    obtain ⟨hheld, hfits⟩ := hr hgang
    have hall : ((gangMembers s.cur.core).all fun m => gangFits s m (curE s).gangN g) = true :=
      List.all_eq_true.2 fun m hm => hfits m ((mem_gangMembers _ _).1 hm)
    simp [hall, hheld]

end

end Sys2Proof.Machine
end

section
/-! O55: the checks of a MACC, and its issue. -/

namespace Sys2Proof.Machine

open Sys2Proof.Claims

/-! ### The checks (R186, R187) -/

section
variable (s : State) (f : MOp) (vb : BitVec 32) (g : GangOp)

/-- A reserved field or family (R186). -/
def maccReserved : Bool :=
  let prof := s.cur.info.prof
  maBad (maReg (curE s) f.ma.toNat) || maBad g.ma || maBad (maccMb (curE s) f) || maccFamBad prof g.fma || maccFamBad prof vb ||
    (bitAt f.mode 0 && prof != 3) || (fmValid g.fma && fmFamily g.fma == 2 && (bitAt f.ma 0 || maBad g.maScale))

/-- An operand that does not fit (R186, R187). -/
def maccUnfit : Bool :=
  let b := f.beats.toNat + 1
  (match (curE s).alatch with | none => true | some a => a.fm != g.fma) ||
    (decide (f.bsrc.toNat < 2) && (rd (curE s).wb f.bsrc.toNat {}).group.isNone) ||
    (fmValid vb && operandFamily vb && (b % bPlanes vb != 0 || b / bPlanes vb % (bLayout vb).chunks != 0))

/-- A format value is invalid (R23). -/
def maccInvalid : Bool := !fmValid g.fma || !fmValid vb || !ownFmValid s s.cur.core s.cur.info f

/-- A read beyond the scratchpad (R180). -/
def maccBeyond : Bool :=
  let l := bLayout vb
  let k := (f.beats.toNat + 1) / bPlanes vb
  (decide (1 < k) && pastEnd (aEnd g.fma g.ma g.maScale (((curE s).alatch.map (·.start)).getD 0 + k - 1)
    (((curE s).alatch.map (·.transposed)).getD false))) ||
  (decide (4 ≤ f.bsrc.toNat) && pastEnd (maBase (maccMb (curE s) f) + 128 * (k * (l.side + l.planes) + k / l.chunks * l.hdr)))

theorem maccCause_eq : maccCause s s.cur.core s.cur.info f vb g =
    mCause (maccReserved s f vb g) (maccUnfit s f vb g) (maccInvalid s f vb g) (maccBeyond s f vb g) := rfl

/-- A MACC as it starts (R185). -/
def maccStart : MaccRun :=
  { f := f, info := s.cur.info, bits := s.cur.bits, fma := g.fma, fmb := vb, start := ((curE s).alatch.map (·.start)).getD 0
    transposed := ((curE s).alatch.map (·.transposed)).getD false, lead := (curE s).ganged, ma := g.ma, maScale := g.maScale
    mb := maccMb (curE s) f, beat := 0, next := s.now, aNow := ((curE s).alatch.map (·.rows)).getD []
    aNext := [], hdr := [], blk := [], group := [], used := 0, mark := (0, false, 0) }

/-- The state with the active bank zeroed, when a MACC asks for that. -/
def maccZeroed (t : State) : State := if bitAt f.mode 1 then modCurE t fun e => setActive e (Vector.replicate 256 0) else t

/-- The state with a MACC started and its beat 0 done (R185). -/
def maccStarted (t : State) (r : MaccRun) : State := maccBeatOf (modCurE t fun e => { e with macc := some r }) t.cur.core r

/-- A MACC's run as of a state: the bundle and the cycle in which it issues. -/
def maccAs (r : MaccRun) (t : State) : MaccRun := { r with info := t.cur.info, bits := t.cur.bits, next := t.now }

/-- What a MACC does with what it takes. -/
def maccTry (tag : Option (BitVec 3)) : Iss :=
  mChecks (maccCause s s.cur.core s.cur.info f vb g) (if maccStarved (curE s) f then .wait else countT s fun t =>
    mGo (maccStarted (maccZeroed f t) (maccAs (maccStart s f vb g) (maccZeroed f t))) 0 tag)

end

section
variable {s : State} {f : MOp} {vb : BitVec 32} {g : GangOp} {gang : State → State} (h : MMay s f true false) (hok : maccFields f = true)
  (hfm : fmRead s s.cur.core s.cur.info f.fb.toNat = some vb) (htakes : Takes s f g gang)

include h hok in
/-- What of a MACC's own is reserved faults before any wait. -/
theorem execMacc_early (hbad : (maBad (maReg (curE s) f.ma.toNat) || maBad (maccMb (curE s) f) || (bitAt f.mode 0 && s.cur.info.prof != 3)) = true) :
    execMacc f s = opFaults s 1 :=
  mIssue_faults (k := 1) h hok (if_pos hbad)

variable (hgood : (maBad (maReg (curE s) f.ma.toNat) || maBad (maccMb (curE s) f) || (bitAt f.mode 0 && s.cur.info.prof != 3)) = false)

include h hok hfm hgood in
/-- So does a family that no MACC of its profile takes. -/
theorem execMacc_family (hbad : maccFamBad s.cur.info.prof vb = true) : execMacc f s = opFaults s 1 :=
  mIssue_faults (k := 1) h hok ((if_neg (Bool.eq_false_iff.1 hgood)).trans ((withFm_read hfm _).trans (if_pos hbad)))

variable (hfam : maccFamBad s.cur.info.prof vb = false)

include hgood in
theorem maBad_own : maBad (maReg (curE s) f.ma.toNat) = false := by
  simp only [Bool.or_eq_false_iff] at hgood
  exact hgood.1.1

section
include h hok hfm htakes hgood hfam

/-- Otherwise a MACC faults, waits and goes with what it takes. -/
theorem execMacc_faults {k : Nat} (hk : maccTry s f vb g (tagOf f.taga) = .fault (class0 .m k) 0 0 0) : execMacc f s = opFaults s k :=
  mIssue_faults h hok ((if_neg (Bool.eq_false_iff.1 hgood)).trans ((withFm_read hfm _).trans
    ((if_neg (Bool.eq_false_iff.1 hfam)).trans (withLeader_faults htakes (maBad_own hgood) hk))))

theorem execMacc_waits (hk : maccTry s f vb g (tagOf f.taga) = .wait) : execMacc f s = .next s :=
  mIssue_waits h hok ((if_neg (Bool.eq_false_iff.1 hgood)).trans ((withFm_read hfm _).trans
    ((if_neg (Bool.eq_false_iff.1 hfam)).trans (withLeader_waits htakes (maBad_own hgood) hk))))

theorem execMacc_goes (hr : GangReady s g) {t : State} {n : Nat} (hk : maccTry s f vb g (tagOf f.taga) = .go t n) :
    execMacc f s = .next (issued (gang t) n (tagOf f.taga)) :=
  mIssue_goes h hok ((if_neg (Bool.eq_false_iff.1 hgood)).trans ((withFm_read hfm _).trans
    ((if_neg (Bool.eq_false_iff.1 hfam)).trans (withLeader_goes htakes (maBad_own hgood) hr hk))))

end

end

/-! ### What the checks find -/

section
variable {s : State} {f : MOp} {vb : BitVec 32} {g : GangOp} {tag : Option (BitVec 3)}

theorem maccTry_reserved (h1 : maccReserved s f vb g = true) : maccTry s f vb g tag = .fault (class0 .m 1) 0 0 0 := by
  rw [maccTry, maccCause_eq, mCause_cases, if_pos h1, mChecks]

variable (h1 : maccReserved s f vb g = false)

include h1 in
theorem maccTry_unfit (h2 : maccUnfit s f vb g = true) : maccTry s f vb g tag = .fault (class0 .m 2) 0 0 0 := by
  rw [maccTry, maccCause_eq, mCause_cases, if_neg (Bool.eq_false_iff.1 h1), if_pos h2, mChecks]

variable (h2 : maccUnfit s f vb g = false)

include h1 h2 in
theorem maccTry_invalid (h6 : maccInvalid s f vb g = true) : maccTry s f vb g tag = .fault (class0 .m 6) 0 0 0 := by
  rw [maccTry, maccCause_eq, mCause_cases, if_neg (Bool.eq_false_iff.1 h1), if_neg (Bool.eq_false_iff.1 h2), if_pos h6, mChecks]

variable (h6 : maccInvalid s f vb g = false)

include h1 h2 h6 in
theorem maccTry_beyond (h7 : maccBeyond s f vb g = true) : maccTry s f vb g tag = .fault (class0 .m 7) 0 0 0 := by
  rw [maccTry, maccCause_eq, mCause_cases, if_neg (Bool.eq_false_iff.1 h1), if_neg (Bool.eq_false_iff.1 h2),
    if_neg (Bool.eq_false_iff.1 h6), if_pos h7, mChecks]

variable (h7 : maccBeyond s f vb g = false)

include h1 h2 h6 h7 in
/-- A MACC that its checks find good. -/
theorem maccTry_good : maccTry s f vb g tag = if maccStarved (curE s) f then .wait else countT s fun t =>
    mGo (maccStarted (maccZeroed f t) (maccAs (maccStart s f vb g) (maccZeroed f t))) 0 tag := by
  rw [maccTry, maccCause_eq, mCause_cases, if_neg (Bool.eq_false_iff.1 h1), if_neg (Bool.eq_false_iff.1 h2),
    if_neg (Bool.eq_false_iff.1 h6), if_neg (Bool.eq_false_iff.1 h7), mChecks]

end

theorem streamRuns_lt {s : State} {n : Nat} (h : streamRuns s n = true) : n < 320 := by
  simp only [streamRuns, Bool.and_eq_true] at h
  exact rd_powered_lt h.1.1.1.1

theorem maccAs_maccZeroed (r : MaccRun) (f : MOp) (t : State) : maccAs r (maccZeroed f t) = maccAs r t := by
  unfold maccZeroed
  split <;> rfl

theorem cur_maccZeroed (f : MOp) (t : State) : (maccZeroed f t).cur = t.cur := by
  unfold maccZeroed
  split <;> rfl

/-- Zeroing the active bank as MACC's MODE asks for. -/
def zeroedBy (f : MOp) (e : Engine) : Engine := if f.mode.getLsbD 1 = true then setActive e (Vector.replicate 256 0) else e

/-- A MACC starts on a state in which T counts it. -/
theorem maccStarted_counted {s : State} (hlt : s.cur.core < 320) (f : MOp) (r : MaccRun) :
    maccStarted (maccZeroed f (Claims.counted s)) (maccAs r (maccZeroed f (Claims.counted s))) =
    maccBeatOf (modCurE (Claims.counted s) fun e => { zeroedBy f e with macc := some (maccAs r s) }) s.cur.core (maccAs r s) := by
  have hcore : (Claims.counted s).cur.core < 320 := hlt
  rw [maccAs_maccZeroed, maccStarted, cur_maccZeroed, maccZeroed]
  unfold zeroedBy
  cases hb : bitAt f.mode 1 with
  | true =>
    have hb : f.mode.getLsbD 1 = true := hb
    rw [if_pos rfl, modCurE_modCurE _ _ _ hcore]
    simp only [hb, if_true]
    rfl
  | false =>
    have hb : f.mode.getLsbD 1 = false := hb
    simp only [hb, Bool.false_eq_true, if_false]
    rfl

/-! ### The checks as the statement says them -/

/-- A valid format value of a family that no MACC of the profile takes (R186). -/
def MaccForeign (prof : BitVec 4) (v : BitVec 32) : Prop := fmValid v = true ∧ (4 < fmFamily v ∨ (prof = 3 ∧ fmFamily v ≠ 0))

theorem maBase_eq_mod (v : W64) : maBase v = v.toNat % 2 ^ 20 := by
  simp [maBase, bits]

theorem maccFamBad_iff (prof : BitVec 4) (v : BitVec 32) : maccFamBad prof v = true ↔ MaccForeign prof v := by
  simp [maccFamBad, MaccForeign, operandFamily]

section
variable {s : State} {f : MOp} {vb : BitVec 32} {g : GangOp}

theorem maccReserved_iff : maccReserved s f vb g = true ↔
    maReserved (maReg (curE s) f.ma.toNat) ∨ maReserved g.ma ∨ maReserved (maccMb (curE s) f) ∨ MaccForeign s.cur.info.prof g.fma ∨
      MaccForeign s.cur.info.prof vb ∨ (bitAt f.mode 0 = true ∧ s.cur.info.prof ≠ 3) ∨
      (fmValid g.fma = true ∧ fmFamily g.fma = 2 ∧ (bitAt f.ma 0 = true ∨ maReserved g.maScale)) := by
  simp [maccReserved, maBad_iff, maccFamBad_iff, or_assoc, and_assoc]

/-- BSRC names a weight buffer or an address register. -/
theorem bsrc_lt_two_iff {b : BitVec 3} (h2 : b ≠ 2) (h3 : b ≠ 3) : b.toNat < 2 ↔ ¬4 ≤ b.toNat := by
  bv_omega

theorem latchDiffers_iff (o : Option ALatch) (v : BitVec 32) :
    (match o with | none => true | some a => a.fm != v) = true ↔ ∀ x, o = some x → x.fm ≠ v := by
  cases o <;> simp

theorem maccUnfit_iff (h2 : f.bsrc ≠ 2) (h3 : f.bsrc ≠ 3) : maccUnfit s f vb g = true ↔
    (∀ x, (curE s).alatch = some x → x.fm ≠ g.fma) ∨ (¬4 ≤ f.bsrc.toNat ∧ (rd (curE s).wb f.bsrc.toNat {}).group = none) ∨
      (fmValid vb = true ∧ fmFamily vb ≤ 4 ∧
        ((f.beats.toNat + 1) % bPlanes vb ≠ 0 ∨ (f.beats.toNat + 1) / bPlanes vb % (bLayout vb).chunks ≠ 0)) := by
  rw [maccUnfit, Bool.or_eq_true, Bool.or_eq_true, latchDiffers_iff, or_assoc]
  simp [bsrc_lt_two_iff h2 h3, operandFamily, and_assoc]

theorem ownFmValid_false_iff : ownFmValid s s.cur.core s.cur.info f = false ↔ OwnFmInvalid s f := by
  unfold ownFmValid OwnFmInvalid
  cases fmRead s s.cur.core s.cur.info f.fa.toNat <;> simp

theorem maccInvalid_iff : maccInvalid s f vb g = true ↔ fmValid g.fma = false ∨ fmValid vb = false ∨ OwnFmInvalid s f := by
  simp [maccInvalid, ← ownFmValid_false_iff, or_assoc]

theorem maccBeyond_iff : maccBeyond s f vb g = true ↔
    (1 < (f.beats.toNat + 1) / bPlanes vb ∧ 2 ^ 20 < aEnd g.fma g.ma g.maScale
      ((maccStart s f vb g).start + (f.beats.toNat + 1) / bPlanes vb - 1) (maccStart s f vb g).transposed) ∨
    (4 ≤ f.bsrc.toNat ∧ 2 ^ 20 < maBase (maccMb (curE s) f) + 128 * ((f.beats.toNat + 1) / bPlanes vb *
      ((bLayout vb).side + (bLayout vb).planes) + (f.beats.toNat + 1) / bPlanes vb / (bLayout vb).chunks * (bLayout vb).hdr)) := by
  simp only [maccBeyond, pastEnd, maccStart, Bool.or_eq_true, Bool.and_eq_true, decide_eq_true_eq]

theorem maccStarved_iff (h2 : f.bsrc ≠ 2) (h3 : f.bsrc ≠ 3) : maccStarved (curE s) f = true ↔
    ¬4 ≤ f.bsrc.toNat ∧ (let w := rd (curE s).wb f.bsrc.toNat {}; (if w.cursorHalf then w.full1 else w.full0) = false) := by
  simp only [maccStarved, halfFull, Bool.and_eq_true, Bool.not_eq_true', decide_eq_true_eq, bsrc_lt_two_iff h2 h3]

end

/-! ### Issue (R185) -/

section
variable {s : State} {f : MOp} {vb : BitVec 32} {g : GangOp} {gang : State → State} (h : MMay s f true false) (hok : maccFields f = true)
  (hfm : fmRead s s.cur.core s.cur.info f.fb.toNat = some vb) (htakes : Takes s f g gang)

include h hok hfm htakes

/-- A reserved field or family faults, whether it is found before the wait for other members or after it. -/
theorem macc_reserved (h1 : maccReserved s f vb g = true) : exec (.macc f) s = opFaults s 1 := by
  by_cases hearly : (maBad (maReg (curE s) f.ma.toNat) || maBad (maccMb (curE s) f) || (bitAt f.mode 0 && s.cur.info.prof != 3)) = true
  · exact execMacc_early h hok hearly
  · by_cases hfam : maccFamBad s.cur.info.prof vb = true
    · exact execMacc_family h hok hfm (Bool.eq_false_iff.2 hearly) hfam
    · exact execMacc_faults h hok hfm htakes (Bool.eq_false_iff.2 hearly) (Bool.eq_false_iff.2 hfam) (maccTry_reserved h1)

variable (h1 : maccReserved s f vb g = false)

omit h hok hfm htakes in
include h1 in
/-- Without a reserved field, nothing faults before the wait for other members. -/
theorem maccReserved_early :
    (maBad (maReg (curE s) f.ma.toNat) || maBad (maccMb (curE s) f) || (bitAt f.mode 0 && s.cur.info.prof != 3)) = false ∧
    maccFamBad s.cur.info.prof vb = false := by
  simp only [maccReserved, Bool.or_eq_false_iff] at h1 ⊢
  obtain ⟨⟨⟨⟨⟨⟨hma, -⟩, hmb⟩, -⟩, hfam⟩, hmode⟩, -⟩ := h1
  exact ⟨⟨⟨hma, hmb⟩, hmode⟩, hfam⟩

include h1

/-- The other faults of a MACC. -/
theorem macc_faults {k : Nat} (hk : maccTry s f vb g (tagOf f.taga) = .fault (class0 .m k) 0 0 0) : exec (.macc f) s = opFaults s k :=
  execMacc_faults h hok hfm htakes (maccReserved_early h1).1 (maccReserved_early h1).2 hk

variable (h2 : maccUnfit s f vb g = false) (h6 : maccInvalid s f vb g = false) (h7 : maccBeyond s f vb g = false)

include h2 h6 h7

/-- A MACC waits for its weight buffer and for T. -/
theorem macc_waits (hw : maccStarved (curE s) f = true ∨ (curE s).cT = 255) : exec (.macc f) s = .next s := by
  refine execMacc_waits h hok hfm htakes (maccReserved_early h1).1 (maccReserved_early h1).2 ?_
  rw [maccTry_good h1 h2 h6 h7]
  by_cases hstarved : maccStarved (curE s) f = true
  · rw [if_pos hstarved]
  · rw [if_neg hstarved, countT, if_pos (hw.resolve_left hstarved).ge]

/-- A MACC that neither faults nor waits goes, with its beat 0 done. -/
theorem macc_goes (hw : maccStarved (curE s) f = false) (hT : (curE s).cT < 255) (hr : GangReady s g) :
    exec (.macc f) s = .next (mDone (maccBeatOf (modCurE (Claims.counted s) fun e =>
      { zeroedBy f e with macc := some (maccStart s f vb g) }) s.cur.core (maccStart s f vb g)) f.taga 0 gang) := by
  have hlt : s.cur.core < 320 := streamRuns_lt h.1.1
  refine execMacc_goes h hok hfm htakes (maccReserved_early h1).1 (maccReserved_early h1).2 hr ?_
  rw [maccTry_good h1 h2 h6 h7, if_neg (Bool.eq_false_iff.1 hw), countT, if_neg (Nat.not_le.2 hT)]
  exact (congrArg (mGo · 0 _) (maccStarted_counted hlt f (maccStart s f vb g))).trans (mGo_eq _ _ _)

end

theorem matrixAccumulateIssues : MatrixAccumulateIssues := by
  intro s f g gang vb hmay hsel hb2 hb3 hfm htakes e prof va mb fromPad l b n foreign w reserved unfit invalid start tr beyond waits run zeroed
  have hok : maccFields f = true := by simpa [maccFields, hsel] using ⟨hb2, hb3⟩
  have hrun : maccStart s f vb g = run := by
    simp only [run, start, tr, e, maccStart]
    cases (curE s).alatch <;> rfl
  have hreserved : ¬reserved → maccReserved s f vb g = false := fun hn => Bool.eq_false_iff.2 (hn ∘ maccReserved_iff.1)
  have hunfit : ¬unfit → maccUnfit s f vb g = false := fun hn => Bool.eq_false_iff.2 (hn ∘ (maccUnfit_iff hb2 hb3).1)
  have hinvalid : ¬invalid → maccInvalid s f vb g = false := fun hn => Bool.eq_false_iff.2 (hn ∘ maccInvalid_iff.1)
  have hbeyond : maccBeyond s f vb g = true ↔ beyond := by
    rw [maccBeyond_iff, hrun, maBase_eq_mod]
    exact Iff.rfl
  have hgood : ¬beyond → maccBeyond s f vb g = false := fun hn => Bool.eq_false_iff.2 (hn ∘ hbeyond.1)
  refine ⟨fun h1 => ?_, fun h1 h2 => ?_, fun h1 h2 h6 => ?_, fun h1 h2 h6 h7 => ?_, fun h1 h2 h6 h7 hw => ?_, fun h1 h2 h6 h7 hw hT hr => ?_⟩
  · exact macc_reserved hmay hok hfm htakes (maccReserved_iff.2 h1)
  · exact macc_faults hmay hok hfm htakes (hreserved h1) (maccTry_unfit (hreserved h1) ((maccUnfit_iff hb2 hb3).2 h2))
  · exact macc_faults hmay hok hfm htakes (hreserved h1) (maccTry_invalid (hreserved h1) (hunfit h2) (maccInvalid_iff.2 h6))
  · exact macc_faults hmay hok hfm htakes (hreserved h1)
      (maccTry_beyond (hreserved h1) (hunfit h2) (hinvalid h6) (hbeyond.2 h7))
  · exact macc_waits hmay hok hfm htakes (hreserved h1) (hunfit h2) (hinvalid h6) (hgood h7) (hw.imp_left (maccStarved_iff hb2 hb3).2)
  · have hfull : maccStarved (curE s) f = false := Bool.eq_false_iff.2 fun hs => hw (.inl ((maccStarved_iff hb2 hb3).1 hs))
    rw [macc_goes hmay hok hfm htakes (hreserved h1) (hunfit h2) (hinvalid h6) (hgood h7) hfull hT hr, hrun]
    rfl

end Sys2Proof.Machine

open Sys2Proof Sys2Proof.Machine

/-- Settles O55: what MACC's checks find, its waits and its issue, and what its beats do. -/
theorem matrixAccumulate : Obligations.MatrixAccumulate := by
  unfold Obligations.MatrixAccumulate
  exact ⟨matrixAccumulateIssues, matrixAccumulateBeats⟩

end

section
/-! O1, O2, O41: g registers, the path of a context past its loops, and where branches and jumps take it. -/

namespace Sys2Proof.Machine

open Sys2Proof.Claims

/-! ### Registers (R46, R303) -/

/-- A g register reads what was last written to it, and g0 takes no write. -/
theorem gReg_gSet (g : GenCtx) (d r : Reg) (v : W64) : gReg (gSet g d v) r = if r = d ∧ d ≠ 0 then v else gReg g r := by
  by_cases h0 : d = 0
  · subst h0
    rw [gSet_zero, if_neg (fun h => h.2 rfl)]
  have hd : d.toNat < 32 := d.isLt
  by_cases hr : r = d
  · subst hr
    rw [if_pos ⟨rfl, h0⟩, gSet, gReg, if_neg h0, if_neg h0]
    dsimp only
    split
    · exact rd_wr_same _ _ _ _ (by omega)
    · exact rd_wr_same _ _ _ _ hd
  · have hne : d.toNat ≠ r.toNat := fun e => hr (BitVec.eq_of_toNat_eq e.symm)
    rw [if_neg (fun h => hr h.1), gSet, if_neg h0]
    dsimp only
    split
    next hm =>
      have hm' : 28 ≤ d.toNat := by simpa using (Bool.and_eq_true_iff.1 hm).2
      simp only [gReg, Bool.and_eq_true, decide_eq_true_eq]
      refine if_congr Iff.rfl rfl (ite_congr rfl (fun h => ?_) fun _ => rfl)
      exact rd_wr_ne _ _ _ _ _ (by omega)
    next hm =>
      simp only [gReg]
      refine if_congr Iff.rfl rfl (ite_congr rfl (fun _ => rfl) fun _ => ?_)
      exact rd_wr_ne _ _ _ _ _ hne

/-- In handler mode a write to g28 to g31 leaves the user's own registers. -/
theorem g_gSet_handler {g : GenCtx} {d : Reg} (v : W64) (hh : g.handler = true) (hd : 28 ≤ d.toNat) : (gSet g d v).g = g.g := by
  unfold gSet
  split
  · rfl
  · simp [hh, hd]

/-! ### Issue -/

/-- A context that may read some registers may read fewer. -/
theorem genReady_subset {s : State} {rs rs' : List Reg} (h : genReady s rs = true) (hs : rs' ⊆ rs) : genReady s rs' = true := by
  simp only [genReady, Bool.and_eq_true, List.all_eq_true] at h ⊢
  obtain ⟨h, hall⟩ := h
  exact ⟨h, fun r hr => hall r (hs hr)⟩

/-! ### The path past loops (R53) -/

/-- In handler mode no loop-end check is made (R303). -/
theorem advance_handler {g : GenCtx} (len : Nat) (h : g.handler = true) : advance g len = { g with pc := g.pc + BitVec.ofNat 48 len } := by
  simp [advance, h]

theorem advance_noLoop {g : GenCtx} (len : Nat) (h : g.nest = []) : advance g len = { g with pc := g.pc + BitVec.ofNat 48 len } := by
  simp [advance, h, loopEnd]

section
variable {g : GenCtx} {n : Nat} {rest : List Nat} (len : Nat) (hn : g.nest = n :: rest) (hh : g.handler = false)
include hn hh

/-- The innermost loop ends elsewhere. -/
theorem advance_elsewhere (hp : g.pc ≠ (rd g.lp n {}).lstop) : advance g len = { g with pc := g.pc + BitVec.ofNat 48 len } := by
  simp only [advance, hh, hn, loopEnd, hp, if_true, if_false, Bool.false_eq_true, ne_eq, not_false_eq_true]

/-- The innermost loop ends here for good: the next one out is checked. -/
theorem advance_leaves (hr : n ∉ rest) (hp : g.pc = (rd g.lp n {}).lstop) (hc : (rd g.lp n {}).count.toNat ≤ 1) :
    advance g len = advance { g with lp := wr g.lp n { rd g.lp n {} with count := 0, active := false }, nest := rest } len := by
  have hf : (n :: rest).filter (· != n) = rest := by
    rw [List.filter_cons_of_neg (by simp), List.filter_eq_self]
    exact fun x hx => bne_iff_ne.2 fun e => hr (e ▸ hx)
  simp only [advance, hh, hn, loopEnd, ← hp, hc, if_true, if_false, Bool.false_eq_true, ne_eq, not_true_eq_false, hf]

/-- The innermost loop ends here and is run again. -/
theorem advance_repeats (hp : g.pc = (rd g.lp n {}).lstop) (hc : 1 < (rd g.lp n {}).count.toNat) :
    advance g len = { g with lp := wr g.lp n { rd g.lp n {} with count := (rd g.lp n {}).count - 1 }, pc := (rd g.lp n {}).lstart } := by
  simp only [advance, hh, hn, loopEnd, ← hp, if_neg (Nat.not_le.2 hc), if_false, Bool.false_eq_true, ne_eq, not_true_eq_false]

end

/-! ### Jumps (R51, R112) -/

/-- Control goes to an aligned address after so many bubbles; a misaligned one faults. -/
theorem genJump_bubbles {s : State} (h : s.cur.core < 320) (f : GenCtx → GenCtx) (n : Nat) (pc : BitVec 48) :
    genJump s (bubbles (modCurG s f) n) pc =
      if pc.toNat % 4 = 0 then modCurG s fun g => { f g with pc := pc, readyAt := s.now + 1 + n } else genFault s 0x060 0 0 0 := by
  split
  next hp => rw [genJump_next hp, bubbles, modCurG_modCurG _ _ h, modCurG_modCurG _ _ h]; rfl
  next hp => exact if_pos hp

section
variable {s : State} {k : BitVec 4} {want : Bool} (h : genReady s [] = true) (hcv : (rd (curG s).k k.toNat {}).cv = true)
  (htv : (rd (curG s).k k.toNat {}).tv = true)
include h hcv htv

/-- A branch whose condition is the one it asks for goes to its aligned target. -/
theorem genBranch_taken (ha : (rd (curG s).k k.toNat {}).target.toNat % 4 = 0) (hc : (rd (curG s).k k.toNat {}).c = want) :
    genBranch s k want = .next (modCurG s fun g => { g with
      pc := (rd (curG s).k k.toNat {}).target, readyAt := s.now + 1 + branchBubbles s (rd (curG s).k k.toNat {}) }) := by
  have hj := genJump_bubbles (genReady_lt h) id (branchBubbles s (rd (curG s).k k.toNat {})) (rd (curG s).k k.toNat {}).target
  rw [if_pos ha, show modCurG s id = s from modCurG_self s] at hj
  rw [genBranch, genIssue_ready _ h]
  simp only [hcv, htv, hc, Bool.not_true, Bool.false_eq_true, if_false, if_true]
  rw [hj]; rfl

/-- Any other goes on to the next instruction. -/
theorem genBranch_untaken (hg : GoesOn s 4) (hc : (rd (curG s).k k.toNat {}).c ≠ want) : genBranch s k want = .next (changed s 4 id) := by
  rw [genBranch, genIssue_ready _ h]
  simp only [hcv, htv, hc, Bool.not_true, Bool.false_eq_true, if_false]
  rw [genDone_next hg]; rfl

end

theorem execGjal_eq {s : State} (h : genReady s [] = true) (d : Reg) (w2 : BitVec 32) :
    execGjal d w2 s = .next (if ((curG s).pc + w2.signExtend 48).toNat % 4 = 0 then
        modCurG s fun g => { gSet g d (((curG s).pc + 8).setWidth 64) with pc := (curG s).pc + w2.signExtend 48, readyAt := s.now + 1 + 2 }
      else genFault s 0x060 0 0 0) := by
  rw [execGjal, genIssue_ready _ h]
  exact congrArg _ (genJump_bubbles (genReady_lt h) ..)

theorem execGjalr_eq {s : State} {a : Reg} (h : genReady s [a] = true) (d : Reg) :
    execGjalr d a s = .next (if ((gReg (curG s) a).setWidth 48).toNat % 4 = 0 then
        modCurG s fun g => { gSet g d (((curG s).pc + 4).setWidth 64) with pc := (gReg (curG s) a).setWidth 48, readyAt := s.now + 1 + 3 }
      else genFault s 0x060 0 0 0) := by
  rw [execGjalr, genIssue_ready _ h]
  exact congrArg _ (genJump_bubbles (genReady_lt h) ..)

/-! ### Compares and prepared branches (R110, R111) -/

theorem cond64_eq (cc : Nat) (x y : W64) : cond64 cc x y = match cc with
    | 0 => x == y | 1 => x != y
    | 2 => decide (x.toInt < y.toInt) | 3 => decide (y.toInt ≤ x.toInt)
    | 4 => decide (x.toNat < y.toNat) | 5 => decide (y.toNat ≤ x.toNat)
    | 6 => x &&& y != 0 | _ => x &&& y == 0 := by
  match cc with
  | 0 | 1 | 2 | 4 | 6 => rfl
  | 3 => exact (decide_not.symm.trans (decide_eq_decide.2 Int.not_lt) : (!decide (x.toInt < y.toInt)) = _)
  | 5 => exact (decide_not.symm.trans (decide_eq_decide.2 Nat.not_lt) : (!decide (x.toNat < y.toNat)) = _)
  | n + 7 => rfl

/-- A GPREP whose fetch answers a word goes on from the state in which it is cached. -/
theorem genPrep_fetched {s u : State} {rs : List Reg} {k : BitVec 4} {target : GenCtx → BitVec 48} {w : Nat} (h : genReady s rs = true)
    (hf : fetchBytes (modCurG s fun g => setTarget g k s.now (target (curG s))) s.cur.core (target (curG s)).toNat 4 false = (u, .inl w))
    (hg : GoesOn u 8) : genPrep s rs k target = .next (changed u 8 id) := by
  rw [genPrep, genIssue_ready _ h]
  dsimp only
  rw [prefetch, hf]
  exact congrArg _ (genDone_next hg)

/-- One whose fetch would fault goes on without it. -/
theorem genPrep_unfetched {s u : State} {rs : List Reg} {k : BitVec 4} {target : GenCtx → BitVec 48} {e : AErr} (h : genReady s rs = true)
    (hf : fetchBytes (modCurG s fun g => setTarget g k s.now (target (curG s))) s.cur.core (target (curG s)).toNat 4 false = (u, .inr e))
    (hg : GoesOn s 8) : genPrep s rs k target = .next (changed (modCurG s fun g => setTarget g k s.now (target (curG s))) 8 id) := by
  rw [genPrep, genIssue_ready _ h]
  dsimp only
  rw [prefetch, hf]
  refine congrArg _ (genDone_next ?_)
  rw [curG_modCurG _ (genReady_lt h), advance_pc (samePath_setTarget _ _ _ _)]
  exact hg

theorem execGcmp_eq {s : State} {a b : Reg} (h : genReady s [a, b] = true) (hg : GoesOn s 4) (k : BitVec 4) (cc : BitVec 3) :
    execGcmp k cc a b s = .next (changed s 4 fun g => setCond g k (cond64 cc.toNat (gReg g a) (gReg g b))) :=
  genPlain_next h (samePath_setCond _ _ _) hg

theorem execGcmpi_eq {s : State} {a : Reg} (h : genReady s [a] = true) (hg : GoesOn s 8) (k : BitVec 4) (cc : BitVec 3) (w2 : BitVec 32) :
    execGcmpi k cc a w2 s = .next (changed s 8 fun g => setCond g k (cond64 cc.toNat (gReg g a) (w2.signExtend 64))) :=
  genPlain_next h (samePath_setCond _ _ _) hg

/-- What GPREP answers, by what its fetch answers. -/
theorem genPrep_answers {s : State} {i : Instr} {rs : List Reg} {k : BitVec 4} {target : GenCtx → BitVec 48}
    {t : BitVec 48} (hi : exec i s = genPrep s rs k target) (h : genReady s rs = true) (ht : target (curG s) = t) (hg : GoesOn s 8)
    (p : State) (hp : p = modCurG s fun g => setTarget g k s.now t) :
    (∀ u w, fetchBytes p s.cur.core t.toNat 4 false = (u, .inl w) → GoesOn u 8 → exec i s = .next (changed u 8 id)) ∧
    (∀ u e, fetchBytes p s.cur.core t.toNat 4 false = (u, .inr e) → exec i s = .next (changed p 8 id)) := by
  subst ht hp
  exact ⟨fun u w hf hg => hi.trans (genPrep_fetched h hf hg), fun u e hf => hi.trans (genPrep_unfetched h hf hg)⟩

end Sys2Proof.Machine

open Sys2Proof Sys2Proof.Machine Sys2Proof.Claims

/-- Settles O1. -/
theorem generatorRegisterFile : Obligations.GeneratorRegisterFile := by
  unfold Obligations.GeneratorRegisterFile
  exact fun g d r v => ⟨gReg_zero g, gSet_zero g v, gReg_gSet g d r v, g_gSet_handler v⟩

namespace Sys2Proof.Machine

/-- A jump or a taken branch leaves every loop as it is. -/
theorem jump_keeps_loops {s : State} {o : Out} {pc : BitVec 48} {n : Nat} {f : GenCtx → GenCtx} (h : s.cur.core < 320)
    (hf : SamePath (curG s) (f (curG s))) (ho : o = .next (modCurG s fun g => { f g with pc := pc, readyAt := n })) :
    ∃ t, o = .next t ∧ (curG t).pc = pc ∧ (curG t).lp = (curG s).lp ∧ (curG t).nest = (curG s).nest := by
  obtain ⟨-, -, hnest, hlp⟩ := hf
  refine ⟨_, ho, ?_⟩
  rw [curG_modCurG _ h]
  exact ⟨rfl, hlp, hnest⟩

end Sys2Proof.Machine

/-- Settles O2, by what advancing does at the innermost loop, and what jumps change. -/
theorem loopEndCheck : Obligations.LoopEndCheck := by
  unfold Obligations.LoopEndCheck
  refine ⟨fun g len n rest hn hr => ⟨advance_handler len, advance_elsewhere len hn, fun hh hp hc => advance_leaves len hn hh hr hp hc,
    fun hh hp hc => advance_repeats len hn hh hp hc⟩, fun g len => advance_noLoop len, fun s k d a w2 hm => ?_⟩
  have h0 : genReady s [] = true := genReady_subset hm (List.nil_subset _)
  have hl := genReady_lt hm
  refine ⟨fun hcv htv => ⟨fun hc ha => ?_, fun hc ha => ?_⟩, fun ha => ?_, fun ha => ?_⟩
  · exact jump_keeps_loops (f := fun g => g) hl (.refl _) (genBranch_taken h0 hcv htv ha hc)
  · exact jump_keeps_loops (f := fun g => g) hl (.refl _) (genBranch_taken h0 hcv htv ha hc)
  · exact jump_keeps_loops (f := fun g => gSet g d _) hl (samePath_gSet _ _ _) ((execGjal_eq h0 d w2).trans (by rw [if_pos ha]))
  · exact jump_keeps_loops (f := fun g => gSet g d _) hl (samePath_gSet _ _ _) ((execGjalr_eq hm d).trans (by rw [if_pos ha]))

namespace Sys2Proof.Machine

theorem generatorComparesAndPrepares : GeneratorComparesAndPrepares := by
  intro s k cc a b w2 hk hm hg4 hg8 x test cond target
  have ha : genReady s [a] = true := genReady_subset hm (by simp)
  have htest (y : W64) : cond64 cc.toNat x y = test y := cond64_eq _ x y
  have hcond (y : W64) : advance (setCond (curG s) k (cond64 cc.toNat x y)) = advance (cond (curG s) (test y)) :=
    congrArg (fun c => advance (setCond (curG s) k c)) (htest y)
  refine ⟨?_, ?_, ?_, ?_⟩
  · exact (execGcmp_eq hm hg4 k cc).trans (congrArg _ (modCurG_congr (congrFun (hcond _) 4)))
  · exact (execGcmpi_eq ha hg8 k cc w2).trans (congrArg _ (modCurG_congr (congrFun (hcond _) 8)))
  · exact genPrep_answers (exec_gprepPc k w2 s) (genReady_subset hm (List.nil_subset _)) rfl hg8 _ rfl
  · exact genPrep_answers (exec_gprepReg k a w2 s) ha rfl hg8 _ rfl

theorem generatorBranches : GeneratorBranches := by
  intro s k hm hg st hcv htv ha late gone
  constructor
  · rw [exec_gbr, execGbr]
    split
    next hc => exact genBranch_taken hm hcv htv ha hc
    next hc => exact genBranch_untaken hm hcv htv hg hc
  · rw [exec_gbrf, execGbrf]
    split
    next hc => exact genBranch_untaken hm hcv htv hg (ne_of_eq_of_ne hc (by decide))
    next hc => exact genBranch_taken hm hcv htv ha (Bool.eq_false_iff.2 hc)

theorem generatorJumps : GeneratorJumps := by
  intro s d a w2 hm pc jump
  exact ⟨execGjal_eq (genReady_subset hm (List.nil_subset _)) d w2, execGjalr_eq hm d⟩

end Sys2Proof.Machine

/-- Settles O41: compares and GPREP, branches, and jumps. -/
theorem generatorControlFlow : Obligations.GeneratorControlFlow := by
  unfold Obligations.GeneratorControlFlow
  exact ⟨generatorComparesAndPrepares, generatorBranches, generatorJumps⟩

end

section
/-! O42, O43: hardware loops and their registers, step, compose and control registers. -/

namespace Sys2Proof.Machine

open Sys2Proof.Claims

/-! ### Instructions of the user program alone -/

/-- An instruction completes where its context, so changed, goes on. -/
theorem genDone_changed {s : State} {f : GenCtx → GenCtx} {len : Nat} (before : State) (h : s.cur.core < 320) (hg : GoesOnAs s len f) :
    genDone before (modCurG s f) len = changed s len f := by
  rw [genDone_next (by rw [curG_modCurG _ h]; exact hg), modCurG_modCurG _ _ h]; rfl

/-- A change off the path of a context leaves where it goes on. -/
theorem goesOnAs_samePath {s : State} {len : Nat} {f : GenCtx → GenCtx} (hp : SamePath (curG s) (f (curG s))) (hg : GoesOn s len) :
    GoesOnAs s len f := by
  unfold GoesOnAs
  rw [advance_pc hp]
  exact hg

/-- A bit of a word, as the model and the statements write it. -/
theorem bitAt_eq {w : Nat} (b : BitVec w) (i : Nat) : bitAt b i = b.getLsbD i := rfl

/-! ### Loops (R52, R113) -/

section
variable {s : State} {n : Nat} {count : BitVec 32} {start stop : BitVec 48} {setArch : Bool}

theorem startLoop_full (h : 4 ≤ (curG s).nest.length) : startLoop s n count start stop setArch = .next (genFault s 0x050 0 0 0) :=
  if_pos h

variable (h : (curG s).nest.length < 4)
include h

theorem startLoop_active (ha : (rd (curG s).lp n {}).active = true) :
    startLoop s n count start stop setArch = .next (genFault s 0x052 0 0 0) :=
  (if_neg (Nat.not_le.2 h)).trans (if_pos ha)

variable (ha : (rd (curG s).lp n {}).active = false)
include ha

theorem startLoop_reversed (hr : stop.toNat < start.toNat) : startLoop s n count start stop setArch = .next (genFault s 0x051 0 0 0) :=
  (if_neg (Nat.not_le.2 h)).trans ((if_neg (Bool.eq_false_iff.1 ha)).trans (if_pos hr))

variable (hr : start.toNat ≤ stop.toNat)
include hr

/-- The loop register that an instruction leaves when it meets no fault: the bounds it names or those that were there, and the latched
copy (R113). -/
def loopSet (l : Loop) (count : BitVec 32) (start stop : BitVec 48) (setArch act : Bool) : Loop :=
  { (if setArch then { l with start := start, stop := stop } else l) with count := count, active := act, lstart := start, lstop := stop }

omit h ha hr in
theorem loopSet_inactive {l : Loop} (ha : l.active = false) : loopSet l count start stop setArch false =
    { (if setArch then { l with start := start, stop := stop } else l) with count := count, lstart := start, lstop := stop } := by
  cases l
  subst ha
  cases setArch <;> rfl

/-- The context with that loop register. -/
def withLoop (n : Nat) (l : Loop) (count : BitVec 32) (start stop : BitVec 48) (setArch act : Bool) (g : GenCtx) : GenCtx :=
  { g with lp := wr g.lp n (loopSet l count start stop setArch act) }

/-- A loop of some iterations is entered as the innermost. -/
theorem startLoop_enters (hl : s.cur.core < 320) (hc : count ≠ 0)
    (hg : GoesOnAs s 8 fun g => { withLoop n (rd (curG s).lp n {}) count start stop setArch true g with nest := n :: g.nest }) :
    startLoop s n count start stop setArch =
      .next (changed s 8 fun g => { withLoop n (rd (curG s).lp n {}) count start stop setArch true g with nest := n :: g.nest }) := by
  rw [startLoop, if_neg (Nat.not_le.2 h), if_neg (Bool.eq_false_iff.1 ha), if_neg (Nat.not_lt.2 hr)]
  dsimp only
  rw [if_neg (fun hh => hc hh.1), if_neg hc]
  exact congrArg _ (genDone_changed _ hl hg)

/-- A loop of no iterations whose end is no code address faults. -/
theorem startLoop_misaligned (hc : count = 0) (hs : stop.toNat % 4 ≠ 0) :
    startLoop s n count start stop setArch = .next (genFault s 0x060 0 0 0) := by
  rw [startLoop, if_neg (Nat.not_le.2 h), if_neg (Bool.eq_false_iff.1 ha), if_neg (Nat.not_lt.2 hr)]
  exact if_pos ⟨hc, hs⟩

/-- The fetch at the end of a loop of no iterations, which tells the length of the instruction there. -/
def endFetch (s : State) (n : Nat) (count : BitVec 32) (start stop : BitVec 48) (setArch : Bool) : State × (Nat ⊕ AErr) :=
  fetchBytes (modCurG s (withLoop n (rd (curG s).lp n {}) count start stop setArch false)) s.cur.core stop.toNat 4 false

theorem startLoop_fetches (hc : count = 0) (hs : stop.toNat % 4 = 0) : startLoop s n count start stop setArch =
    match endFetch s n count start stop setArch with
    | (_, .inr e) => .next (genAErr s e)
    | (t, .inl w) => .next (genJump s t (stop + BitVec.ofNat 48 (genLength w))) := by
  rw [startLoop, if_neg (Nat.not_le.2 h), if_neg (Bool.eq_false_iff.1 ha), if_neg (Nat.not_lt.2 hr)]
  dsimp only
  rw [if_neg (fun hh => hh.2 hs), if_pos hc]
  unfold endFetch withLoop
  rw [loopSet_inactive ha, hc] <;> rfl

/-- A loop of no iterations goes on past the instruction at its end. -/
theorem startLoop_passes (hc : count = 0) (hs : stop.toNat % 4 = 0) {t : State} {w : Nat}
    (ht : endFetch s n count start stop setArch = (t, .inl w)) (hj : (stop + BitVec.ofNat 48 (genLength w)).toNat % 4 = 0) :
    startLoop s n count start stop setArch = .next (modCurG t fun g => { g with pc := stop + BitVec.ofNat 48 (genLength w) }) := by
  rw [startLoop_fetches h ha hr hc hs, ht]
  exact congrArg _ (genJump_next hj)

/-- One whose end cannot be fetched faults. -/
theorem startLoop_unread (hc : count = 0) (hs : stop.toNat % 4 = 0) {t : State} {e : AErr}
    (ht : endFetch s n count start stop setArch = (t, .inr e)) :
    startLoop s n count start stop setArch = .next (genFault s e.cause e.addr e.det0 e.det1) := by
  rw [startLoop_fetches h ha hr hc hs, ht]
  rfl

end

theorem generatorLoops : GeneratorLoops := by
  intro s n a w2 hm g l count starts
  obtain ⟨hready, hu⟩ := hm
  have hl := genReady_lt hready
  have hstarts {i : Instr} {start stop : BitVec 48} {arch : Bool} (hi : exec i s = startLoop s n.toNat count start stop arch) (l' : Loop)
      (hl' : l' = if arch then { l with start := start, stop := stop } else l) : starts i l' start stop := by
    subst hl'
    have hactive : (if arch then { l with start := start, stop := stop } else l).active = l.active := by cases arch <;> rfl
    exact ⟨fun hf => hi.trans (startLoop_full hf), fun hf ha => hi.trans (startLoop_active hf (hactive ▸ ha)),
      fun hf ha hr => hi.trans (startLoop_reversed hf (hactive ▸ ha) hr),
      fun hf ha hr hc hg => hi.trans (startLoop_enters hf (hactive ▸ ha) hr hl hc hg),
      fun hf ha hr hc => ⟨fun hs => hi.trans (startLoop_misaligned hf (hactive ▸ ha) hr hc hs),
        fun hs t w ht hj => hi.trans (startLoop_passes hf (hactive ▸ ha) hr hc hs ht hj),
        fun hs t e ht => hi.trans (startLoop_unread hf (hactive ▸ ha) hr hc hs ht)⟩⟩
  exact ⟨hstarts (arch := true) ((exec_gloop n a w2 s).trans (genIssue_user _ hready hu)) _ rfl,
    hstarts (arch := false) ((exec_gloopRe n a s).trans (genIssue_user _ hready hu)) _ rfl⟩


/-! ### Loop registers (R54, R114) -/

/-- GLPSET of a change that the context goes on after. -/
theorem execGlpset_changes {s : State} {n f : BitVec 2} {a : Reg} {change : GenCtx → GenCtx} (hm : GenUser s [a])
    (hf : ¬(f = 3 ∧ bitAt (gReg (curG s) a) 0 = true))
    (hc : change (curG s) =
      let g := curG s
      let v := gReg g a
      let l := rd g.lp n.toNat {}
      let put (l : Loop) : GenCtx := { g with lp := wr g.lp n.toNat l }
      if f = 0 then put { l with count := v.setWidth 32 }
      else if f = 1 then put { l with start := v.setWidth 48 }
      else if f = 2 then put { l with stop := v.setWidth 48 }
      else { put { l with active := false } with nest := g.nest.filter (· != n.toNat) })
    (hg : GoesOnAs s 4 change) : exec (.glpset n f a) s = .next (changed s 4 change) := by
  rw [exec_glpset, execGlpset, genIssue_user _ hm.1 hm.2]
  refine (if_neg hf).trans (congrArg _ ?_)
  rw [← genDone_changed s (genReady_lt hm.1) hg]
  exact congrArg (genDone s · 4) (modCurG_congr hc.symm)

theorem loopRegisters : LoopRegisters := by
  intro s d a n hm hg l v put sets
  have hget {f : BitVec 2} {x : W64} (hx : x = if f = 0 then zx l.count else if f = 1 then zx l.start else if f = 2 then zx l.stop
      else if l.active then 1 else 0) : exec (.glpget d n f) s = .next (wrote s d 4 x) := by
    rw [exec_glpget, execGlpget, genPlain_next (genReady_subset hm.1 (List.nil_subset _)) (samePath_gSet _ _ _) hg, hx]
    exact congrArg _ (modCurG_congr rfl)
  refine ⟨hget rfl, hget rfl, hget rfl, hget rfl, execGlpset_changes hm (fun h => absurd h.1 (by decide)) rfl,
    execGlpset_changes hm (fun h => absurd h.1 (by decide)) rfl,
    execGlpset_changes hm (fun h => absurd h.1 (by decide)) rfl, fun hv => execGlpset_changes hm (fun h => ?_) rfl, fun hv => ?_⟩
  · exact absurd h.2 (Bool.eq_false_iff.1 hv)
  · rw [exec_glpset, execGlpset, genIssue_user _ hm.1 hm.2]
    exact if_pos ⟨rfl, hv⟩

end Sys2Proof.Machine

open Sys2Proof Sys2Proof.Machine Sys2Proof.Claims

/-- Settles O42: loops that start, and loop registers read and written. -/
theorem generatorLoopControl : Obligations.GeneratorLoopControl := by
  unfold Obligations.GeneratorLoopControl
  exact ⟨generatorLoops, loopRegisters⟩

end

section
/-! O43: step, compose and control registers. -/

namespace Sys2Proof.Machine

open Sys2Proof.Claims

/-! ### Step and compose registers (R121, R123) -/

theorem composePending_eq_false {g : GenCtx} (h : ∀ l ∈ g.loads, l.dest ≠ .compose) : composePending g = false := by
  simpa [composePending] using h

/-- An instruction writes what it reads of the state to gD. -/
theorem genPlain_wrote {s : State} {rs : List Reg} {len : Nat} {d : Reg} {f : GenCtx → W64} {v : W64} (h : genReady s rs = true)
    (hg : GoesOn s len) (hv : f (curG s) = v) : genPlain s rs len (fun g => gSet g d (f g)) = .next (wrote s d len v) := by
  rw [genPlain_next h (samePath_gSet _ _ _) hg]
  subst hv
  exact congrArg _ (modCurG_congr rfl)

theorem stepRegs_taskOn {s : State} {n : Nat} {t : Task} (h : s.taskOn n = some t) : stepRegs s n = t.ms := by
  simp [stepRegs, h]

theorem stepAndComposeRegisters : StepAndComposeRegisters := by
  intro s d a n c idx t hm hg ht hc g bytes
  obtain ⟨hready, hu⟩ := hm
  have h0 : genReady s [] = true := genReady_subset hready (List.nil_subset _)
  have hpend := Bool.eq_false_iff.1 (composePending_eq_false hc)
  refine ⟨?_, ?_, ?_, ?_, fun hi => ?_, fun hi => ?_⟩
  · exact genPlain_wrote h0 hg (by rw [stepRegs_taskOn ht])
  · exact (if_neg hpend).trans (genPlain_next hready ⟨rfl, rfl, rfl, rfl⟩ hg)
  · exact (if_neg hpend).trans (genPlain_wrote h0 hg rfl)
  · exact genPlain_next h0 (.refl _) hg
  · refine (if_neg hpend).trans ((genIssue_user _ h0 hu).trans ((if_neg (Nat.not_le.2 hi)).trans (congrArg _ ?_)))
    exact genDone_changed (s := used s) _ (genReady_lt h0) (goesOnAs_samePath ⟨rfl, rfl, rfl, rfl⟩ hg)
  · exact (if_neg hpend).trans ((genIssue_user _ h0 hu).trans (if_pos hi))

/-! ### Control registers (R48, R136) -/

/-- A sum of powers of 2 has the bits of the powers that it holds. -/
theorem testBit_sum_pow (p : Nat → Bool) {n i : Nat} (h : i < n) :
    ((List.range n).map fun i => if p i then 2 ^ i else 0).sum.testBit i = p i := by
  have hs : ((List.range n).map fun i => if p i then 2 ^ i else 0).sum = digitSum 1 n fun i => (p i).toNat := by
    rw [← sum_digits]
    congr 2
    funext i
    cases p i <;> simp
  have hl := lane_digitSum (w := 1) (fun i => (p i).toNat) h
  rw [hs, Nat.testBit_eq_decide_div_mod_eq]
  simp only [lane, one_mul, pow_one] at hl
  rw [hl]
  cases p i <;> rfl

/-- It stays below the next power. -/
theorem sum_pow_lt (p : Nat → Bool) (n : Nat) : ((List.range n).map fun i => if p i then 2 ^ i else 0).sum < 2 ^ n := by
  induction n with
  | zero => simp
  | succ n ih =>
    rw [List.range_succ, List.map_append, List.sum_append, pow_succ]
    simp only [List.map_cons, List.map_nil, List.sum_cons, List.sum_nil, add_zero]
    split <;> omega

/-- MLT_FBSTAT: the valid bits of the feedback registers, and above them the overrun bits (R48). -/
theorem ctlRead_fbstat (s : State) (n : Nat) (g : GenCtx) : ctlRead s n g 5 =
    w64 (2 ^ 8 * ((List.range 8).map fun i => if (rd g.fb i {}).overrun then 2 ^ i else 0).sum +
      ((List.range 8).map fun i => if (rd g.fb i {}).valid then 2 ^ i else 0).sum) := by
  refine congrArg w64 ?_
  rw [List.sum_map_add, Nat.add_comm, ← List.sum_map_mul_left]
  congr 3
  funext i
  rw [mul_ite, ← pow_add, Nat.mul_zero]

/-- The bits of MLT_FBSTAT tell which feedback registers are valid and which have overrun. -/
theorem getLsbD_fbstat (s : State) (n : Nat) (g : GenCtx) :
    (∀ i, i < 8 → (ctlRead s n g 5).getLsbD i = (rd g.fb i {}).valid ∧ (ctlRead s n g 5).getLsbD (8 + i) = (rd g.fb i {}).overrun) ∧
      (ctlRead s n g 5).toNat < 2 ^ 16 := by
  have hv := sum_pow_lt (fun i => (rd g.fb i {}).valid) 8
  have ho := sum_pow_lt (fun i => (rd g.fb i {}).overrun) 8
  have hnat := congrArg BitVec.toNat (ctlRead_fbstat s n g)
  rw [w64, BitVec.toNat_ofNat, Nat.mod_eq_of_lt (by omega)] at hnat
  refine ⟨fun i hi => ?_, by omega⟩
  simp only [getLsbD_eq_testBit, hnat, Nat.testBit_two_pow_mul_add _ hv, if_pos hi, if_neg (Nat.not_lt.2 (Nat.le_add_right 8 i)),
    Nat.add_sub_cancel_left]
  exact ⟨testBit_sum_pow (fun i => (rd g.fb i {}).valid) hi, testBit_sum_pow (fun i => (rd g.fb i {}).overrun) hi⟩

/-- GCRR of a register that the context may read: its value goes to gD, and a read of MLT_FBSTAT clears the overrun bits. -/
theorem execGcrr_reads {s : State} {d : Reg} {n : BitVec 15} (h : genReady s [] = true) (hg : GoesOn s 4) (hn : n.toNat ≤ 7) :
    execGcrr d n s = .next (changed s 4 fun g =>
      gSet (if n.toNat = 5 then { g with fb := g.fb.map fun f => { f with overrun := false } } else g) d
        (ctlRead s s.cur.core (curG s) n.toNat)) := by
  have hex : ctlExists n.toNat = true := by simp [ctlExists, hn]
  have hp : SamePath (curG s) (if n.toNat = 5 then { curG s with fb := (curG s).fb.map fun f => { f with overrun := false } } else curG s) := by
    split <;> exact ⟨rfl, rfl, rfl, rfl⟩
  rw [execGcrr, genIssue_ready _ h]
  refine (if_neg (by simp [hex])).trans ((if_neg fun h => absurd h.1 (by omega)).trans (congrArg _ ?_))
  exact genDone_changed s (genReady_lt h) (goesOnAs_samePath (hp.trans (samePath_gSet _ _ _)) hg)

/-- GCRR of a number outside the table. -/
theorem execGcrr_absent {s : State} {d : Reg} {n : BitVec 15} (h : genReady s [] = true) (hn : ctlExists n.toNat = false) :
    execGcrr d n s = .next (genFault s 0x069 0 0 0) := by
  rw [execGcrr, genIssue_ready _ h]
  exact if_pos (by simp [hn])

/-- The user context may not read the firmware's share. -/
theorem execGcrr_share {s : State} {d : Reg} (h : genReady s [] = true) (hctx : s.cur.ctx = .user) :
    execGcrr d 0x10 s = .next (genFault s 0x068 0 0 0) := by
  rw [execGcrr, genIssue_ready _ h]
  exact (if_neg (by decide)).trans (if_pos ⟨rfl, hctx⟩)

theorem ctlExists_eq_false {n : BitVec 15} (h7 : 7 < n.toNat) (h10 : n ≠ 0x10) : ctlExists n.toNat = false := by
  have : n.toNat ≠ 0x10 := fun e => h10 (BitVec.eq_of_toNat_eq e)
  simp [ctlExists, h7, this]

section
variable {s : State} {a : Reg} (h : genReady s [a] = true)
include h

/-- GCRW of a number outside the table. -/
theorem execGcrw_absent {n : BitVec 15} (hn : ctlExists n.toNat = false) : execGcrw n a s = .next (genFault s 0x069 0 0 0) := by
  rw [execGcrw, genIssue_ready _ h]
  exact if_pos (by simp [hn])

/-- GCRW of a register that the user context may not write. -/
theorem execGcrw_privileged {n : BitVec 15} (hctx : s.cur.ctx = .user) (hn : ctlExists n.toNat = true)
    (hw : ctlWritable n.toNat = false) : execGcrw n a s = .next (genFault s 0x068 0 0 0) := by
  rw [execGcrw, genIssue_ready _ h]
  exact (if_neg (by simp [hn])).trans (if_pos ⟨hctx, by simp [hw]⟩)

theorem execGcrw_hbase : execGcrw 1 a s = if (gReg (curG s) a).toNat % 4 ≠ 0 then .next (genFault s 0x060 0 0 0)
    else .next (genDone s (modCurG s fun g => { g with hbase := (gReg (curG s) a).setWidth 48 }) 4) := by
  rw [execGcrw, genIssue_ready _ h]
  exact (if_neg (by decide)).trans (if_neg fun h => absurd h.2 (by decide))

theorem execGcrw_tmo : execGcrw 2 a s = .next (genDone s (modCurG s fun g => { g with tmo := gReg (curG s) a }) 4) := by
  rw [execGcrw, genIssue_ready _ h]
  exact (if_neg (by decide)).trans (if_neg fun h => absurd h.2 (by decide))

end

theorem controlRegisters : ControlRegisters := by
  intro s d a n hm hg hctx g v fails reads
  have h0 : genReady s [] = true := genReady_subset hm (List.nil_subset _)
  have hdone {f : GenCtx → GenCtx} (hp : SamePath (curG s) (f (curG s))) : genDone s (modCurG s f) 4 = changed s 4 f :=
    genDone_changed s (genReady_lt hm) (goesOnAs_samePath hp hg)
  have hreads {n : BitVec 15} (hn : n.toNat ≤ 7) (h5 : n.toNat ≠ 5) {v : W64} (hv : ctlRead s s.cur.core g n.toNat = v) : reads n v := by
    refine (execGcrr_reads h0 hg hn).trans ?_
    simp only [if_neg h5]
    rw [show ctlRead s s.cur.core (curG s) n.toNat = v from hv]
    rfl
  refine ⟨hreads (by decide) (by decide) rfl, hreads (by decide) (by decide) rfl, hreads (by decide) (by decide) rfl,
    hreads (by decide) (by decide) rfl, hreads (by decide) (by decide) rfl, ⟨ctlRead s s.cur.core g 5, ?fbstat⟩,
    hreads (by decide) (by decide) rfl, hreads (by decide) (by decide) rfl, ?share, fun h7 h10 => ⟨?_, ?_⟩, fun hn => ?privileged,
    fun hv => ?_, fun hv => ?_, ?_⟩
  case fbstat =>
    obtain ⟨hbits, hlt⟩ := getLsbD_fbstat s s.cur.core g
    exact ⟨hbits, hlt, execGcrr_reads (n := 5) h0 hg (by decide)⟩
  case share => exact execGcrr_share h0 hctx
  case privileged =>
    refine execGcrw_privileged hm hctx ?_ ?_ <;> rcases hn with rfl | rfl | rfl | rfl | rfl | rfl | rfl <;> rfl
  · exact execGcrr_absent h0 (ctlExists_eq_false h7 h10)
  · exact execGcrw_absent hm (ctlExists_eq_false h7 h10)
  · refine (execGcrw_hbase hm).trans ((if_neg (not_not.2 hv)).trans (congrArg _ (hdone ?_)))
    exact ⟨rfl, rfl, rfl, rfl⟩
  · exact (execGcrw_hbase hm).trans (if_pos hv)
  · refine (execGcrw_tmo hm).trans (congrArg _ (hdone ?_))
    exact ⟨rfl, rfl, rfl, rfl⟩

end Sys2Proof.Machine

open Sys2Proof Sys2Proof.Machine Sys2Proof.Claims

/-- Settles O43: step and compose registers, and control registers. -/
theorem generatorSpecialRegisters : Obligations.GeneratorSpecialRegisters := by
  unfold Obligations.GeneratorSpecialRegisters
  exact ⟨stepAndComposeRegisters, controlRegisters⟩

end

section
/-! O45: the emit instructions. -/

namespace Sys2Proof.Machine

open Sys2Proof.Claims

/-! ### Changes of a context, on any core -/

/-- A core that does not exist is not replaced. -/
theorem setCore_ge {s : State} {n : Nat} (h : 320 ≤ n) (c : Core) : s.setCore n c = s := by
  have : wr s.cores n c = s.cores := dif_neg (Nat.not_lt.2 h)
  rw [State.setCore, this]

/-- Two changes of the executing context are one, whatever core it names. -/
theorem modCurG_fuse (s : State) (f g : GenCtx → GenCtx) : modCurG (modCurG s f) g = modCurG s fun c => g (f c) := by
  by_cases h : s.cur.core < 320
  · exact modCurG_modCurG f g h
  · have hs (t : State) (ht : t.cur = s.cur) (k : GenCtx → GenCtx) : modCurG t k = t :=
      setCore_ge (by rw [ht]; exact Nat.not_lt.1 h) _
    rw [hs s rfl f, hs s rfl g, hs s rfl]

/-- A change that keeps the path of every context keeps that of the executing one. -/
theorem samePath_modCurG (s : State) {f : GenCtx → GenCtx} (hf : ∀ g, SamePath g (f g)) : SamePath (curG s) (curG (modCurG s f)) := by
  by_cases h : s.cur.core < 320
  · rw [curG_modCurG f h]
    exact hf _
  · rw [show modCurG s f = s from setCore_ge (Nat.not_lt.1 h) _]
    exact .refl _

/-- What a change does off the value of the executing context does not matter. -/
theorem changed_congr {s : State} {len : Nat} {f g : GenCtx → GenCtx} (h : f (curG s) = g (curG s)) : changed s len f = changed s len g :=
  modCurG_congr (congrArg (advance · len) h)

/-- A change made before an instruction completes is part of what it changes. -/
theorem changed_modCurG (s : State) (len : Nat) (f g : GenCtx → GenCtx) : changed (modCurG s f) len g = changed s len fun c => g (f c) :=
  modCurG_fuse s f _

/-- Changes off the path of a context leave where it goes on. -/
theorem goesOn_modCurG {s : State} {len : Nat} {f : GenCtx → GenCtx} (hf : ∀ g, SamePath g (f g)) (hg : GoesOn s len) :
    GoesOn (modCurG s f) len := by
  unfold GoesOn
  rw [advance_pc (samePath_modCurG s hf)]
  exact hg

/-- A wait that ends completes its instruction, if its context then goes on. -/
theorem endWait_changed (before : State) {s : State} {len : Nat} (hg : GoesOn s len) :
    endWait before s len = changed s len fun g => { g with wait := none } := by
  have hnone : GoesOn (modCurG s fun g => { g with wait := none }) len := goesOn_modCurG (fun _ => ⟨rfl, rfl, rfl, rfl⟩) hg
  rw [endWait, genDone_next hnone, modCurG_fuse]
  rfl

/-- The same, of an instruction that has changed its context off its path. -/
theorem endWait_modCurG (before : State) {s : State} {len : Nat} {f : GenCtx → GenCtx} (hg : GoesOn s len) (hf : ∀ g, SamePath g (f g)) :
    endWait before (modCurG s f) len = changed s len fun g => { f g with wait := none } := by
  rw [endWait_changed before (goesOn_modCurG hf hg), changed_modCurG]

/-- A context that may issue waits for nothing. -/
theorem wait_of_genReady {s : State} {rs : List Reg} (h : genReady s rs = true) : (curG s).wait = none := by
  simp only [genReady, Bool.and_eq_true, Option.isNone_iff_eq_none] at h
  exact h.1.1.2

/-! ### The emit queue (R55) -/

section
variable {s : State} (h : s.cur.core < 320)
include h

/-- A change of the executing engine that leaves its generator context leaves the executing context. -/
theorem curG_modE {f : Engine → Engine} (hf : ∀ e, (f e).user = e.user) : curG (s.modE s.cur.core f) = curG s := by
  unfold curG State.modE
  rw [cur_modCore, core_modCore_same _ _ _ h]
  cases s.cur.ctx
  · exact hf _
  · rfl

theorem curG_queued (e : EmitEntry) : curG (queued s e) = curG s := curG_modE h fun _ => rfl

theorem goesOn_queued {len : Nat} (e : EmitEntry) (hg : GoesOn s len) : GoesOn (queued s e) len := by
  unfold GoesOn
  rw [curG_queued h]
  exact hg

/-- A change of the executing context leaves its core's emit queue. -/
theorem emitQ_modCurG (f : GenCtx → GenCtx) : ((modCurG s f).core s.cur.core).e.emitQ = (s.core s.cur.core).e.emitQ := by
  unfold modCurG State.modG
  rw [core_modCore_same _ _ _ h]
  cases s.cur.ctx <;> rfl

theorem emitRoom_modCurG (f : GenCtx → GenCtx) : emitRoom (modCurG s f) = emitRoom s := by
  unfold emitRoom
  rw [cur_modCurG, emitQ_modCurG h]

/-- An entry queued and a change of the executing context, in either order. -/
theorem queued_modCurG (f : GenCtx → GenCtx) (e : EmitEntry) : queued (modCurG s f) e = modCurG (queued s e) f := by
  unfold queued modCurG State.modE State.modG
  simp only [cur_modCore]
  rw [modCore_modCore _ _ _ _ h, modCore_modCore _ _ _ _ h]
  cases s.cur.ctx <;> rfl

end

theorem emitRoom_iff (s : State) : emitRoom s = true ↔ ¬64 ≤ (s.core s.cur.core).e.emitQ.length := by
  simp [emitRoom]

/-- Placing an entry queues it and numbers the next. -/
theorem placeEntry_eq (s : State) (lit : Option (BitVec 384)) (index : BitVec 16) (mask : BitVec 4) (vals : Vector W64 4) :
    placeEntry s lit index mask vals = modCurG (queued s (entry s lit index mask vals)) numbered := rfl

/-- An instruction that places one entry completes. -/
theorem genDone_placeEntry {s : State} (h : s.cur.core < 320) (hg : GoesOn s 4) (lit : Option (BitVec 384)) (index : BitVec 16)
    (mask : BitVec 4) (vals : Vector W64 4) :
    genDone s (placeEntry s lit index mask vals) 4 = changed (queued s (entry s lit index mask vals)) 4 numbered :=
  genDone_changed (s := queued s _) _ h (goesOnAs_samePath ⟨rfl, rfl, rfl, rfl⟩ (goesOn_queued h _ hg))

/-! ### Patch values (R58) -/

theorem lanesBelow_eq (mask : BitVec 4) (i : Nat) : ((List.range i).filter (bitAt mask)).length = lanesBelow mask i :=
  List.countP_eq_length_filter.symm

theorem patchVals_eq (g : GenCtx) (mask : BitVec 4) (gp : Reg) : patchVals g mask gp = patches g mask gp := by
  unfold patchVals patches
  simp only [lanesBelow_eq]
  rfl

theorem patchBeyond_iff (mask : BitVec 4) (gp : Reg) : patchBeyond mask gp = true ↔ ¬gp.toNat + lanesBelow mask 4 ≤ 32 := by
  simp [patchBeyond, lanesBelow_eq]

/-! ### EMIT, EMITP and EMITL (R119) -/

/-- Six words side by side are the sum of their places. -/
theorem toNat_append_six {w : Nat} (c : Nat → BitVec w) :
    (c 5 ++ c 4 ++ c 3 ++ c 2 ++ c 1 ++ c 0).toNat = ((List.range 6).map fun i => (c i).toNat * 2 ^ (w * i)).sum := by
  have happ {m n : Nat} (x : BitVec m) (y : BitVec n) : (x ++ y).toNat = x.toNat * 2 ^ n + y.toNat := by
    rw [BitVec.toNat_append, ← Nat.shiftLeft_add_eq_or_of_lt y.isLt, Nat.shiftLeft_eq]
  simp only [happ, List.range_succ, List.range_zero, List.nil_append, List.cons_append, List.map_cons, List.map_nil, List.sum_cons,
    List.sum_nil]
  ring

theorem literal_eq (c : Nat → W64) :
    BitVec.ofNat 384 ((List.range 6).map fun i => (c i).toNat * 2 ^ (64 * i)).sum = c 5 ++ c 4 ++ c 3 ++ c 2 ++ c 1 ++ c 0 := by
  rw [← toNat_append_six]
  exact (BitVec.ofNat_toNat 384 _).trans (BitVec.setWidth_eq _)

theorem emitOneEntry : EmitOneEntry := by
  intro s idx mask gp hm hg g full fits none4 lit places
  obtain ⟨hready, hu⟩ := hm
  have h0 : genReady s [] = true := genReady_subset hready (List.nil_subset _)
  have hl := genReady_lt hready
  have hplaces {i : Instr} {lit : Option (BitVec 384)} {index : BitVec 16} {mask : BitVec 4} {vals : Vector W64 4}
      (hi : exec i s = if !emitRoom s then .next s else .next (genDone s (placeEntry s lit index mask vals) 4)) :
      places i (entry s lit index mask vals) := by
    have hroom : (!emitRoom s) = true ↔ full := by rw [Bool.not_eq_true', ← Bool.not_eq_true, emitRoom_iff, not_not]
    exact ⟨fun hf => hi.trans (if_pos (hroom.2 hf)),
      fun hf => hi.trans ((if_neg (mt hroom.1 hf)).trans (congrArg _ (genDone_placeEntry hl hg _ _ _ _)))⟩
  have hpatch (hc : ∀ l ∈ g.loads, l.dest ≠ .compose) : ¬composePending (curG s) = true := Bool.eq_false_iff.1 (composePending_eq_false hc)
  have hin (hf : fits) : ¬patchBeyond mask gp = true := fun h => (patchBeyond_iff mask gp).1 h hf
  have hlit : BitVec.ofNat 384 ((List.range 6).map fun i => (rd g.c i 0).toNat * 2 ^ (64 * i)).sum = lit :=
    literal_eq fun i => rd g.c i 0
  refine ⟨hplaces ?_, fun hf => ?_, fun hf hc => ?_, fun hf => ?_, fun hf hc => ?_⟩
  · rw [exec_emit, execEmit, genIssue_user _ h0 hu]
  · rw [← patchVals_eq]
    refine hplaces ?_
    rw [exec_emitp, execEmitp, genIssue_user _ hready hu, if_neg (hin hf)]
  · rw [← patchVals_eq, ← hlit]
    refine hplaces ?_
    rw [exec_emitl, execEmitl, if_neg (hpatch hc), genIssue_user _ hready hu]
    exact if_neg (hin hf)
  · rw [exec_emitp, execEmitp, genIssue_user _ hready hu, if_pos ((patchBeyond_iff mask gp).2 hf)]
  · rw [exec_emitl, execEmitl, if_neg (hpatch hc), genIssue_user _ hready hu]
    exact if_pos ((patchBeyond_iff mask gp).2 hf)

end Sys2Proof.Machine
end

section
/-! O45: EMITN and EMITS. -/

namespace Sys2Proof.Machine

open Sys2Proof.Claims

/-! ### EMITN (R119) -/

/-- The entry that an EMITN places next. -/
def entryAfter (s : State) (idx : BitVec 16) (mask : BitVec 4) (gp : Reg) : EmitEntry :=
  entry s none (idx + BitVec.ofNat 16 (curG s).eprog) mask (patches (curG s) mask gp)

section
variable {s : State} {idx : BitVec 16} {mask : BitVec 4} {gp : Reg} {n : BitVec 15}

theorem emitnStep_done (hn : n.toNat ≤ (curG s).eprog) (hg : GoesOn s 8) :
    emitnStep idx mask gp n s = changed s 8 fun g => { g with eprog := 0, wait := none } := by
  rw [emitnStep, if_pos hn]
  exact endWait_modCurG s hg fun _ => ⟨rfl, rfl, rfl, rfl⟩

theorem emitnStep_full (hn : (curG s).eprog < n.toNat) (hr : emitRoom s = false) : emitnStep idx mask gp n s = s := by
  rw [emitnStep, if_neg (Nat.not_le.2 hn)]
  exact if_pos (by rw [hr]; rfl)

variable (hr : emitRoom s = true) (h : s.cur.core < 320)
include hr h

theorem emitnStep_more (hn : (curG s).eprog + 1 < n.toNat) :
    emitnStep idx mask gp n s = modCurG (queued s (entryAfter s idx mask gp)) fun g =>
      { numbered g with eprog := g.eprog + 1, wait := g.wait.map fun w => { w with note := s.now + 1 } } := by
  rw [emitnStep, if_neg (by omega)]
  refine (if_neg (by simp [hr])).trans ((if_neg (by omega)).trans ?_)
  rw [patchVals_eq, placeEntry_eq, entryPlaced, modCurG_fuse, modCurG_fuse]
  refine modCurG_congr ?_
  rw [show curG (queued s _) = curG s from curG_queued h _]
  rfl

theorem emitnStep_last (hn : (curG s).eprog + 1 = n.toNat) (hg : GoesOn s 8) :
    emitnStep idx mask gp n s =
      changed (queued s (entryAfter s idx mask gp)) 8 fun g => { numbered g with eprog := 0, wait := none } := by
  rw [emitnStep, if_neg (by omega)]
  refine (if_neg (by simp [hr])).trans ((if_pos hn).trans ?_)
  rw [patchVals_eq, placeEntry_eq, modCurG_fuse, modCurG_fuse]
  exact endWait_modCurG s (goesOn_queued h (entryAfter s idx mask gp) hg) fun _ => ⟨rfl, rfl, rfl, rfl⟩

end

/-- The wait that a multi-entry emit begins. -/
theorem startEmit_eq (s : State) (i : Instr) : startEmit s i = held s i := rfl

/-- The executing context as it waits in an instruction that has just issued. -/
theorem curG_held {s : State} (h : s.cur.core < 320) (i : Instr) :
    curG (held s i) = { curG s with wait := some { instr := i, since := s.now, timeout := BitVec.allOnes 64, mark := s.fresh } } :=
  curG_modCurG (s := used s) _ h

theorem goesOn_held {s : State} {len : Nat} (i : Instr) (hg : GoesOn s len) : GoesOn (held s i) len :=
  goesOn_modCurG (s := used s) (fun _ => ⟨rfl, rfl, rfl, rfl⟩) hg

theorem emitRoom_held {s : State} (h : s.cur.core < 320) (i : Instr) : emitRoom (held s i) = emitRoom s :=
  emitRoom_modCurG (s := used s) h _

/-- What an instruction changes as it completes in its issue cycle, in terms of the context that had not begun to wait. -/
theorem changed_held {s : State} (h : s.cur.core < 320) {i : Instr} (len : Nat) {f k : GenCtx → GenCtx}
    (hf : f (curG (held s i)) = k (curG s)) : changed (held s i) len f = changed (used s) len k := by
  rw [curG_held h] at hf
  rw [held, waiting, changed_modCurG]
  exact changed_congr hf

/-- The same of one that has placed an entry. -/
theorem changed_queued_held {s : State} (h : s.cur.core < 320) {i : Instr} (e : EmitEntry) (len : Nat) {f k : GenCtx → GenCtx}
    (hf : f (curG (held s i)) = k (curG s)) : changed (queued (held s i) e) len f = changed (queued (used s) e) len k := by
  rw [curG_held h] at hf
  rw [held, waiting, queued_modCurG (s := used s) h, changed_modCurG]
  refine changed_congr ?_
  rw [curG_queued (s := used s) h]
  exact hf

theorem emitManyEntries : EmitManyEntries := by
  intro s idx mask gp n hm hg g i room next fits inRange
  obtain ⟨hready, hu⟩ := hm
  have hl := genReady_lt hready
  have hwait : g.wait = none := wait_of_genReady hready
  have hexec : exec i s = if n ≠ 0 ∧ 0xFFFE < idx.toNat + n.toNat - 1 then .next (genFault s 0x05A 0 0 0)
      else if patchBeyond mask gp then .next (genFault s 0x059 0 0 0) else .next (emitnStep idx mask gp n (held s i)) := by
    rw [exec_emitn, execEmitn, genIssue_user _ hready hu]; rfl
  have hrange : (n ≠ 0 ∧ 0xFFFE < idx.toNat + n.toNat - 1) ↔ ¬inRange := by
    simp only [inRange, not_or, ne_eq]
    refine and_congr_right fun hn => ?_
    have : 0 < n.toNat := Nat.pos_of_ne_zero fun h => hn (BitVec.eq_of_toNat_eq h)
    omega
  have hstep (hr : inRange) (hf : fits) : exec i s = .next (emitnStep idx mask gp n (held s i)) :=
    hexec.trans ((if_neg fun h => hrange.1 h hr).trans (if_neg fun h => (patchBeyond_iff mask gp).1 h hf))
  have hroom : emitRoom (held s i) = true ↔ room := by
    rw [emitRoom_held hl, emitRoom_iff, Nat.not_le]
  have hheld : curG (held s i) = _ := curG_held hl i
  have hprog : (curG (held s i)).eprog = g.eprog := by rw [hheld]
  have hnext : entryAfter (held s i) idx mask gp = next := by
    unfold entryAfter entry
    rw [hheld]
    rfl
  refine ⟨fun hr => hexec.trans (if_pos (hrange.2 hr)), fun hr hf => ?_, fun hr hf hn => ?_, fun hr hf hn hfull => ?_,
    fun hr hf hn hfree => ?_, fun hr hf hn hfree => ?_⟩
  · exact hexec.trans ((if_neg fun h => hrange.1 h hr).trans (if_pos ((patchBeyond_iff mask gp).2 hf)))
  · rw [hstep hr hf, emitnStep_done (hprog ▸ hn) (goesOn_held i hg)]
    refine congrArg _ (changed_held hl 8 ?_)
    rw [hheld]
    exact congrArg (fun w => { g with eprog := 0, wait := w }) hwait.symm
  · rw [hstep hr hf, emitnStep_full (hprog ▸ hn) (Bool.eq_false_iff.2 (mt hroom.1 hfull))]
  · rw [hstep hr hf, emitnStep_last (hroom.2 hfree) hl (hprog ▸ hn) (goesOn_held i hg), hnext]
    refine congrArg _ (changed_queued_held hl _ 8 ?_)
    rw [hheld]
    exact congrArg (fun w => { numbered g with eprog := 0, wait := w }) hwait.symm
  · rw [hstep hr hf, emitnStep_more (hroom.2 hfree) hl (hprog ▸ hn), hnext]
    rfl

theorem emitNextEntry : EmitNextEntry := by
  intro s idx mask gp n core ctx w hruns hw hi hnote hfree s0 hs0 g next
  have hl : s0.cur.core < 320 := by rw [hs0]; exact coreRuns_lt hruns
  have hroom : emitRoom s0 = true := by rw [hs0]; exact decide_eq_true hfree
  have hexec : exec (.emitnEntryPlace core ctx) s = .next (emitnStep idx mask gp n s0) := by
    rw [exec_emitnEntryPlace, execEmitnEntryPlace, hs0]
    simp only [hruns, hw, hi, if_neg (Nat.not_lt.2 hnote), Bool.not_true, Bool.false_eq_true, if_false]
  have hnow : s0.now = s.now := by rw [hs0]; rfl
  refine ⟨fun hn => ?_, fun hn hg => ?_⟩
  · rw [hexec, emitnStep_more hroom hl hn, hnow]
    rfl
  · rw [hexec, emitnStep_last hroom hl hn hg]
    rfl

/-! ### EMITS (R120) -/

/-- The state in which an EMITS has placed an item of a length: gA is past it and gB one less. -/
def itemPlaced (a b : Reg) (s : State) (e : EmitEntry) (len : Nat) : State :=
  modCurG (queued s e) fun g => let g := gSet (numbered g) a (gReg g a + BitVec.ofNat 64 len); gSet g b (gReg g b - 1)

/-- What an EMITS does after an item: it completes when gB is 0, and otherwise goes on in the next cycle. -/
def afterItem (b : Reg) (t : State) : State :=
  if gReg (curG t) b = 0 then changed t 4 fun g => { g with wait := none } else entryPlaced t

theorem itemPlaced_eq (a b : Reg) (s : State) (lit : Option (BitVec 384)) (index : BitVec 16) (mask : BitVec 4) (vals : Vector W64 4)
    (len : Nat) : (modCurG (placeEntry s lit index mask vals) fun g => let g := gSet g a (gReg g a + w64 len); gSet g b (gReg g b - 1)) =
      itemPlaced a b s (entry s lit index mask vals) len := by
  rw [placeEntry_eq, modCurG_fuse]
  rfl

section
variable {s : State} {a b : Reg}

theorem emitsStep_done (hb : gReg (curG s) b = 0) (hg : GoesOn s 4) : emitsStep a b s = changed s 4 fun g => { g with wait := none } := by
  rw [emitsStep, if_pos hb, endWait_changed s hg]

variable (hb : gReg (curG s) b ≠ 0)
include hb

theorem emitsStep_full (hr : emitRoom s = false) : emitsStep a b s = s := by
  rw [emitsStep, if_neg hb]
  exact if_pos (by simp [hr])

variable (hr : emitRoom s = true)
include hr

/-- An item that is an index places an entry of it. -/
theorem emitsStep_index {s1 : State} {h : List Byte} (hs : streamRead s (gReg (curG s) a) 2 = (s1, .inl h)) (hh : ofBytes h ≠ 0xFFFF)
    (hg : GoesOn (itemPlaced a b s1 (entry s1 none (BitVec.ofNat 16 (ofBytes h)) 0 (Vector.replicate 4 0)) 2) 4) :
    emitsStep a b s = afterItem b (itemPlaced a b s1 (entry s1 none (BitVec.ofNat 16 (ofBytes h)) 0 (Vector.replicate 4 0)) 2) := by
  rw [emitsStep, if_neg hb]
  refine (if_neg (by simp [hr])).trans ?_
  simp only [hs, if_neg hh, itemPlaced_eq, endWait_changed _ hg]
  rfl

/-- One that is a literal places an entry of its bundle. -/
theorem emitsStep_literal {s1 s2 : State} {h l : List Byte} (hs : streamRead s (gReg (curG s) a) 2 = (s1, .inl h)) (hh : ofBytes h = 0xFFFF)
    (hl : streamRead s1 (gReg (curG s) a + 2) 48 = (s2, .inl l))
    (hg : GoesOn (itemPlaced a b s2 (entry s2 (some (BitVec.ofNat 384 (ofBytes l))) 0xFFFF 0 (Vector.replicate 4 0)) 50) 4) :
    emitsStep a b s =
      afterItem b (itemPlaced a b s2 (entry s2 (some (BitVec.ofNat 384 (ofBytes l))) 0xFFFF 0 (Vector.replicate 4 0)) 50) := by
  rw [emitsStep, if_neg hb]
  refine (if_neg (by simp [hr])).trans ?_
  simp only [hs, if_pos hh, hl, itemPlaced_eq, endWait_changed _ hg]
  rfl

end

theorem emitStream : EmitStream := by
  intro s a b hm i s0 va none4 placed ends rests
  obtain ⟨hready, hu⟩ := hm
  have hl := genReady_lt hready
  have hwait : (curG s).wait = none := wait_of_genReady hready
  have hodd : gReg (curG s) a &&& 1 ≠ 0 ↔ va.getLsbD 0 = true := by
    rw [show gReg (curG s) a &&& 1 = _ from BitVec.and_one_eq_setWidth_ofBool_getLsbD]
    cases (gReg (curG s) a).getLsbD 0 <;> decide
  have hexec : exec i s = if gReg (curG s) a &&& 1 ≠ 0 then .next (genFault s 0x061 0 0 0) else .next (emitsStep a b s0) := by
    rw [exec_emits, execEmits, genIssue_user _ hready hu]; rfl
  have hstep (ha : va.getLsbD 0 = false) : exec i s = .next (emitsStep a b s0) :=
    hexec.trans (if_neg (mt hodd.1 (Bool.eq_false_iff.1 ha)))
  have hheld : curG s0 = _ := curG_held hl i
  have hreg (r : Reg) : gReg (curG s0) r = gReg (curG s) r := by rw [hheld]; rfl
  have hroom : emitRoom s0 = true ↔ (s.core s.cur.core).e.emitQ.length < 64 := by
    rw [emitRoom_held hl, emitRoom_iff, Nat.not_le]
  have hva : gReg (curG s0) a = va := hreg a
  refine ⟨fun ha => hexec.trans (if_pos (hodd.2 ha)), fun ha hb hg => ?_, fun ha hb hfull => ?_, fun ha hb hfree s1 h hs => ⟨?_, ?_⟩⟩
  · rw [hstep ha, emitsStep_done ((hreg b).trans hb) (goesOn_held i hg)]
    refine congrArg _ (changed_held hl 4 ?_)
    rw [hheld]
    exact congrArg (fun w => { curG s with wait := w }) hwait.symm
  · rw [hstep ha, emitsStep_full (hreg b ▸ hb) (Bool.eq_false_iff.2 fun h => Nat.not_lt.2 hfull (hroom.1 h))]
  · rintro hh t rfl hg
    rw [hstep ha, emitsStep_index (hreg b ▸ hb) (hroom.2 hfree) (hva.symm ▸ hs) hh hg]
    rfl
  · rintro hh s2 l hlit t rfl hg
    rw [hstep ha, emitsStep_literal (hreg b ▸ hb) (hroom.2 hfree) (hva.symm ▸ hs) hh (hva.symm ▸ hlit) hg]
    rfl

end Sys2Proof.Machine

open Sys2Proof Sys2Proof.Machine Sys2Proof.Claims

/-- Settles O45: EMIT, EMITP and EMITL, EMITN at issue and after, and EMITS. -/
theorem emission : Obligations.Emission := by
  unfold Obligations.Emission
  exact ⟨emitOneEntry, emitManyEntries, emitNextEntry, emitStream⟩

end

section
/-! O46: GFB, JOIN and GSYNC, at issue and after. -/

namespace Sys2Proof.Machine

open Sys2Proof.Claims

/-! ### A context that begins to wait (R50, R104) -/

/-- The context of a waiting instruction of steer register `k`, just issued. -/
def begun (k : BitVec 4) (w : GenWait) (g : GenCtx) : GenCtx := { clearCond g k with wait := some w }

theorem samePath_begun (k : BitVec 4) (w : GenWait) (g : GenCtx) : SamePath g (begun k w g) := ⟨rfl, rfl, rfl, rfl⟩

/-- A condition written as the wait ends is all that the wait leaves. -/
theorem setCond_begun {k : BitVec 4} (hk : k.toNat < 12) (w : GenWait) (c : Bool) {g : GenCtx} (hg : g.wait = none) :
    { setCond (begun k w g) k c with wait := none } = setCond g k c := by
  unfold setCond begun clearCond
  dsimp only
  rw [rd_wr_same _ _ _ _ hk, wr_wr, hg]

/-- A change that a wait's beginning does not reach. -/
def OffWait (f : GenCtx → GenCtx) : Prop :=
  (∀ g, SamePath g (f g)) ∧ (∀ g, (f g).wait = g.wait) ∧ ∀ k w g, f (begun k w g) = begun k w (f g)

theorem offWait_id : OffWait id := ⟨SamePath.refl, fun _ => rfl, fun _ _ _ => rfl⟩

theorem offWait_gSet (r : Reg) (v : W64) : OffWait fun g => gSet g r v := by
  refine ⟨fun g => samePath_gSet g r v, fun g => ?_, fun k w g => ?_⟩ <;> dsimp only [gSet]
  · split
    · rfl
    · split <;> rfl
  · split
    · rfl
    · rw [show (begun k w g).handler = g.handler from rfl]
      cases g.handler && decide (28 ≤ r.toNat) <;> rfl

theorem OffWait.comp {f f' : GenCtx → GenCtx} (h : OffWait f) (h' : OffWait f') : OffWait fun g => f' (f g) := by
  obtain ⟨hp, hw, hb⟩ := h
  obtain ⟨hp', hw', hb'⟩ := h'
  refine ⟨fun g => (hp g).trans (hp' _), fun g => (hw' _).trans (hw g), fun k w g => ?_⟩
  dsimp only
  rw [hb, hb']

theorem fb_gSet (g : GenCtx) (r : Reg) (v : W64) : (gSet g r v).fb = g.fb := by
  unfold gSet
  split
  · rfl
  · split <;> rfl

/-- GFB's effect: a register written and a feedback register empty. -/
def takesFb (n : BitVec 3) (a : Reg) (v : W64) (g : GenCtx) : GenCtx :=
  { gSet g a v with fb := wr g.fb n.toNat { rd g.fb n.toNat {} with valid := false } }

theorem offWait_takesFb (n : BitVec 3) (a : Reg) (v : W64) : OffWait (takesFb n a v) := by
  have hempty : OffWait fun g => { g with fb := wr g.fb n.toNat { rd g.fb n.toNat {} with valid := false } } :=
    ⟨fun _ => ⟨rfl, rfl, rfl, rfl⟩, fun _ => rfl, fun _ _ _ => rfl⟩
  have heq : takesFb n a v = fun g => { gSet g a v with
      fb := wr (gSet g a v).fb n.toNat { rd (gSet g a v).fb n.toNat {} with valid := false } } := by
    funext g
    rw [fb_gSet]
    rfl
  rw [heq]
  exact (offWait_gSet a v).comp hempty

/-- JOIN's effect: two registers written, unless gA is g0. -/
def takesWords (a : Reg) (u v : W64) (g : GenCtx) : GenCtx := if a = 0 then g else gSet (gSet g a u) (a + 1) v

theorem offWait_takesWords (a : Reg) (u v : W64) : OffWait (takesWords a u v) := by
  by_cases ha : a = 0
  · exact (show takesWords a u v = id from funext fun _ => if_pos ha) ▸ offWait_id
  · exact (show takesWords a u v = fun g => gSet (gSet g a u) (a + 1) v from funext fun _ => if_neg ha) ▸
      (offWait_gSet a u).comp (offWait_gSet (a + 1) v)

/-! ### Waits of a steer register at issue -/

/-- What a waiting instruction keeps. -/
def waitOf (s : State) (i : Instr) (t : W64) (note : Nat) (steer : Option (Nat × Steer)) : GenWait :=
  { instr := i, since := s.now, timeout := t, mark := s.fresh, note := note, steer := steer }

section
variable {s : State} {rs : List Reg} {i : Instr} {k : BitVec 4} {t : W64} {note : Nat} {test : State → GenWait → Try}

/-- The state in which a wait of steer register `k` has begun. -/
theorem steering_eq (s : State) (i : Instr) (t : W64) (note : Nat) (k : BitVec 4) :
    steering s i t note k = modCurG (used s) (begun k (waitOf s i t note (some (k.toNat, rd (curG s).k k.toNat {})))) :=
  modCurG_congr rfl

theorem startWait_eq : startWait s i k t note test =
    match test (steering s i t note k) (waitOf s i t note (some (k.toNat, rd (curG s).k k.toNat {}))) with
    | .done a => .next (endWait (steering s i t note k) a 4)
    | .fault a => .next (faultWaiting a)
    | .notYet => if t = 0 then .next (expireWait (steering s i t note k) k) else .next (steering s i t note k) := by
  rw [steering_eq]
  rfl

variable (h : genReady s rs = true) (hk : k.toNat < 12) (hg : GoesOn s 4)
include h hk hg

/-- What a wait of steer register `k` that ends in its issue cycle has changed. -/
theorem changed_begun {u : State} (hu : curG u = curG s) {f : GenCtx → GenCtx} (hf : OffWait f) (w : GenWait) (c : Bool) (before : State) :
    endWait before (modCurG (modCurG u (begun k w)) fun g => setCond (f g) k c) 4 = changed u 4 fun g => setCond (f g) k c := by
  obtain ⟨hpath, hwait, hbegun⟩ := hf
  have hgu : GoesOn (modCurG u (begun k w)) 4 := by
    refine goesOn_modCurG (samePath_begun k w) ?_
    unfold GoesOn
    rw [hu]
    exact hg
  rw [endWait_modCurG before hgu fun g => (hpath g).trans (samePath_setCond _ _ _), changed_modCurG]
  refine changed_congr ?_
  rw [hbegun, setCond_begun hk w c]
  rw [hwait, hu]
  exact wait_of_genReady h

/-- The condition holds in the issue cycle. -/
theorem startWait_met {u : State} (hu : curG u = curG s) {f : GenCtx → GenCtx} (hf : OffWait f) {c : Bool}
    (ht : ∀ w, test (modCurG (used s) (begun k w)) w = .done (modCurG (modCurG u (begun k w)) fun g => setCond (f g) k c)) :
    startWait s i k t note test = .next (changed u 4 fun g => setCond (f g) k c) := by
  rw [startWait_eq, steering_eq, ht]
  exact congrArg _ (changed_begun h hk hg hu hf _ _ _)

/-- It does not, and the timeout is 0. -/
theorem startWait_expires (ht : ∀ w, test (modCurG (used s) (begun k w)) w = .notYet) (h0 : t = 0) :
    startWait s i k t note test = .next (changed (used s) 4 fun g => setCond g k false) := by
  rw [startWait_eq, steering_eq, ht]
  exact (if_pos h0).trans (congrArg _ (changed_begun h hk hg (u := used s) rfl offWait_id _ _ _))

omit h hk hg in
/-- It does not, and there is time. -/
theorem startWait_waits (ht : ∀ w, test (modCurG (used s) (begun k w)) w = .notYet) (h0 : t ≠ 0) :
    startWait s i k t note test = .next (steering s i t note k) := by
  rw [startWait_eq, steering_eq, ht]
  exact if_neg h0

/-- The three ways of a wait at issue, given what its test answers. -/
theorem waitIssues_of_test {i' : Instr} {holds : Prop} {met : State} (hi : exec i' s = startWait s i' k t note test)
    (hmet : holds → ∃ u f c, curG u = curG s ∧ OffWait f ∧ met = (changed u 4 fun g => setCond (f g) k c) ∧
      ∀ w, test (modCurG (used s) (begun k w)) w = .done (modCurG (modCurG u (begun k w)) fun g => setCond (f g) k c))
    (hnot : ¬holds → ∀ w, test (modCurG (used s) (begun k w)) w = .notYet) : WaitIssues s i' k t note holds met := by
  refine ⟨fun hh => ?_, fun hh h0 => hi.trans (startWait_expires h hk hg (hnot hh) h0),
    fun hh h0 => hi.trans (startWait_waits (hnot hh) h0)⟩
  obtain ⟨u, f, c, hu, hf, rfl, ht⟩ := hmet hh
  exact hi.trans (startWait_met h hk hg hu hf ht)

end

/-! ### What the waits test -/

theorem taskOn_modCurG {s : State} (h : s.cur.core < 320) (f : GenCtx → GenCtx) (n : Nat) : (modCurG s f).taskOn n = s.taskOn n := by
  have ht : ((modCurG s f).core n).task = (s.core n).task := by
    by_cases hn : s.cur.core = n
    · subst hn
      rw [modCurG, State.modG, core_modCore_same _ _ _ h]
      cases s.cur.ctx <;> rfl
    · rw [modCurG, State.modG, core_modCore_ne _ _ _ _ hn]
  unfold State.taskOn
  rw [ht]
  rfl

/-- Waiting changes none of the conditions of GSYNC. -/
theorem syncHolds_setG (c : Core) (x y : Ctx) (g : GenCtx) (fl : BitVec 6) : syncHolds (c.setG x g) y fl = syncHolds c y fl := by
  cases x <;> rfl

theorem syncHolds_modCurG {s : State} (h : s.cur.core < 320) (f : GenCtx → GenCtx) (x : Ctx) (fl : BitVec 6) :
    syncHolds ((modCurG s f).core s.cur.core) x fl = syncHolds (s.core s.cur.core) x fl := by
  rw [modCurG, State.modG, core_modCore_same _ _ _ h, syncHolds_setG]

theorem syncHolds_iff (s : State) (fl : BitVec 6) : syncHolds (s.core s.cur.core) s.cur.ctx fl = true ↔ SyncMet s fl := by
  have hbit (i : Nat) (b : Bool) : (!bitAt fl i || b) = true ↔ (fl.getLsbD i = true → b = true) := by
    rw [bitAt_eq]
    cases fl.getLsbD i <;> simp
  simp only [syncHolds, SyncMet, Bool.and_eq_true, hbit, beq_iff_eq, and_assoc]

theorem tryGfb_valid {s : State} {k : BitVec 4} {n : BitVec 3} {a : Reg} (w : GenWait) (hv : (rd (curG s).fb n.toNat {}).valid = true) :
    tryGfb k n a s w = .done (modCurG s fun g => setCond (takesFb n a (rd (curG s).fb n.toNat {}).val g) k true) := by
  simp only [tryGfb, hv, Bool.not_true, Bool.false_eq_true, if_false]
  rfl

theorem tryGfb_empty {s : State} {k : BitVec 4} {n : BitVec 3} {a : Reg} (w : GenWait) (hv : (rd (curG s).fb n.toNat {}).valid = false) :
    tryGfb k n a s w = .notYet := by
  simp only [tryGfb, hv, Bool.not_false, if_true]

theorem tryJoin_ended {s : State} {k : BitVec 4} {a : Reg} {t : Task} (w : GenWait) (ht : s.taskOn s.cur.core = some t)
    (hc : ∀ c ∈ t.children, c.how ≠ none) : tryJoin k a s w =
      .done (modCurG (s.modTask t.id fun t => { t with children := [], nextOrd := 0 }) fun g =>
        setCond (takesWords a (joinWords t.children).1 (joinWords t.children).2.1 g) k (joinWords t.children).2.2) := by
  have hany : t.children.any (fun c => c.how.isNone) = false := by simpa [Option.isNone_iff_eq_none] using hc
  simp only [tryJoin, ht, hany, Bool.false_eq_true, if_false]
  rfl

theorem tryJoin_running {s : State} {k : BitVec 4} {a : Reg} {t : Task} (w : GenWait) (ht : s.taskOn s.cur.core = some t)
    (hc : ¬∀ c ∈ t.children, c.how ≠ none) : tryJoin k a s w = .notYet := by
  have hany : t.children.any (fun c => c.how.isNone) = true := by
    simpa [Option.isNone_iff_eq_none] using hc
  simp only [tryJoin, ht, hany, if_true]

/-! ### GFB, JOIN and GSYNC at issue -/

/-- A write of a g register and the end of a wait, in either order. -/
theorem gSet_wait (g : GenCtx) (w : Option GenWait) (r : Reg) (v : W64) : gSet { g with wait := w } r v = { gSet g r v with wait := w } := by
  unfold gSet
  by_cases hr : r = 0
  · rw [if_pos hr, if_pos hr]
  · rw [if_neg hr, if_neg hr]
    dsimp only
    cases g.handler && decide (28 ≤ r.toNat) <;> rfl

section
variable {s : State} {d b : Reg} {flags : BitVec 6} {i : Instr} {t : W64}

theorem startPlainWait_eq (test : State → GenWait → Try) (expire : State → State) : startPlainWait s i t 0 test expire =
    match test (waiting s i t 0 id) (waitOf s i t 0 none) with
    | .done a => .next (endWait (waiting s i t 0 id) a 4)
    | .fault a => .next (faultWaiting a)
    | .notYet => if t = 0 then .next (expire (waiting s i t 0 id)) else .next (waiting s i t 0 id) := rfl

theorem tryGsync_met (w : GenWait) (h : SyncMet s flags) : tryGsync d flags s w = .done (modCurG s fun g => gSet g d 1) :=
  if_pos ((syncHolds_iff s flags).2 h)

theorem tryGsync_unmet (w : GenWait) (h : ¬SyncMet s flags) : tryGsync d flags s w = .notYet := if_neg (mt (syncHolds_iff s flags).1 h)

/-- Waiting itself changes none of the conditions. -/
theorem syncMet_waiting (h : s.cur.core < 320) : SyncMet (waiting s i t 0 id) flags ↔ SyncMet s flags := by
  rw [← syncHolds_iff, ← syncHolds_iff]
  exact Eq.congr_left (syncHolds_modCurG (s := used s) h _ _ _)

/-- A GSYNC that ends in its issue cycle has written gD alone. -/
theorem endWait_waiting {rs : List Reg} (h : genReady s rs = true) (hg : GoesOn s 4) (v : W64) (before : State) :
    endWait before (modCurG (waiting s i t 0 id) fun g => gSet g d v) 4 = changed (used s) 4 fun g => gSet g d v := by
  have hw : GoesOn (waiting s i t 0 id) 4 := goesOn_modCurG (s := used s) (fun _ => ⟨rfl, rfl, rfl, rfl⟩) hg
  rw [endWait_modCurG before hw fun g => samePath_gSet g d v, waiting, changed_modCurG]
  refine changed_congr (s := used s) ?_
  dsimp only [id]
  rw [gSet_wait]
  exact (gSet_wait _ none d v).symm.trans (congrArg (fun w => gSet { curG s with wait := w } d v) (wait_of_genReady h).symm)

end

theorem waitsAtIssue : WaitsAtIssue := by
  intro s k n a b d flags task hk hm hg htask g t f words joined
  obtain ⟨hready, hu⟩ := hm
  have hl := genReady_lt hready
  have hcur (w : GenWait) : curG (modCurG (used s) (begun k w)) = begun k w g := curG_modCurG (s := used s) _ hl
  have hon (w : GenWait) : (modCurG (used s) (begun k w)).taskOn s.cur.core = some task :=
    (taskOn_modCurG (s := used s) hl _ _).trans htask
  have hgsync : exec (.gsync d b flags) s = startPlainWait s (.gsync d b flags) t 0 (tryGsync d flags) (expireGsync d) := by
    rw [exec_gsync, execGsync, genIssue_user _ hready hu]; rfl
  refine ⟨waitIssues_of_test (test := tryGfb k n a) hready hk hg ?_ (fun hv => ⟨used s, takesFb n a f.val, true, rfl,
      offWait_takesFb n a f.val, changed_congr rfl, fun w => ?_⟩) fun hv w => ?_,
    waitIssues_of_test (test := tryJoin k a) hready hk hg ?_ (fun hc => ⟨joined, takesWords a words.1 words.2.1, words.2.2, rfl,
      offWait_takesWords a words.1 words.2.1, rfl, fun w => ?_⟩) fun hc w => ?_, fun hs => ?_, fun hs h0 => ?_, fun hs h0 => ?_⟩
  · rw [exec_gfb, execGfb, genIssue_user _ hready hu]; rfl
  · have hf : rd (curG (modCurG (used s) (begun k w))).fb n.toNat {} = f := by rw [hcur]; rfl
    rw [tryGfb_valid w (hf ▸ hv), hf]
  · have hf : rd (curG (modCurG (used s) (begun k w))).fb n.toNat {} = f := by rw [hcur]; rfl
    exact tryGfb_empty w (hf ▸ Bool.eq_false_iff.2 hv)
  · rw [exec_join, execJoin, genIssue_user _ hready hu]; rfl
  · rw [tryJoin_ended w (hon w) hc]; rfl
  · exact tryJoin_running w (hon w) hc
  · rw [hgsync, startPlainWait_eq, tryGsync_met _ ((syncMet_waiting hl).2 hs)]
    exact congrArg _ (endWait_waiting hready hg 1 _)
  · rw [hgsync, startPlainWait_eq, tryGsync_unmet _ (mt (syncMet_waiting hl).1 hs)]
    exact (if_pos h0).trans (congrArg _ (endWait_waiting hready hg 0 _))
  · rw [hgsync, startPlainWait_eq, tryGsync_unmet _ (mt (syncMet_waiting hl).1 hs)]
    exact if_neg h0

/-! ### JOIN's status words (R126) -/

/-- The kinds of end that JOIN counts. -/
def childEndRetired : End → Bool
  | .retired _ => true
  | .absent => true
  | _ => false

def childEndSkipped : End → Bool
  | .skippedPublish => true
  | .skippedCopy => true
  | _ => false

def childEndFaulted : End → Bool
  | .faulted _ => true
  | _ => false

def childEndKilled : End → Bool
  | .killed => true
  | _ => false

theorem beq_killed (h : End) : (h == .killed) = childEndKilled h := by cases h <;> rfl

theorem failed_eq (c : Child) : failed c = match c.how with | some h => childEndFaulted h || h == .killed | none => false := by
  unfold failed
  rcases c.how with - | h
  · rfl
  · cases h <;> rfl

/-- Of two failing children the one with the lower ordinal, the earlier one first. -/
def lowerChild (m : Option Child) (c : Child) : Option Child :=
  match m with
  | some x => if c.ordinal < x.ordinal then some c else m
  | none => some c

/-- The failing child with the lowest ordinal. -/
def firstFailing (cs : List Child) : Option Child := (cs.filter failed).foldl lowerChild none

/-- The counted part of the status words. -/
def countWord (cs : List Child) : Nat :=
  ended cs childEndRetired + ended cs childEndSkipped * 2 ^ 16 + ended cs childEndFaulted * 2 ^ 32 + ended cs childEndKilled * 2 ^ 48

/-- The number that tells of the first failing child. -/
def failingWord : Option Child → Nat
  | none => 0xFFFF
  | some c => c.ordinal % 2 ^ 16 + match c.how with
    | some (.faulted cause) => cause.toNat * 2 ^ 16
    | _ => 2 ^ 25

theorem joinWords_eq (cs : List Child) : joinWords cs =
    (w64 (countWord cs), w64 (failingWord (firstFailing cs)), ended cs childEndFaulted == 0 && ended cs childEndKilled == 0) := by
  have hk : (fun h : End => h == End.killed) = childEndKilled := funext beq_killed
  have hf : failed = fun c => match c.how with | some h => childEndFaulted h || h == .killed | none => false := funext failed_eq
  unfold countWord firstFailing
  rw [hf, ← hk]
  simp only [ended, List.countP_eq_length_filter]
  rfl

/-- No child failed when none faulted and none was killed. -/
theorem ended_eq_zero_iff (cs : List Child) :
    (ended cs childEndFaulted == 0 && ended cs childEndKilled == 0) = true ↔ ∀ c ∈ cs, failed c = false := by
  simp only [Bool.and_eq_true, beq_iff_eq, ended, List.countP_eq_zero, ← forall_and]
  refine forall_congr' fun c => forall_congr' fun _ => ?_
  unfold failed
  rcases c.how with - | h
  · simp
  · cases h <;> simp [childEndFaulted, childEndKilled]

/-- The child that stands first in the order of ordinals is the one that the fold finds. -/
theorem foldl_lowerChild {c : Child} (l : List Child) : ∀ m, (∀ x ∈ l, x = c ∨ c.ordinal < x.ordinal) →
    (∀ x, m = some x → x = c ∨ c.ordinal < x.ordinal) → (c ∈ l ∨ m = some c) → l.foldl lowerChild m = some c := by
  induction l with
  | nil => exact fun m _ _ hc => hc.resolve_left (by simp)
  | cons x l ih =>
    intro m hl hm hc
    have hx := hl x (by simp)
    refine ih (lowerChild m x) (fun y hy => hl y (by simp [hy])) ?_ ?_
    · intro y hy
      rcases m with - | z
      · exact Option.some.inj hy ▸ hx
      · dsimp only [lowerChild] at hy
        split at hy
        · exact Option.some.inj hy ▸ hx
        · exact hm y hy
    · rcases hc with hc | rfl
      · rcases List.mem_cons.1 hc with rfl | hc
        · rcases m with - | z
          · exact .inr rfl
          · rcases hm z rfl with rfl | hz
            · exact .inr (if_neg (Nat.lt_irrefl _))
            · exact .inr (if_pos hz)
        · exact .inl hc
      · rcases hx with rfl | hx
        · exact .inr (if_neg (Nat.lt_irrefl _))
        · exact .inr (if_neg (Nat.not_lt.2 hx.le))

theorem firstFailing_eq_some {cs : List Child} {c : Child} (hc : c ∈ cs) (hf : failed c = true)
    (hl : ∀ x ∈ cs, failed x = true → x = c ∨ c.ordinal < x.ordinal) : firstFailing cs = some c :=
  foldl_lowerChild _ none (fun x hx => hl x (List.mem_filter.1 hx).1 (List.mem_filter.1 hx).2) (fun _ h => nomatch h)
    (.inl (List.mem_filter.2 ⟨hc, hf⟩))

theorem firstFailing_eq_none {cs : List Child} (h : ∀ c ∈ cs, failed c = false) : firstFailing cs = none := by
  rw [firstFailing, List.filter_eq_nil_iff.2 fun c hc => Bool.eq_false_iff.1 (h c hc)]
  rfl

theorem joinStatusWords : JoinStatusWords := by
  intro cs hlen hord w retired skipped faulted killed
  have hw : w = _ := joinWords_eq cs
  have hcount (p : End → Bool) : ended cs p ≤ 4095 := (List.countP_le_length).trans hlen
  refine ⟨?_, ?_, fun h => ?_, fun c hc hf hl => ?_⟩
  · have h1 := hcount childEndRetired
    have h2 := hcount childEndSkipped
    have h3 := hcount childEndFaulted
    have h4 := hcount childEndKilled
    rw [hw, show retired = ended cs childEndRetired from rfl, show skipped = ended cs childEndSkipped from rfl,
      show faulted = ended cs childEndFaulted from rfl, show killed = ended cs childEndKilled from rfl]
    dsimp only [w64, countWord]
    rw [BitVec.toNat_ofNat, Nat.mod_eq_of_lt (by omega)]
  · rw [hw]
    exact ended_eq_zero_iff cs
  · rw [hw]
    dsimp only
    rw [firstFailing_eq_none h]
    rfl
  · rw [hw]
    dsimp only
    rw [firstFailing_eq_some hc hf hl, failingWord, Nat.mod_eq_of_lt (hord c hc)]
    rcases c.how with - | h
    · rfl
    · cases h <;> rfl

/-! ### Waits that end (R104) -/

section
variable {s : State} {core : Nat} {ctx : Ctx} {w : GenWait} (hw : activeWait s core ctx = some w)
include hw

/-- A GFB or a GSYNC completes with what its test answers. -/
theorem execGenWaitComplete_done (hc : copyingWait s core ctx = none) {t : State} (ht : tryGen (actAs s core ctx) w = .done t)
    (hi : (∃ k n a b, w.instr = .gfb k n a b) ∨ ∃ d b fl, w.instr = .gsync d b fl) :
    exec (.genWaitComplete core ctx) s = .next (endWait (actAs s core ctx) t 4) := by
  rw [exec_genWaitComplete, execGenWaitComplete, hc, hw]
  obtain ⟨k, n, a, b, hi⟩ | ⟨d, b, fl, hi⟩ := hi <;> simp only [hi, ht]

/-- Before its time has run out, and when its condition holds, a wait does not expire. -/
theorem execGenWaitTimeout_held (h : waitExpired s w = false ∨ tryGen (actAs s core ctx) w ≠ .notYet) :
    exec (.genWaitTimeout core ctx) s = .next s := by
  rw [exec_genWaitTimeout, execGenWaitTimeout, hw]
  refine if_pos ?_
  obtain h | h := h
  · simp [h]
  · cases ht : tryGen (actAs s core ctx) w with
    | notYet => exact absurd ht h
    | done t => simp
    | fault t => simp

/-- A wait whose time has run out expires as its instruction does. -/
theorem execGenWaitTimeout_expired (hx : waitExpired s w = true) (ht : tryGen (actAs s core ctx) w = .notYet) :
    (∀ k n a b, w.instr = .gfb k n a b → exec (.genWaitTimeout core ctx) s = .next (expireWait (actAs s core ctx) k)) ∧
    ∀ d b fl, w.instr = .gsync d b fl → exec (.genWaitTimeout core ctx) s = .next (expireGsync d (actAs s core ctx)) := by
  have hexec := exec_genWaitTimeout core ctx s
  simp only [execGenWaitTimeout, hw, ht, hx, Bool.not_true, Bool.or_false, Bool.false_eq_true, if_false] at hexec
  refine ⟨fun k n a b hi => ?_, fun d b fl hi => ?_⟩ <;> simp only [hexec, hi]

end

theorem waitsEnd : WaitsEnd := by
  intro s core ctx w k n a b d flags hw hc s0 hs0 hg g f finish late
  subst hs0
  have hlate : waitExpired s w = true ↔ late := by simp [waitExpired, late]
  have hgfb (hi : w.instr = .gfb k n a b) : tryGen (actAs s core ctx) w = tryGfb k n a (actAs s core ctx) w := by
    rw [tryGen, hi]
  have hgsync (hi : w.instr = .gsync d b flags) : tryGen (actAs s core ctx) w = tryGsync d flags (actAs s core ctx) w := by
    rw [tryGen, hi]
  refine ⟨fun hi hv => ?_, fun hi hm => ?_, fun hi hv => ?_, fun hi hv hl => ?_, fun hi hm hl => ?_, fun hi hl => ?_⟩
  · rw [execGenWaitComplete_done hw hc ((hgfb hi).trans (tryGfb_valid w hv)) (.inl ⟨_, _, _, _, hi⟩),
      endWait_modCurG _ hg fun g => ((offWait_takesFb n a _).1 g).trans (samePath_setCond _ _ _)]
    exact congrArg _ (changed_congr rfl)
  · rw [execGenWaitComplete_done hw hc ((hgsync hi).trans (tryGsync_met w hm)) (.inr ⟨_, _, _, hi⟩),
      endWait_modCurG _ hg fun g => samePath_gSet g d 1]
  · exact execGenWaitTimeout_held hw (.inr (by rw [hgfb hi, tryGfb_valid w hv]; simp))
  · rw [(execGenWaitTimeout_expired hw (hlate.2 hl) ((hgfb hi).trans (tryGfb_empty w hv))).1 _ _ _ _ hi, expireWait,
      endWait_modCurG _ hg fun g => samePath_setCond g k false]
    rfl
  · rw [(execGenWaitTimeout_expired hw (hlate.2 hl) ((hgsync hi).trans (tryGsync_unmet w hm))).2 _ _ _ hi, expireGsync,
      endWait_modCurG _ hg fun g => samePath_gSet g d 0]
  · exact execGenWaitTimeout_held hw (.inl (Bool.eq_false_iff.2 (mt hlate.1 hl)))

end Sys2Proof.Machine

open Sys2Proof Sys2Proof.Machine Sys2Proof.Claims

/-- Settles O46: the three waits at issue, JOIN's words, and the waits as they end. -/
theorem generatorWaits : Obligations.GeneratorWaits := by
  unfold Obligations.GeneratorWaits
  exact ⟨waitsAtIssue, joinStatusWords, waitsEnd⟩

end

section
/-! O9: a later beat of an op whose operands are registers. -/

namespace Sys2Proof.Machine

open Sys2Proof.Claims

/-- A core that holds anything but what every core holds at reset is one of the package's. -/
theorem core_lt_of_ne {α : Type} {s : State} {n : Nat} (P : Core → α) (h : P (s.core n) ≠ P {}) : n < 320 := by
  by_contra hn
  exact h (congrArg P (rd_ge _ _ _ (Nat.not_lt.1 hn)))

theorem core_lt_of_vrun {s : State} {n k : Nat} {r : VRun} (h : rd (s.core n).e.vrun k none = some r) : n < 320 := by
  refine core_lt_of_ne (s := s) (fun c => rd c.e.vrun k none) ?_
  dsimp only
  rw [h, show rd ({} : Core).e.vrun k none = none from rd_replicate 2 k none]
  exact Option.some_ne_none r

section
variable {s : State} {core lat : Nat} {slot : Slot} {r : VRun} {f : VOp} {beat : BeatFn} (hslot : slot = .v0 ∨ slot = .v1)
  (hr : rd (s.core core).e.vrun (slotNum slot - 1) none = some r) (hb : beatOf r.instr = some (f, lat, beat))
  (hdue : rd (s.core core).e.unitFree (slotNum slot) 0 ≤ s.now + (f.beats.toNat + 1 - r.beat))
include hslot hr hb hdue

/-- A beat that is due lands its result, and the op steps on. -/
theorem execVBeat_due : execVBeat core slot s =
    .next ((landAt s core slot lat (beat s core r.info r.mask r.sel r.beat 0) (if r.beat = f.beats.toNat then tagOf f.taga else none)).modE core
      fun e => { e with vrun := wr e.vrun (slotNum slot - 1) (if r.beat = f.beats.toNat then none else some { r with beat := r.beat + 1 }) }) := by
  have hslot' : (slot = .v0 ∨ slot = .v1) = True := eq_true hslot
  simp only [execVBeat, hslot', if_true, hr, hb, if_neg (Nat.not_lt.2 hdue), beq_iff_eq]

/-- What its core then holds of the result and of the op. -/
theorem execVBeat_lands : ∃ t, execVBeat core slot s = .next t ∧
    (t.core core).e.landings = (s.core core).e.landings ++ [
      { at_ := s.now + lat, seq := s.now * 8 + slotNum slot, writes := beat s core r.info r.mask r.sel r.beat 0,
        tag := if r.beat = f.beats.toNat then tagOf f.taga else none }] ∧
    rd (t.core core).e.vrun (slotNum slot - 1) none = if r.beat = f.beats.toNat then none else some { r with beat := r.beat + 1 } := by
  have hlt := core_lt_of_vrun hr
  have hk : slotNum slot - 1 < 2 := by rcases hslot with rfl | rfl <;> decide
  refine ⟨_, execVBeat_due hslot hr hb hdue, ?_⟩
  rw [landAt, landSince, modE_modE _ _ _ _ hlt, core_modE_same _ _ _ hlt]
  exact ⟨rfl, rd_wr_same _ _ _ _ hk⟩

end

/-- The value that beat `j` of a lane-wise op writes, its b operand a register. -/
theorem laneBeat_registers {f : VOp} (hbk : f.bk = 0) (fn : Nat → Nat → Nat → Nat → Nat) (s : State) (core : Nat) (i : BInfo)
    (mask sel : M512) (j : Nat) (row : V4096) :
    ∃ val, laneBeat f fn s core i mask sel j row = [.v (f.dst.toNat + j) val (spread mask (wOf f))] ∧
      ∀ n, n < 4096 / wOf f → ∃ m c, lane val.toNat (wOf f) n =
        fn m (lane (vReg (s.core core).e (f.a.toNat + j)).toNat (wOf f) n) (lane (vReg (s.core core).e (f.b.toNat + j)).toNat (wOf f) n) c %
          2 ^ wOf f := by
  refine ⟨_, rfl, fun n hn => ⟨if laneOn sel (wOf f) n then 1 else 0, lane (vReg (s.core core).e (f.c.toNat + j)).toNat (wOf f) n, ?_⟩⟩
  have hb : bVec s core f i row j = lane (vReg (s.core core).e (f.b.toNat + j)).toNat (wOf f) := by rw [bVec, hbk]; rfl
  exact (lane_ofLanes _ (etw_mul_lanes _).le hn).trans (by rw [hb]; rfl)

end Sys2Proof.Machine

open Sys2Proof Sys2Proof.Machine Sys2Proof.Claims

/-- Settles O9, by what a due beat lands and the lane functions of R151. -/
theorem vectorBeatCompletes : Obligations.VectorBeatCompletes := by
  unfold Obligations.VectorBeatCompletes
  intro s core slot r f hslot hr hbeat hdue hbk ht w last reg runs
  have hruns {i : VOp → Instr} {lat : Nat} {fn : Nat → Nat → Nat} {g : Nat → Nat → Nat → Nat → Nat}
      (hb : beatOf (i f) = some (f, lat, laneBeat f g))
      (hg : ∀ m a b c, a < 2 ^ w → b < 2 ^ w → g m a b c % 2 ^ w = fn a b % 2 ^ w) : runs i lat fn := by
    intro hi
    obtain ⟨t, hexec, hland, hrun⟩ := execVBeat_lands hslot hr (hi ▸ hb) hdue
    obtain ⟨val, hval, hlanes⟩ := laneBeat_registers hbk g s core r.info r.mask r.sel r.beat 0
    rw [hval] at hland
    refine ⟨t, val, hexec, hland, fun n hn => ?_, hrun⟩
    obtain ⟨m, c, hl⟩ := hlanes n hn
    rw [hl]
    exact hg m _ _ c (lane_lt _ _ _) (lane_lt _ _ _)
  exact ⟨hruns rfl fun m _ _ c ha hb => laneVadd_mod f m c ha hb,
    hruns (fn := fun a b => a + 2 ^ w - b) rfl fun m _ _ c ha hb => laneVsub_mod f m c ha hb,
    hruns rfl fun _ _ _ _ _ _ => rfl, hruns rfl fun _ _ _ _ _ _ => rfl, hruns rfl fun _ _ _ _ _ _ => rfl,
    hruns (fn := fun _ b => b) rfl fun _ _ _ _ _ _ => rfl⟩

end

section
/-! O59: bundles as they expand. -/

namespace Sys2Proof.Machine

open Sys2Proof.Claims

/-! ### The fields of a bundle (R73) -/

theorem toNat_extractLsb'_eq_bits {w : Nat} (b : BitVec w) (lo n : Nat) : (b.extractLsb' lo n).toNat = bits b lo n := by
  rw [BitVec.extractLsb'_toNat, Nat.shiftRight_eq_div_pow, bits]

/-- A field of at most 64 bits as a word. -/
theorem w64_bfield (b : BitVec 384) {lo n : Nat} (hn : n ≤ 64) : w64 (bfield b lo n) = (b.extractLsb' lo n).setWidth 64 := by
  have hlt : bits b lo n < 2 ^ 64 := (Nat.mod_lt _ (Nat.two_pow_pos n)).trans_le (Nat.pow_le_pow_right two_pos hn)
  refine BitVec.eq_of_toNat_eq ?_
  rw [w64, BitVec.toNat_ofNat, BitVec.toNat_setWidth, toNat_extractLsb'_eq_bits, bfield]

/-- The header and immediate of a bundle, as the expander reports them. -/
theorem w64_header (b : BitVec 384) : w64 (bfield b 0 32 + bfield b 360 24 * 2 ^ 32) = headerBits b := by
  have hlo : bits b 0 32 < 2 ^ 32 := Nat.mod_lt _ (by decide)
  have hhi : bits b 360 24 < 2 ^ 24 := Nat.mod_lt _ (by decide)
  refine BitVec.eq_of_toNat_eq ?_
  rw [headerBits, BitVec.toNat_or, BitVec.toNat_shiftLeft, BitVec.toNat_setWidth, BitVec.toNat_setWidth, toNat_extractLsb'_eq_bits,
    toNat_extractLsb'_eq_bits, w64, BitVec.toNat_ofNat, bfield, bfield, Nat.shiftLeft_eq, Nat.or_comm,
    Nat.mod_eq_of_lt (show bits b 0 32 < 2 ^ 64 by omega), Nat.mod_eq_of_lt (show bits b 360 24 < 2 ^ 64 by omega),
    Nat.mod_eq_of_lt (show bits b 360 24 * 2 ^ 32 < 2 ^ 64 by omega), Nat.mod_eq_of_lt (by omega), Nat.mul_comm,
    ← Nat.two_pow_add_eq_or_of_lt hlo, Nat.add_comm]

/-- R58: where each patch lane of an entry goes. -/
theorem getLsbD_patchBundle (b : BitVec 384) (e : EmitEntry) (i : Nat) (hi : i < 384) :
    let lane (k j : Nat) : Bool := (rd e.pval k 0).getLsbD j
    (patchBundle b e).getLsbD i =
      if 360 ≤ i ∧ e.pmask.getLsbD 0 = true then lane 0 (i - 360)
      else if 52 ≤ i ∧ i < 64 ∧ e.pmask.getLsbD 1 = true ∧ b.getLsbD 4 = true then lane 1 (i - 52)
      else if 267 ≤ i ∧ i < 287 ∧ e.pmask.getLsbD 2 = true ∧ b.getLsbD 8 = true then lane 2 (i - 267)
      else if 323 ≤ i ∧ i < 343 ∧ e.pmask.getLsbD 3 = true ∧ b.getLsbD 9 = true then lane 3 (i - 323)
      else b.getLsbD i := by
  have hput (c : BitVec 384) (on : Bool) (lo n : Nat) (v : W64) (hw : lo + n ≤ 384) :
      (if on then setBits c lo n v.toNat else c).getLsbD i =
        if on = true ∧ lo ≤ i ∧ i < lo + n then v.getLsbD (i - lo) else c.getLsbD i := by
    cases on
    · simp
    · simp only [if_true, true_and]
      exact getLsbD_setBits c _ i hw
  simp only [patchBundle, hput _ _ _ _ _ (by decide : 323 + 20 ≤ 384), hput _ _ _ _ _ (by decide : 267 + 20 ≤ 384),
    hput _ _ _ _ _ (by decide : 52 + 12 ≤ 384), hput _ _ _ _ _ (by decide : 360 + 24 ≤ 384)]
  simp only [bitAt, ← getLsbD_eq_testBit, Bool.and_eq_true, Bool.and_true]
  by_cases h3 : 323 ≤ i ∧ i < 343
  · simp [show ¬(360 ≤ i) by omega, show ¬(i < 64) by omega, show ¬(i < 287) by omega, h3]
  · by_cases h2 : 267 ≤ i ∧ i < 287
    · simp [show ¬(360 ≤ i) by omega, show ¬(i < 64) by omega, show ¬(323 ≤ i) by omega, h2]
    · by_cases h1 : 52 ≤ i ∧ i < 64
      · simp [show ¬(360 ≤ i) by omega, show ¬(267 ≤ i) by omega, show ¬(323 ≤ i) by omega, h1]
      · by_cases h0 : 360 ≤ i
        · simp [h0, hi, show ¬(i < 64) by omega, show ¬(i < 287) by omega, show ¬(i < 343) by omega]
        · have hout {p : Prop} {lo n : Nat} (h : ¬(lo ≤ i ∧ i < n)) : ¬(p ∧ lo ≤ i ∧ i < n) := fun hp => h hp.2
          rw [if_neg (hout h3), if_neg (hout h2), if_neg (hout h1), if_neg fun h => h0 h.2.1, if_neg fun h => h0 h.1,
            if_neg fun h => h1 ⟨h.1, h.2.1⟩, if_neg fun h => h2 ⟨h.1, h.2.1⟩, if_neg fun h => h3 ⟨h.1, h.2.1⟩]

/-! ### Ops placed in the slot queues (R59, R60) -/

theorem slotNum_lt (sl : Slot) : slotNum sl < 6 := by cases sl <;> decide

theorem slotNum_injective : Function.Injective slotNum := by
  intro a b h
  cases a <;> cases b <;> first | rfl | exact absurd h (by decide)

/-- Queues of which some get one entry more at their end. -/
theorem rd_foldl_append {α : Type} (on : Slot → Bool) (x : Slot → α) (sl : Slot) : ∀ (l : List Slot) (q : Vector (List α) 6), l.Nodup →
    rd (l.foldl (fun q sl => if on sl then wr q (slotNum sl) (rd q (slotNum sl) [] ++ [x sl]) else q) q) (slotNum sl) [] =
      rd q (slotNum sl) [] ++ if sl ∈ l ∧ on sl = true then [x sl] else []
  | [], q, _ => by simp
  | a :: l, q, hl => by
    obtain ⟨ha, hl⟩ := List.nodup_cons.1 hl
    rw [List.foldl_cons, rd_foldl_append on x sl l _ hl]
    by_cases h : a = sl
    · subst h
      cases hon : on a
      · simp
      · simp [ha, rd_wr_same _ _ _ _ (slotNum_lt a)]
    · have hq : rd (if on a then wr q (slotNum a) (rd q (slotNum a) [] ++ [x a]) else q) (slotNum sl) [] = rd q (slotNum sl) [] := by
        split
        · exact rd_wr_ne _ _ _ _ _ fun hn => h (slotNum_injective hn)
        · rfl
      simp [hq, Ne.symm h]

theorem core_noteProf (s : State) (n : Nat) (e : EmitEntry) (prof m : Nat) : (noteProf s n e prof).core m = s.core m := by
  unfold noteProf
  split <;> rfl

theorem emitQ_appendOps {s : State} {n : Nat} (b : BitVec 384) (e : EmitEntry) (h : n < 320) :
    ((appendOps s n b e).core n).e.emitQ = (s.core n).e.emitQ := by
  rw [appendOps, core_modE_same _ _ _ h]
  rfl

theorem dmiss_appendOps {s : State} {n : Nat} (b : BitVec 384) (e : EmitEntry) (h : n < 320) :
    ((appendOps s n b e).core n).dmiss = (s.core n).dmiss := by
  rw [appendOps, State.modE, core_modCore_same _ _ _ h]

theorem placed_appendOps {s : State} {n : Nat} (b : BitVec 384) (e : EmitEntry) (h : n < 320) : placed s n b e (appendOps s n b e) := by
  intro sl hsl
  have hword : w64 (bfield b (slotSpan sl).1 (slotSpan sl).2) =
      (b.extractLsb' (slotSpan sl).1 (slotSpan sl).2).setWidth 64 := w64_bfield b (by cases sl <;> decide)
  have hq := rd_foldl_append (fun sl => bitAt b (4 + slotNum sl))
    (fun sl => ({ bits := w64 (bfield b (slotSpan sl).1 (slotSpan sl).2), info := bundleInfo b e, notBefore := s.now + 3 } : QOp))
    sl slots (s.core n).e.slotQ (by decide)
  rw [slotQ, appendOps, core_modE_same _ _ _ h]
  simp only [settleFm]
  rw [hq]
  simp only [hsl, true_and, hword, bitAt, ← getLsbD_eq_testBit]
  cases sl <;> rfl

/-! ### An entry placed, or sent back (R57, R60, R75, R85) -/

theorem streamRuns_modCore {s : State} {n : Nat} {f : Core → Core} (hn : n < 320) (hresumed : (f (s.core n)).e.resumed = (s.core n).e.resumed)
    (hstop : (f (s.core n)).stop = (s.core n).stop) (hrestoring : (f (s.core n)).restoring = (s.core n).restoring)
    (huntil : (f (s.core n)).stallUntil = (s.core n).stallUntil) (hwant : (f (s.core n)).stallWant = (s.core n).stallWant) :
    streamRuns (s.modCore n f) n = streamRuns s n := by
  have hstall (t : Nat) : unstalled (f (s.core n)) t = unstalled (s.core n) t := by rw [unstalled, unstalled, huntil, hwant]
  simp only [streamRuns, core_modCore_same _ _ _ hn, hresumed, hstop, hrestoring, hstall, powered_modCore, now_modCore]

theorem slipHeld_iff (c : Core) (e : EmitEntry) : slipHeld c e = true ↔
    e.ctx = .user ∧ ∃ sl ∈ slots, 16 ≤ (e.eseq - position c sl).toNat ∧ (e.eseq - position c sl).toNat < 2 ^ 31 := by
  simp only [slipHeld, Bool.and_eq_true, beq_iff_eq, List.any_eq_true, decide_eq_true_eq]

/-- A fault of the checks of R75, with the header it met. -/
theorem expandFault_header (s : State) (n : Nat) (e : EmitEntry) (cause : BitVec 9) (b : BitVec 384) :
    expandFault s n e 6 cause b = headFaults s n e 6 cause (headerBits b) := by
  rw [expandFault, headFaults, if_pos rfl, w64_header]

/-- A fault met before a bundle is at hand. -/
theorem expandFault_unread (s : State) (n : Nat) (e : EmitEntry) (cause : BitVec 9) :
    expandFault s n e 7 cause 0 = headFaults s n e 7 cause 0 := rfl

/-- The state after the expander met a fault of an entry that it gave back: a stopped stream leaves it so. -/
def givenBack (s : State) (n : Nat) (e : EmitEntry) (src : Nat) (cause : BitVec 9) (bits : W64) : State :=
  let back := s.modE n fun x => { x with emitQ := e :: x.emitQ }
  if streamRuns s n then headFaults back n e src cause bits else back

section
variable (s : State) (n : Nat) (e : EmitEntry) (raw : BitVec 384)

theorem placeBundle_badProfile (h : 4 ≤ ((patchBundle raw e).extractLsb' 0 4).toNat) :
    placeBundle s n e raw = givenBack s n e 6 0x035 (headerBits (patchBundle raw e)) := by
  rw [toNat_extractLsb'_eq_bits] at h
  simp only [placeBundle, bfield, if_pos h, expandFault_header, givenBack]

theorem placeBundle_badHeader (h : ((patchBundle raw e).extractLsb' 0 4).toNat < 4) (hbad : headerBad (patchBundle raw e) = true) :
    placeBundle s n e raw = givenBack s n e 6 0x031 (headerBits (patchBundle raw e)) := by
  rw [toNat_extractLsb'_eq_bits] at h
  simp only [placeBundle, bfield, if_neg (Nat.not_le.2 h), if_pos hbad, expandFault_header, givenBack]

theorem placeBundle_good (hn : n < 320) (h : ((patchBundle raw e).extractLsb' 0 4).toNat < 4) (hgood : headerBad (patchBundle raw e) = false) :
    placed s n (patchBundle raw e) e (placeBundle s n e raw) ∧ ((placeBundle s n e raw).core n).e.emitQ = (s.core n).e.emitQ ∧
      ((placeBundle s n e raw).core n).dmiss = (s.core n).dmiss := by
  rw [toNat_extractLsb'_eq_bits] at h
  have heq : placeBundle s n e raw = noteProf (appendOps s n (patchBundle raw e) e) n e (bfield (patchBundle raw e) 0 4) := by
    simp only [placeBundle, bfield, if_neg (Nat.not_le.2 h), hgood, Bool.false_eq_true, if_false]
  simp only [heq, placed, core_noteProf]
  exact ⟨placed_appendOps _ _ hn, emitQ_appendOps _ _ hn, dmiss_appendOps _ _ hn⟩

end

/-- The expander with an entry that it does not hold back. -/
theorem execExpandBundle_takes {s : State} {core : Nat} {e : EmitEntry} (hruns : expanderRuns s core = true)
    (hnext : nextEntry (s.core core) = some e) (hheld : slipHeld (s.core core) e = false) :
    execExpandBundle core s = match e.lit with
      | some b => if queueFull (s.core core) b then .next s else .next (placeBundle (takeEntry s core e) core e b)
      | none =>
        if (dictOf (s.core core) e.ctx).2 ≤ e.index.toNat then .next (expandFault s core e 7 0x03A 0)
        else
          match (s.core core).dcache.lookup (e.ctx, e.index) with
          | some b =>
            if queueFull (s.core core) b then .next s
            else .next (placeBundle
              (takeEntry (s.modCore core fun c => { c with dcache := cachePut c.dcache (e.ctx, e.index) b }) core e) core e b)
          | none => .next ((takeEntry s core e).modCore core fun c => { c with dmiss := some { entry := e, readyAt := s.now + 16 } }) := by
  simp only [execExpandBundle, hruns, hnext, hheld, if_true, Bool.false_eq_true, if_false] <;> rfl

theorem execExpandBundle_holds {s : State} {core : Nat} {e : EmitEntry} (hruns : expanderRuns s core = true)
    (hnext : nextEntry (s.core core) = some e) (hheld : slipHeld (s.core core) e = true) : execExpandBundle core s = .next s := by
  simp only [execExpandBundle, hruns, hnext, hheld, if_true]

/-- What an entry whose bundle is at hand comes to. -/
theorem expands_of_place {s s1 : State} {core : Nat} {e : EmitEntry} {b0 : BitVec 384} (hn : core < 320)
    (hexec : execExpandBundle core s = if queueFull (s.core core) b0 then .next s else .next (placeBundle s1 core e b0)) :
    let b := patchBundle b0 e
    let back := s1.modE core fun x => { x with emitQ := e :: x.emitQ }
    let raises (cause : BitVec 9) : Prop := streamRuns s1 core = true →
      exec (.expandBundle core) s = .next (headFaults back core e 6 cause (headerBits b))
    (queueFull (s.core core) b0 = true → exec (.expandBundle core) s = .next s) ∧
    (queueFull (s.core core) b0 = false → 4 ≤ (b.extractLsb' 0 4).toNat → raises 0x035) ∧
    (queueFull (s.core core) b0 = false → (b.extractLsb' 0 4).toNat < 4 → headerBad b = true → raises 0x031) ∧
    (queueFull (s.core core) b0 = false → (b.extractLsb' 0 4).toNat < 4 → headerBad b = false →
      ∃ t, exec (.expandBundle core) s = .next t ∧ placed s1 core b e t ∧ (t.core core).e.emitQ = (s1.core core).e.emitQ) := by
  have hroom (h : queueFull (s.core core) b0 = false) : exec (.expandBundle core) s = .next (placeBundle s1 core e b0) :=
    hexec.trans (by rw [h]; rfl)
  refine ⟨fun h => hexec.trans (by rw [h]; rfl), fun h hp hruns => ?_, fun h hp hbad hruns => ?_, fun h hp hgood => ?_⟩
  · rw [hroom h, placeBundle_badProfile _ _ _ _ hp, givenBack, if_pos hruns]
  · rw [hroom h, placeBundle_badHeader _ _ _ _ hp hbad, givenBack, if_pos hruns]
  · obtain ⟨hplaced, hq, -⟩ := placeBundle_good s1 core e b0 hn hp hgood
    exact ⟨_, hroom h, hplaced, hq⟩

section
variable {s : State} {core : Nat} {d : DictMiss} (hn : core < 320) (hd : (s.core core).dmiss = some d)
include hd

theorem execDictionaryMissFill_waits (h : ¬(d.readyAt ≤ s.now ∧ queueFull (s.core core) (readEntry (s.core core) d.entry) = false)) :
    execDictionaryMissFill core s = .next s := by
  rw [not_and_or, Nat.not_le, Bool.not_eq_false] at h
  simp only [execDictionaryMissFill, hd, if_pos h]

section
variable (hdue : d.readyAt ≤ s.now ∧ queueFull (s.core core) (readEntry (s.core core) d.entry) = false)
include hdue

theorem execDictionaryMissFill_due : execDictionaryMissFill core s =
    if (lostKind s (.loft core) ((dictOf (s.core core) d.entry.ctx).1 + 48 * d.entry.index.toNat) 48).isSome then
      .next (loseEntry s core d.entry)
    else .next (placeBundle (s.modCore core fun c => { c with
      dmiss := none, dcache := cachePut c.dcache (d.entry.ctx, d.entry.index) (readEntry (s.core core) d.entry) }) core d.entry
        (readEntry (s.core core) d.entry)) := by
  have h : ¬(s.now < d.readyAt ∨ queueFull (s.core core) (readEntry (s.core core) d.entry) = true) := by
    rw [not_or, Nat.not_lt, Bool.not_eq_true]
    exact hdue
  simp only [execDictionaryMissFill, hd, if_neg h]

end
end

theorem loseEntry_eq {s : State} {n : Nat} (e : EmitEntry) (hn : n < 320) : loseEntry s n e =
    (let back := (s.modCore n fun c => { c with dmiss := none }).modE n fun x => { x with emitQ := e :: x.emitQ }
     if streamRuns s n then headFaults back n e 7 0x149 0 else back) := by
  have hruns : streamRuns ((s.modCore n fun c => { c with dmiss := none }).modE n fun x => { x with emitQ := e :: x.emitQ }) n =
      streamRuns s n := by
    have hgone : streamRuns (s.modCore n fun c => { c with dmiss := none }) n = streamRuns s n := streamRuns_modCore hn rfl rfl rfl rfl rfl
    rw [← hgone]
    exact streamRuns_modCore (f := fun c => { c with e := { c.e with emitQ := e :: c.e.emitQ } }) hn rfl rfl rfl rfl rfl
  simp only [loseEntry, hruns, expandFault_unread]

theorem bundlesExpand : BundlesExpand := by
  refine ⟨getLsbD_patchBundle, ?_, ?_⟩
  · intro s core e hn hruns hnext c i taken held expands
    have hopen (h : ¬held) : slipHeld c e = false := Bool.not_eq_true _ ▸ fun hs => h ((slipHeld_iff c e).1 hs)
    refine ⟨fun h => ?_, fun h b0 hlit => ?_, fun h hlit hpast => ?_, fun h hlit hin => ⟨fun b0 hcached => ?_, fun hmiss => ?_⟩⟩
    · exact execExpandBundle_holds hruns hnext ((slipHeld_iff c e).2 h)
    · exact expands_of_place hn (by rw [execExpandBundle_takes hruns hnext (hopen h), hlit])
    · show execExpandBundle core s = _
      rw [execExpandBundle_takes hruns hnext (hopen h), hlit]
      simp only [c, if_pos hpast, expandFault_unread]
    · exact expands_of_place hn (by
        rw [execExpandBundle_takes hruns hnext (hopen h), hlit]
        simp only [c, if_neg (Nat.not_le.2 hin), hcached])
    · show execExpandBundle core s = _
      rw [execExpandBundle_takes hruns hnext (hopen h), hlit]
      simp only [c, if_neg (Nat.not_le.2 hin), hmiss, taken]
  · intro s core d hn hd b0 b fill filled gone due lost back bad
    have hruns : streamRuns filled core = streamRuns s core := streamRuns_modCore hn rfl rfl rfl rfl rfl
    have hfill (hdue : due) (hl : ¬lost) : fill = .next (placeBundle filled core d.entry b0) :=
      (execDictionaryMissFill_due hd hdue).trans (if_neg hl)
    refine ⟨execDictionaryMissFill_waits hd, fun hdue hl => ?_, fun hdue hl hp => ?_, fun hdue hl hp hbad => ?_, fun hdue hl hp hgood => ?_⟩
    · exact ((execDictionaryMissFill_due hd hdue).trans (if_pos hl)).trans (congrArg _ (loseEntry_eq d.entry hn))
    · exact (hfill hdue hl).trans (by rw [placeBundle_badProfile _ _ _ _ hp, givenBack, hruns])
    · exact (hfill hdue hl).trans (by rw [placeBundle_badHeader _ _ _ _ hp hbad, givenBack, hruns])
    · obtain ⟨hplaced, -, hmiss⟩ := placeBundle_good filled core d.entry b0 hn hp hgood
      refine ⟨_, hfill hdue hl, hplaced, hmiss.trans ?_⟩
      rw [core_modCore_same _ _ _ hn]

end Sys2Proof.Machine
end

section
/-! O59: results as they land. -/

namespace Sys2Proof.Machine

open Sys2Proof.Claims

/-! ### The order of the writes (R62) -/

theorem insertLanding_perm (l : Landing) : ∀ r, (insertLanding l r).Perm (l :: r)
  | [] => .refl _
  | x :: r => by
    unfold insertLanding
    split
    · exact .refl _
    · exact ((insertLanding_perm l r).cons x).trans (.swap l x r)

theorem sortLandings_perm : ∀ r, (sortLandings r).Perm r
  | [] => .refl _
  | l :: r => (insertLanding_perm l (sortLandings r)).trans ((sortLandings_perm r).cons l)

theorem sooner_trans {x y z : Landing} (h : sooner x y) (h' : sooner y z) : sooner x z := by
  unfold sooner at *
  omega

/-- A result stands before each that does not come strictly before it. -/
theorem sooner_of_not {x y : Landing} (h : ¬(x.at_ < y.at_ ∨ (x.at_ = y.at_ ∧ x.seq < y.seq))) : sooner y x := by
  unfold sooner
  omega

theorem insertLanding_sorted (l : Landing) : ∀ r : List Landing, r.Pairwise sooner → (insertLanding l r).Pairwise sooner
  | [], _ => List.pairwise_singleton _ _
  | x :: r, h => by
    obtain ⟨hx, hr⟩ := List.pairwise_cons.1 h
    unfold insertLanding
    split
    next hlt =>
      have hl : sooner l x := hlt.imp_right fun h => ⟨h.1, h.2.le⟩
      exact List.pairwise_cons.2 ⟨fun y hy => (List.mem_cons.1 hy).elim (· ▸ hl) fun hy => sooner_trans hl (hx y hy), h⟩
    next hge =>
      refine List.pairwise_cons.2 ⟨fun y hy => ?_, insertLanding_sorted l r hr⟩
      exact (List.mem_cons.1 ((insertLanding_perm l r).subset hy)).elim (· ▸ sooner_of_not hge) (hx y)

theorem sortLandings_sorted : ∀ r, (sortLandings r).Pairwise sooner
  | [] => .nil
  | l :: r => insertLanding_sorted l _ (sortLandings_sorted r)

/-- The results that become readable in the next cycle, of those that a choice selects, are written in order. -/
theorem lands_landDue {s : State} {core : Nat} {i : Instr} {which : Landing → Bool} (hexec : exec i s = .next (landDue s core which)) :
    Lands s core i fun l => decide (l.at_ ≤ s.now + 1) && which l :=
  ⟨_, sortLandings_perm _, sortLandings_sorted _, hexec⟩

/-! ### One register written (R66, R67) -/

theorem bitAt_setBit {w i : Nat} (b : BitVec w) (v : Bool) (j : Nat) (h : i < w) :
    bitAt (setBit b i v) j = if j = i then v else bitAt b j := by
  rw [bitAt, ← getLsbD_eq_testBit, setBit, getLsbD_setBits _ _ _ (by omega)]
  by_cases hj : j = i
  · subst hj
    cases v <;> simp
  · rw [if_neg (by omega), if_neg hj]
    rfl

/-- A register of which the bits of a mask are replaced. -/
theorem getLsbD_merge {w : Nat} (old val sel : BitVec w) {k : Nat} (hk : k < w) :
    ((old &&& ~~~sel) ||| (val &&& sel)).getLsbD k = if sel.getLsbD k = true then val.getLsbD k else old.getLsbD k := by
  rw [BitVec.getLsbD_or, BitVec.getLsbD_and, BitVec.getLsbD_and, BitVec.getLsbD_not]
  cases sel.getLsbD k <;> simp [hk]

/-- The bytes below `k` that a mask enables, as a number. -/
def byteSum (m : M512) (k : Nat) : Nat := (List.range k).foldl (fun acc j => if m.toNat.testBit j then acc + 255 * 2 ^ (8 * j) else acc) 0

theorem byteSum_succ (m : M512) (k : Nat) : byteSum m (k + 1) = 2 ^ (8 * k) * (if m.toNat.testBit k then 255 else 0) + byteSum m k := by
  have h : byteSum m (k + 1) = if m.toNat.testBit k then byteSum m k + 255 * 2 ^ (8 * k) else byteSum m k := by
    rw [byteSum, List.range_succ, List.foldl_append]
    rfl
  rw [h]
  split <;> ring

theorem byteSum_lt (m : M512) : ∀ k, byteSum m k < 2 ^ (8 * k)
  | 0 => Nat.one_pos
  | k + 1 => by
    have h := byteSum_lt m k
    rw [byteSum_succ, Nat.mul_succ, pow_add]
    split <;> omega

theorem testBit_byteSum (m : M512) (k j : Nat) : (byteSum m k).testBit j = (decide (j < 8 * k) && m.toNat.testBit (j / 8)) := by
  induction k with
  | zero => simp [byteSum]
  | succ k ih =>
    rw [byteSum_succ, Nat.testBit_two_pow_mul_add _ (byteSum_lt m k), ih]
    have hbyte (on : Bool) (i : Nat) : (if on then 255 else 0).testBit i = (decide (i < 8) && on) := by
      cases on
      · simp
      · rw [if_pos rfl, show 255 = 2 ^ 8 - 1 from rfl, Nat.testBit_two_pow_sub_one, Bool.and_true]
    rw [hbyte]
    by_cases hj : j < 8 * k
    · simp [hj, show j < 8 * (k + 1) by omega]
    · by_cases hj' : j < 8 * (k + 1)
      · simp [hj, hj', show j - 8 * k < 8 by omega, show j / 8 = k by omega]
      · simp [hj, hj', show ¬(j - 8 * k < 8) by omega]

theorem getLsbD_byteMask (m : M512) {j : Nat} (h : j < 4096) : (byteMask m).getLsbD j = m.getLsbD (j / 8) := by
  rw [show byteMask m = BitVec.ofNat 4096 (byteSum m 512) from rfl, BitVec.getLsbD_ofNat, testBit_byteSum]
  simp [h, getLsbD_eq_testBit]

theorem sReg_sSet (e : Engine) {i : Nat} (v : W64) (j : Nat) (hi : i < 64) :
    sReg (sSet e i v) j = if j = i ∧ i ≠ 0 then v else sReg e j := by
  by_cases h0 : i = 0
  · simp [sSet, h0]
  · by_cases hj : j = i
    · simp [sSet, sReg, h0, hj, rd_wr_same _ _ _ _ hi]
    · simp [sSet, sReg, h0, hj, rd_wr_ne _ _ _ _ _ (Ne.symm hj)]

theorem qReg_qSet (e : Engine) {i : Nat} (b : Bool) (j : Nat) (hi : i < 16) :
    qReg (qSet e i b) j = if j = i ∧ i ≠ 0 then b else qReg e j := by
  by_cases h0 : i = 0
  · simp [qSet, h0]
  · by_cases hj : j = i
    · simp [qSet, qReg, h0, hj, bitAt_setBit _ _ _ hi]
    · simp [qSet, qReg, h0, hj, bitAt_setBit _ _ _ hi]

theorem mReg_mSet (e : Engine) {i : Nat} (val sel : M512) (j : Nat) {k : Nat} (hi : i < 8) (hk : k < 512) :
    (mReg (mSet e i val sel) j).getLsbD k =
      if j = i ∧ i ≠ 0 ∧ sel.getLsbD k = true then val.getLsbD k else (mReg e j).getLsbD k := by
  by_cases h0 : i = 0
  · simp [mSet, h0]
  · by_cases hj : j = i
    · have hreg : mReg (mSet e i val sel) i = (mReg e i &&& ~~~sel) ||| (val &&& sel) := by
        simp [mSet, mReg, h0, rd_wr_same _ _ _ _ hi]
      rw [hj, hreg, getLsbD_merge _ _ _ hk]
      simp [h0]
    · have hreg : mReg (mSet e i val sel) j = mReg e j := by simp [mSet, mReg, h0, rd_wr_ne _ _ _ _ _ (Ne.symm hj)]
      rw [hreg, if_neg fun h => hj h.1]

/-- A vector register of which some bits are replaced. -/
theorem vReg_wr (e : Engine) {i : Nat} (val sel : V4096) (j : Nat) {k : Nat} (hi : i < 32) (hk : k < 4096) :
    (vReg { e with v := wr e.v i ((vReg e i &&& ~~~sel) ||| (val &&& sel)) } j).getLsbD k =
      if j = i ∧ sel.getLsbD k = true then val.getLsbD k else (vReg e j).getLsbD k := by
  by_cases hj : j = i
  · rw [vReg, hj, rd_wr_same _ _ _ _ hi, getLsbD_merge _ _ _ hk]
    simp
  · rw [vReg, rd_wr_ne _ _ _ _ _ (Ne.symm hj), if_neg fun h => hj h.1]
    rfl

/-- A vector register of which some bytes are replaced. -/
theorem vReg_vSet (e : Engine) {i : Nat} (val : V4096) (sel : M512) (j : Nat) {k : Nat} (hi : i < 32) (hk : k < 512) :
    (vReg (vSet e i val sel) j).extractLsb' (8 * k) 8 =
      if j = i ∧ sel.getLsbD k = true then val.extractLsb' (8 * k) 8 else (vReg e j).extractLsb' (8 * k) 8 := by
  refine BitVec.eq_of_getLsbD_eq fun r hr => ?_
  have hbit := vReg_wr e val (byteMask sel) j hi (show 8 * k + r < 4096 by omega)
  rw [getLsbD_byteMask _ (by omega), show (8 * k + r) / 8 = k by omega] at hbit
  rw [apply_ite (BitVec.getLsbD · r), BitVec.getLsbD_extractLsb', BitVec.getLsbD_extractLsb', BitVec.getLsbD_extractLsb']
  simp only [hr, decide_true, Bool.true_and]
  exact hbit

theorem resultsLand : ResultsLand := by
  refine ⟨fun s core _ => ⟨lands_landDue rfl, lands_landDue rfl, _, sortLandings_perm _, sortLandings_sorted _, rfl⟩, ?_⟩
  intro s n i j hn e after
  have hafter (f : Engine → Engine) : ((s.modE n f).core n).e = f e := core_modE_same _ _ _ hn
  refine ⟨fun v hi hj => ?_, fun b hi hj => ?_, fun val sel k hi hj hk => ?_, fun val sel k hi hj hk => ?_, fun val sel k hi hj hk => ?_⟩
  · simp only [after, applyWrite, hafter, sReg_sSet e v j hi]
  · simp only [after, applyWrite, hafter, qReg_qSet e b j hi]
  · simp only [after, applyWrite, hafter, vReg_vSet e val sel j hi hk]
  · simp only [after, applyWrite, hafter, vReg_wr e val sel j hi hk]
  · simp only [after, applyWrite, hafter, mReg_mSet e val sel j hi hk]

end Sys2Proof.Machine

open Sys2Proof Sys2Proof.Machine Sys2Proof.Claims

/-- Settles O59, by the cases of an entry at the expander and the order in which results are sorted. -/
theorem engineStream : Obligations.EngineStream := by
  unfold Obligations.EngineStream
  exact ⟨bundlesExpand, resultsLand⟩

end

section
/-! O39: what the ops of the S, V and M slots leave as they issue. -/

namespace Sys2Proof.Machine

open Sys2Proof.Claims

/-! ### What an op keeps of its core -/

/-- An engine with the generator's user context and the general registers of another. -/
structure SameFiles (e e' : Engine) : Prop where
  user : e'.user = e.user
  s : e'.s = e.s
  q : e'.q = e.q
  v : e'.v = e.v
  m : e'.m = e.m
  ma : e'.ma = e.ma

namespace SameFiles

variable {e e' e'' : Engine}

theorem refl (e : Engine) : SameFiles e e := ⟨rfl, rfl, rfl, rfl, rfl, rfl⟩

theorem trans (h : SameFiles e e') (h' : SameFiles e' e'') : SameFiles e e'' :=
  ⟨h'.user.trans h.user, h'.s.trans h.s, h'.q.trans h.q, h'.v.trans h.v, h'.m.trans h.m, h'.ma.trans h.ma⟩

theorem sameRegisters (h : SameFiles e e') : SameRegisters e e' := by
  intro k
  simp only [sReg, qReg, vReg, mReg, h.s, h.q, h.v, h.m, h.ma, and_self]

end SameFiles

/-- A core whose scratchpad, Loft, L1, write buffer, firmware context, user context and general registers are those of another. -/
structure SameStores (c c' : Core) : Prop where
  scratch : c'.scratch = c.scratch
  loft : c'.loft = c.loft
  l1 : c'.l1 = c.l1
  wbuf : c'.wbuf = c.wbuf
  fw : c'.fw = c.fw
  files : SameFiles c.e c'.e

namespace SameStores

variable {c c' c'' : Core}

theorem refl (c : Core) : SameStores c c := ⟨rfl, rfl, rfl, rfl, rfl, .refl _⟩

theorem trans (h : SameStores c c') (h' : SameStores c' c'') : SameStores c c'' :=
  ⟨h'.scratch.trans h.scratch, h'.loft.trans h.loft, h'.l1.trans h.l1, h'.wbuf.trans h.wbuf, h'.fw.trans h.fw, h.files.trans h'.files⟩

end SameStores

/-- A change of one core is seen at that core, or nowhere. -/
theorem core_modCore_cases (s : State) (n m : Nat) (f : Core → Core) :
    (s.modCore n f).core m = s.core m ∨ n = m ∧ (s.modCore n f).core m = f (s.core m) := by
  by_cases hm : n = m
  · subst hm
    by_cases hn : n < 320
    · exact .inr ⟨rfl, core_modCore_same s n f hn⟩
    · exact .inl (by rw [modCore_def, setCore_ge (Nat.not_lt.1 hn)])
  · exact .inl (core_modCore_ne s n m f hm)

/-- A fault of the user context changes no core but as the stop it asks for. -/
theorem core_raise_user {s : State} {n : Nat} {fi : FaultInfo} (h : fi.ctx = .user) (m : Nat) :
    ∃ st nx hd, (raise s n fi).core m = { s.core m with stop := st, stopNext := nx, held := hd } ∧ (n ≠ m → (raise s n fi).core m = s.core m) := by
  have hset (c : Core) (hc : ∃ st nx hd, c = { s.core n with stop := st, stopNext := nx, held := hd }) :
      ∃ st nx hd, (s.setCore n c).core m = { s.core m with stop := st, stopNext := nx, held := hd } ∧
        (n ≠ m → (s.setCore n c).core m = s.core m) := by
    obtain ⟨st, nx, hd, rfl⟩ := hc
    rcases core_modCore_cases s n m fun c => { c with stop := st, stopNext := nx, held := hd } with heq | ⟨rfl, heq⟩
    · exact ⟨_, _, _, heq, fun _ => heq⟩
    · exact ⟨_, _, _, heq, fun hne => absurd rfl hne⟩
  have hself : ∃ st nx hd, s.core m = { s.core m with stop := st, stopNext := nx, held := hd } ∧ (n ≠ m → s.core m = s.core m) :=
    ⟨_, _, _, rfl, fun _ => rfl⟩
  unfold raise
  simp only [h, reduceCtorEq, if_false]
  repeat' split
  all_goals first | exact hself | exact hset _ ⟨_, _, _, rfl⟩

/-! ### The frame of an op of the S, V and M slots -/

/-- What an op of core `n` leaves: everything but cores, of other cores all but the scratchpad banks that M accesses hold, and of its own what it
keeps of its stores and registers. -/
structure OpFrame (n : Nat) (s t : State) : Prop where
  rest : { t with cores := s.cores } = s
  others : ∀ k, k ≠ n → t.core k = { s.core k with e := { (s.core k).e with mBusy := (t.core k).e.mBusy } }
  endStores : (t.core n).endStores = (s.core n).endStores
  own : SameStores (s.core n) (t.core n)

namespace OpFrame

variable {n : Nat} {s t u : State}

theorem refl (n : Nat) (s : State) : OpFrame n s s := ⟨rfl, fun _ _ => rfl, rfl, .refl _⟩

theorem trans (h : OpFrame n s t) (h' : OpFrame n t u) : OpFrame n s u := by
  refine ⟨?_, fun k hk => ?_, h'.endStores.trans h.endStores, h.own.trans h'.own⟩
  · conv_rhs => rw [← h.rest, ← h'.rest]
  · rw [h'.others k hk, h.others k hk]

theorem cur (h : OpFrame n s t) : t.cur = s.cur := (congrArg State.cur h.rest :)

theorem now (h : OpFrame n s t) : t.now = s.now := (congrArg State.now h.rest :)

/-- A change of the core's own engine. -/
theorem modE (s : State) (n : Nat) {f : Engine → Engine} (hf : ∀ e, SameFiles e (f e) := by exact fun _ => ⟨rfl, rfl, rfl, rfl, rfl, rfl⟩) :
    OpFrame n s (s.modE n f) := by
  refine ⟨rfl, fun k hk => ?_, ?_, ?_⟩
  · rw [State.modE, core_modCore_ne _ _ _ _ (Ne.symm hk)]
  · rcases core_modCore_cases s n n fun c => { c with e := f c.e } with h | ⟨-, h⟩ <;> rw [State.modE, h]
  · rcases core_modCore_cases s n n fun c => { c with e := f c.e } with h | ⟨-, h⟩
    · rw [State.modE, h]
      exact .refl _
    · rw [State.modE, h]
      exact ⟨rfl, rfl, rfl, rfl, rfl, hf _⟩

/-- Banks held on any core. -/
theorem holdBanks (s : State) (n core last : Nat) (b : BitVec 16) : OpFrame n s (holdBanks s core last b) := by
  have hcase (m : Nat) := core_modCore_cases s core m fun c => { c with e := { c.e with mBusy := (last, b) :: c.e.mBusy } }
  refine ⟨rfl, fun k _ => ?_, ?_, ?_⟩
  · rcases hcase k with h | ⟨-, h⟩ <;> rw [Machine.holdBanks, State.modE, h]
  · rcases hcase n with h | ⟨-, h⟩ <;> rw [Machine.holdBanks, State.modE, h]
  · rcases hcase n with h | ⟨-, h⟩
    · rw [Machine.holdBanks, State.modE, h]
      exact .refl _
    · rw [Machine.holdBanks, State.modE, h]
      exact ⟨rfl, rfl, rfl, rfl, rfl, ⟨rfl, rfl, rfl, rfl, rfl, rfl⟩⟩

/-- A fault of the user context. -/
theorem raise (s : State) (n : Nat) {fi : FaultInfo} (h : fi.ctx = .user) : OpFrame n s (raise s n fi) := by
  refine ⟨raise_frame s n fi h, fun k hk => ?_, ?_, ?_⟩
  · obtain ⟨st, nx, hd, -, hne⟩ := core_raise_user h k (s := s) (n := n)
    rw [hne (Ne.symm hk)]
  · obtain ⟨st, nx, hd, heq, -⟩ := core_raise_user h n (s := s) (n := n)
    rw [heq]
  · obtain ⟨st, nx, hd, heq, -⟩ := core_raise_user h n (s := s) (n := n)
    rw [heq]
    exact ⟨rfl, rfl, rfl, rfl, rfl, .refl _⟩

theorem opFault (s : State) (n : Nat) {info : BInfo} (h : info.ctx = .user) (b : W64) (slot : Slot) (cause : BitVec 9) (a d0 d1 : W64) :
    OpFrame n s (opFault s info b slot n cause a d0 d1) := by
  rw [Machine.opFault, dropFirmwareOp, if_pos h]
  exact raise s n h

theorem ite {c : Prop} [Decidable c] (h : OpFrame n s t) (h' : OpFrame n s u) : OpFrame n s (if c then t else u) := by
  split
  · exact h
  · exact h'

end OpFrame

/-- A state that an op would go on with. -/
def Goes (P : State → Prop) : Iss → Prop
  | .go t _ => P t
  | _ => True

theorem goes_ite {P : State → Prop} {c : Prop} [Decidable c] {a b : Iss} (h : Goes P a) (h' : Goes P b) : Goes P (if c then a else b) := by
  split
  · exact h
  · exact h'

/-- An op frames the state when what its body goes on with does. -/
theorem slotIssue_frame {s t : State} {tagw : BitVec 8} {taga : BitVec 4} {unitOk fieldsOk : Bool} {body : State → Option (BitVec 3) → Iss}
    (hctx : s.cur.info.ctx = .user) (h : slotIssue s tagw taga unitOk fieldsOk body = .next t)
    (hbody : ∀ tag, Goes (OpFrame s.cur.core s) (body s tag)) : OpFrame s.cur.core s t := by
  have hfault (c : BitVec 9) (a d0 d1 : W64) : OpFrame s.cur.core s (slotFault s c a d0 d1) := .opFault s _ hctx _ _ _ _ _ _
  rcases slotIssue_cases h with rfl | rfl | ⟨c, a, d0, d1, -, rfl⟩ | ⟨s', k, hgo, rfl⟩
  · exact .refl _ _
  · exact hfault _ _ _ _
  · exact hfault _ _ _ _
  · have hs' : OpFrame s.cur.core s s' := by simpa only [hgo, Goes] using hbody (tagOf taga)
    refine hs'.trans ?_
    rw [issued, modCurE, ← hs'.cur]
    exact .modE _ _

/-! ### The shared parts of the ops' bodies -/

section
variable {s s' : State} {k : State → Iss}

theorem opFrame_modCurE (h : OpFrame s.cur.core s s') {f : Engine → Engine}
    (hf : ∀ e, SameFiles e (f e) := by exact fun _ => ⟨rfl, rfl, rfl, rfl, rfl, rfl⟩) :
    OpFrame s.cur.core s (modCurE s' f) := by
  refine h.trans ?_
  rw [modCurE, ← h.cur]
  exact .modE _ _ hf

theorem opFrame_land (h : OpFrame s.cur.core s s') (lat : Nat) (ws : List RegWrite) (tag : Option (BitVec 3)) :
    OpFrame s.cur.core s (land s' lat ws tag) := by
  unfold land landAt landSince
  exact opFrame_modCurE h

theorem opFrame_tagOnly (h : OpFrame s.cur.core s s') (tag : Option (BitVec 3)) : OpFrame s.cur.core s (tagOnly s' tag) := by
  unfold tagOnly
  split
  · exact h
  · exact opFrame_land h _ _ _

theorem goes_landGo (h : OpFrame s.cur.core s s') (lat : Nat) (ws : List RegWrite) (tag : Option (BitVec 3)) :
    Goes (OpFrame s.cur.core s) (landGo s' lat ws tag) := opFrame_land h lat ws tag

theorem goes_withFm {P : State → Prop} (s : State) (n : Nat) {go : BitVec 32 → Iss} (h : ∀ v, Goes P (go v)) : Goes P (withFm s n go) := by
  unfold withFm
  split
  · trivial
  · exact h _

theorem goes_popRow (n : Nat) {k : State → V4096 → Iss}
    (h : ∀ s' row, OpFrame s.cur.core s s' → Goes (OpFrame s.cur.core s) (k s' row)) : Goes (OpFrame s.cur.core s) (popRow s n k) := by
  unfold popRow
  dsimp only
  split
  · refine goes_ite (goes_ite trivial trivial) (h _ _ ?_)
    exact opFrame_modCurE (.refl _ _)
  · exact goes_ite trivial trivial

theorem goes_withPop (f : VOp) {k : State → V4096 → Iss}
    (h : ∀ s' row, OpFrame s.cur.core s s' → Goes (OpFrame s.cur.core s) (k s' row)) : Goes (OpFrame s.cur.core s) (withPop s f k) :=
  goes_ite (goes_popRow _ h) (h s 0 (.refl _ _))

end

/-! ### S and V ops -/

section
variable {s t : State} (hctx : s.cur.info.ctx = .user)
include hctx

theorem sIssue_frame {tagw : BitVec 8} {taga pred : BitVec 4} {fieldsOk : Bool} {body : State → Option (BitVec 3) → Iss}
    (h : sIssue s tagw taga pred fieldsOk body = .next t) (hbody : ∀ tag, Goes (OpFrame s.cur.core s) (body s tag)) :
    OpFrame s.cur.core s t :=
  slotIssue_frame hctx h fun tag => goes_ite (hbody tag) (opFrame_tagOnly (.refl _ _) tag)

/-- An S op that lands one result. -/
theorem sLand_frame {tagw : BitVec 8} {taga pred : BitVec 4} {fieldsOk : Bool} {lat : Nat} {ws : State → List RegWrite}
    (h : sIssue s tagw taga pred fieldsOk (fun s tag => landGo s lat (ws s) tag) = .next t) : OpFrame s.cur.core s t :=
  sIssue_frame hctx h fun tag => goes_landGo (.refl _ _) _ _ tag

theorem beatIssue_frame {i : Instr} {f : VOp} {fieldsOk outOfRange : Bool} {lat : Nat} {sel : State → M512} {beat : BeatFn}
    (h : beatIssue s i f fieldsOk outOfRange lat sel beat = .next t) : OpFrame s.cur.core s t := by
  unfold beatIssue vIssue at h
  refine slotIssue_frame hctx h fun tag => goes_ite trivial (goes_withPop f fun s' row hs' => goes_ite (goes_landGo hs' _ _ _) ?_)
  exact opFrame_modCurE (opFrame_land hs' _ _ _)

theorem vOnce_frame {f : VOp} {fieldsOk outOfRange : Bool} {lat : Nat} {writes : State → Nat → M512 → V4096 → List RegWrite}
    (h : vOnce s f fieldsOk outOfRange lat writes = .next t) : OpFrame s.cur.core s t := by
  unfold vOnce vIssue at h
  exact slotIssue_frame hctx h fun _ => goes_ite trivial (goes_withPop f fun _ _ hs' => goes_landGo hs' _ _ _)

theorem blockOp_frame {f : VOp} {packs outOfRange : Bool} {fam : Nat} {width : BitVec 32 → Nat → Nat}
    {writes : State → Nat → M512 → BitVec 32 → Nat → List RegWrite} (h : blockOp s f packs outOfRange fam width writes = .next t) :
    OpFrame s.cur.core s t := by
  unfold blockOp vIssue at h
  refine slotIssue_frame hctx h fun tag => goes_withFm s _ fun v => ?_
  dsimp only
  split
  · trivial
  · exact goes_ite trivial trivial
  · exact goes_ite trivial (goes_landGo (.refl _ _) _ _ _)

theorem execSnop_frame {f : SOp} (h : execSnop f s = .next t) : OpFrame s.cur.core s t :=
  slotIssue_frame hctx h fun tag => opFrame_tagOnly (.refl _ _) tag

theorem execSfb_frame {f : SOp} (h : execSfb f s = .next t) : OpFrame s.cur.core s t :=
  sIssue_frame hctx h fun tag => opFrame_tagOnly (opFrame_land (.refl _ _) _ _ _) tag

theorem execSsetfm_frame {f : SOp} (h : execSsetfm f s = .next t) : OpFrame s.cur.core s t :=
  sIssue_frame hctx h fun tag => opFrame_tagOnly (opFrame_modCurE (.refl _ _)) tag

theorem execSsetch_frame {f : SOp} (h : execSsetch f s = .next t) : OpFrame s.cur.core s t :=
  sIssue_frame hctx h fun tag => goes_ite trivial (goes_ite trivial (goes_landGo (.refl _ _) _ _ tag))

theorem execSwait_frame {f : SOp} (h : execSwait f s = .next t) : OpFrame s.cur.core s t :=
  sIssue_frame hctx h fun tag => goes_ite (goes_landGo (.refl _ _) _ _ tag) (goes_ite (goes_landGo (.refl _ _) _ _ tag)
    (opFrame_modCurE (.refl _ _)))

/-- R139 to R148: the S ops. -/
theorem scalar_frame {i : Instr} (hi : (encodeS i).isSome = true) (h : exec i s = .next t) : OpFrame s.cur.core s t := by
  unfold encodeS at hi
  split at hi
  case h_1 => exact execSnop_frame hctx h
  case h_19 => exact execSfb_frame hctx h
  case h_20 => exact execSsetfm_frame hctx h
  case h_22 => exact execSsetch_frame hctx h
  case h_24 => exact execSwait_frame hctx h
  case h_27 => exact absurd hi Bool.false_ne_true
  -- each of the others lands one result
  all_goals
    simp only [exec_sadd, exec_saddi, exec_ssub, exec_smul, exec_sand, exec_sor, exec_sxor, exec_sshl, exec_sshr, exec_ssra, exec_smin,
      exec_smax, exec_sli, exec_scmp, exec_scmpi, exec_ssel, exec_sms, exec_ssetma, exec_ssetmk, exec_stime, exec_spred, execSadd, execSaddi,
      execSsub, execSmul, execSand, execSor, execSxor, execSshl, execSshr, execSsra, execSmin, execSmax, execSli, execScmp, execScmpi, execSsel,
      execSms, execSsetma, execSsetmk, execStime, execSpred, sRRR, sRI] at h
    exact sLand_frame hctx h

theorem execVnop_frame {f : VOp} (h : execVnop f s = .next t) : OpFrame s.cur.core s t := by
  unfold execVnop vIssue at h
  exact slotIssue_frame hctx h fun tag => opFrame_tagOnly (.refl _ _) tag

theorem execVtopk_frame {f : VOp} (h : execVtopk f s = .next t) : OpFrame s.cur.core s t := by
  unfold execVtopk vIssue at h
  exact slotIssue_frame hctx h fun _ => goes_ite trivial (goes_landGo (.refl _ _) _ _ _)

theorem execVcvt_frame {f : VOp} (h : execVcvt f s = .next t) : OpFrame s.cur.core s t := by
  unfold execVcvt vIssue at h
  refine slotIssue_frame hctx h fun tag => goes_ite (goes_landGo (.refl _ _) _ _ _) (goes_withFm s _ fun v => ?_)
  dsimp only
  split
  · trivial
  · refine goes_ite trivial (goes_ite (goes_landGo (.refl _ _) _ _ _) ?_)
    split
    · trivial
    · exact goes_landGo (.refl _ _) _ _ _

theorem execVpopq_frame {f : VOp} (h : execVpopq f s = .next t) : OpFrame s.cur.core s t := by
  unfold execVpopq vIssue at h
  exact slotIssue_frame hctx h fun _ => goes_popRow _ fun _ _ hs' => goes_landGo hs' _ _ _

/-- R149 to R176: the V ops. -/
theorem vector_frame {i : Instr} (hi : (encodeV i).isSome = true) (h : exec i s = .next t) : OpFrame s.cur.core s t := by
  unfold encodeV at hi
  split at hi
  case h_1 => exact execVnop_frame hctx h
  case h_51 => exact execVtopk_frame hctx h
  case h_52 => exact execVcvt_frame hctx h
  case h_59 => exact execVpopq_frame hctx h
  case h_60 => exact absurd hi Bool.false_ne_true
  -- the block packs and unpacks
  case h_53 | h_54 | h_55 | h_56 =>
    simp only [exec_vpkgm, exec_vupgm, exec_vpkmx, exec_vupmx, execVpkgm, execVupgm, execVpkmx, execVupmx] at h
    exact blockOp_frame hctx h
  -- the ops of one beat
  case h_7 | h_8 | h_22 | h_25 | h_26 | h_27 | h_28 | h_29 | h_30 | h_31 | h_32 | h_39 | h_49 | h_50 | h_57 =>
    simp only [exec_vwadd, exec_vwmul, exec_vcmp, exec_vbcast, exec_viota, exec_vperm, exec_vrot, exec_vcmprs, exec_vexpnd, exec_vscan, exec_vred,
      exec_vfcmp, exec_vfscan, exec_vfred, exec_vrand, execVwadd, execVwmul, execVcmp, execVbcast, execViota, execVperm, execVrot,
      execVcmprs, execVexpnd, execVscan, execVred, execVfcmp, execVfscan, execVfred, execVrand, widen] at h
    exact vOnce_frame hctx h
  -- the ops of one or more beats
  all_goals
    simp only [exec_vadd, exec_vsub, exec_vmul, exec_vmulh, exec_vsadd, exec_vssub, exec_vmin, exec_vmax, exec_vand, exec_vor, exec_vxor, exec_vshl,
      exec_vshr, exec_vsra, exec_vfadd, exec_vfsub, exec_vfmul, exec_vfmin, exec_vfmax, exec_vfdiv, exec_vmad, exec_vsel, exec_vmov,
      exec_vfma, exec_ckprobe, exec_vabs, exec_vclz, exec_vpopc, exec_vfsqrt, exec_vfrcp, exec_vfrsq, exec_vfexp2, exec_vflog2,
      exec_vfsin, exec_vfcos, exec_vftanh, execVadd, execVsub, execVmul, execVmulh, execVsadd, execVssub, execVmin, execVmax, execVand,
      execVor, execVxor, execVshl, execVshr, execVsra, execVfadd, execVfsub, execVfmul, execVfmin, execVfmax, execVfdiv, execVmad,
      execVsel, execVmov, execVfma, execCkprobe, execVabs, execVclz, execVpopc, execVfsqrt, execVfrcp, execVfrsq, execVfexp2, execVflog2,
      execVfsin, execVfcos, execVftanh, elem2, elem1] at h
    exact beatIssue_frame hctx h

end

end Sys2Proof.Machine
end

section
/-! O39: what the ops of the M slot leave as they issue. -/

namespace Sys2Proof.Machine

open Sys2Proof.Claims

/-! ### The shared parts of M ops (R177, R178, R193) -/

section
variable {s s' : State}

theorem goes_mGo (h : OpFrame s.cur.core s s') (occ : Nat) (tag : Option (BitVec 3)) : Goes (OpFrame s.cur.core s) (mGo s' occ tag) :=
  opFrame_modCurE (opFrame_tagOnly h tag)

theorem goes_mChecks {P : State → Prop} (c : Option (BitVec 9)) {k : Iss} (h : Goes P k) : Goes P (mChecks c k) := by
  unfold mChecks
  split
  · trivial
  · exact h

theorem goes_countT {k : State → Iss} (h : ∀ s', OpFrame s.cur.core s s' → Goes (OpFrame s.cur.core s) (k s')) :
    Goes (OpFrame s.cur.core s) (countT s k) :=
  goes_ite trivial (h _ (opFrame_modCurE (.refl _ _)))

theorem goes_ganged {k : GangOp → Iss} (h : ∀ g, Goes (OpFrame s.cur.core s) (k g)) : Goes (OpFrame s.cur.core s) (ganged s k) := by
  unfold ganged
  dsimp only
  split
  · next own lead _ _ =>
    have hk := h lead
    split
    · exact goes_ite trivial trivial
    · exact goes_ite trivial trivial
    · next hgo => exact goes_ite trivial (goes_ite trivial (opFrame_modCurE (by simpa only [hgo, Goes] using hk)))
  · trivial

theorem goes_withLeader {f : MOp} {k : GangOp → Iss} (h : ∀ g, Goes (OpFrame s.cur.core s) (k g)) :
    Goes (OpFrame s.cur.core s) (withLeader s f k) :=
  goes_ite trivial (goes_ite (goes_ganged h) (goes_withFm s _ fun _ => h _))

theorem opFrame_holdBanks (h : OpFrame s.cur.core s s') (core last : Nat) (b : BitVec 16) :
    OpFrame s.cur.core s (holdBanks s' core last b) := h.trans (.holdBanks _ _ _ _ _)

end

/-! ### The first beat of a MACC (R185 to R187) -/

section
variable {s t : State} {core n : Nat} {r : MaccRun}

theorem readBlocks_frame {l : List (BitVec 1024)} (h : readBlocks s core r n = some (t, l)) : OpFrame core s t := by
  unfold readBlocks at h
  split at h
  · split at h
    · cases h
    · cases h
      exact .modE _ _
  · cases h
    exact .holdBanks _ _ _ _ _

theorem sameFiles_setActive (e : Engine) (b : Vector V4096 256) : SameFiles e (setActive e b) := by
  unfold setActive
  split <;> exact ⟨rfl, rfl, rfl, rfl, rfl, rfl⟩

theorem sameFiles_setDrain (e : Engine) (b : Vector V4096 256) : SameFiles e (setDrain e b) := by
  unfold setDrain
  split <;> exact ⟨rfl, rfl, rfl, rfl, rfl, rfl⟩

theorem maccFault_frame (hr : r.info.ctx = .user) (k opnd row j : Nat) : OpFrame core s (maccFault s core r k opnd row j) := by
  unfold maccFault
  refine OpFrame.trans (.modE _ _ fun e => ?_) (.opFault _ _ hr _ _ _ _ _ _)
  dsimp only
  split <;> exact ⟨rfl, rfl, rfl, rfl, rfl, rfl⟩

theorem endChunk_frame (hr : r.info.ctx = .user) (k n : Nat) : OpFrame core s (endChunk s core r k n) := by
  unfold endChunk
  dsimp only
  split
  · exact maccFault_frame hr _ _ _ _
  · exact maccFault_frame hr _ _ _ _
  · have hadd (b : Prop) [Decidable b] (g : Vector V4096 256 → Vector V4096 256) :
        OpFrame core s (if b then s.modE core fun e => setActive e (g (activeBank e)) else s) :=
      .ite (.modE _ _ fun _ => sameFiles_setActive _ _) (.refl _ _)
    exact .ite ((hadd _ _).trans (.modE _ _)) ((hadd _ _).trans (.modE _ _))

/-- A beat that has its blocks holds the banks of the next chunk of A, if it reads that, and goes on to the next beat or ends its chunk. -/
theorem maccBeatOf_holds {got : List (BitVec 1024)}
    (h : readBlocks s core r (beatBlocks (bLayout r.fmb) (r.beat / bPlanes r.fmb) (r.beat % bPlanes r.fmb)) = some (t, got)) :
    ∃ u mark aNext, OpFrame core t u ∧ maccBeatOf s core r =
      if r.beat % bPlanes r.fmb + 1 < bPlanes r.fmb then
        u.modE core fun e => { e with macc := some { withBlocks r got mark aNext with beat := r.beat + 1, next := u.now + 1 } }
      else endChunk u core (withBlocks r got mark aNext) (r.beat / bPlanes r.fmb) ((r.f.beats.toNat + 1) / bPlanes r.fmb) := by
  have h' : readBlocks s core { r with halted := false }
    (beatBlocks (bLayout r.fmb) (r.beat / bPlanes r.fmb) (r.beat % bPlanes r.fmb)) = some (t, got) := h
  let wb := rd (s.core core).e.wb r.f.bsrc.toNat {}
  let src := maccSource core r
  let v := r.start + r.beat / bPlanes r.fmb + 1
  by_cases h0 : r.beat % bPlanes r.fmb = 0
  · by_cases hn : r.beat / bPlanes r.fmb + 1 < (r.f.beats.toNat + 1) / bPlanes r.fmb
    · refine ⟨holdBanks t src t.now (aBanks r.fma r.ma r.maScale v r.transposed), (r.used, wb.cursorHalf, wb.cursorOff),
        readA t src r.fma r.ma r.maScale v r.transposed, .holdBanks _ _ _ _ _, ?_⟩
      simp only [maccBeatOf, h']
      simp only [h0, hn, and_self, if_true, true_and, withBlocks, endChunk] <;> rfl
    · refine ⟨t, (r.used, wb.cursorHalf, wb.cursorOff), r.aNext, .refl _ _, ?_⟩
      simp only [maccBeatOf, h']
      simp only [h0, hn, and_false, if_true, if_false, true_and, withBlocks, endChunk] <;> rfl
  · refine ⟨t, r.mark, r.aNext, .refl _ _, ?_⟩
    simp only [maccBeatOf, h']
    simp only [h0, false_and, if_false, withBlocks, endChunk]

theorem maccBeatOf_frame (hr : r.info.ctx = .user) : OpFrame core s (maccBeatOf s core r) := by
  cases hgot : readBlocks s core r (beatBlocks (bLayout r.fmb) (r.beat / bPlanes r.fmb) (r.beat % bPlanes r.fmb)) with
  | none =>
    rw [maccBeatOf_waits hgot]
    exact .modE _ _
  | some got =>
    obtain ⟨u, mark, aNext, hu, hbeat⟩ := maccBeatOf_holds (t := got.1) (got := got.2) hgot
    have h := (readBlocks_frame (t := got.1) hgot).trans hu
    rw [hbeat]
    exact .ite (h.trans (.modE _ _)) (h.trans (endChunk_frame (r := withBlocks r got.2 mark aNext) hr _ _))

theorem maccStarted_frame (hr : r.info.ctx = .user) : OpFrame s.cur.core s (maccStarted s r) := by
  refine .trans ?_ (maccBeatOf_frame hr)
  exact opFrame_modCurE (.refl _ _)

end

/-! ### The M ops -/

section
variable {s t : State} (hctx : s.cur.info.ctx = .user)
include hctx

theorem mIssue_frame {f : MOp} {array drain fieldsOk : Bool} {body : State → Option (BitVec 3) → Iss}
    (h : mIssue s f array drain fieldsOk body = .next t) (hbody : ∀ tag, Goes (OpFrame s.cur.core s) (body s tag)) :
    OpFrame s.cur.core s t := slotIssue_frame hctx h hbody

theorem execMnop_frame {f : MOp} (h : execMnop f s = .next t) : OpFrame s.cur.core s t :=
  mIssue_frame hctx h fun tag => goes_mGo (.refl _ _) 0 tag

theorem latchIssue_frame {f : MOp} {transposed : Bool} (h : latchIssue s f transposed = .next t) : OpFrame s.cur.core s t :=
  mIssue_frame hctx h fun tag => goes_withLeader fun g => goes_mChecks _ (goes_countT fun s' hs' =>
    goes_mGo (opFrame_modCurE (opFrame_modCurE (opFrame_holdBanks hs' _ _ _))) _ tag)

theorem execMacc_frame {f : MOp} (h : execMacc f s = .next t) : OpFrame s.cur.core s t := by
  refine mIssue_frame hctx h fun tag => ?_
  refine goes_ite trivial (goes_withFm s _ fun vb => goes_ite trivial (goes_withLeader fun g => goes_mChecks _ (goes_ite trivial ?_)))
  refine goes_countT fun s' hs' => goes_mGo ?_ _ tag
  have hzero (b : Bool) : OpFrame s.cur.core s (if b then modCurE s' fun e => setActive e (Vector.replicate 256 0) else s') :=
    .ite (opFrame_modCurE hs' fun _ => sameFiles_setActive _ _) hs'
  have h0 := hzero (bitAt f.mode 1)
  refine h0.trans ?_
  rw [← h0.cur]
  exact maccStarted_frame ((congrArg (·.info.ctx) h0.cur).trans hctx)

theorem execMzero_frame {f : MOp} (h : execMzero f s = .next t) : OpFrame s.cur.core s t := by
  unfold execMzero at h
  refine mIssue_frame hctx h fun tag => ?_
  have hzero : OpFrame s.cur.core s (modCurE (modCurE s fun e => if bitAt f.sel 0 then setActive e (Vector.replicate 256 0) else e)
      fun e => if bitAt f.sel 1 then { setDrain e (Vector.replicate 256 0) with drainFree := s.now + 1 } else e) := by
    refine opFrame_modCurE (opFrame_modCurE (.refl _ _) fun e => ?_) fun e => ?_
    · split
      · exact sameFiles_setActive _ _
      · exact .refl _
    · split
      · obtain ⟨hu, hs, hq, hv, hm, hma⟩ := sameFiles_setDrain e (Vector.replicate 256 0)
        exact ⟨hu, hs, hq, hv, hm, hma⟩
      · exact .refl _
  exact goes_ite (goes_ganged fun _ => goes_mGo hzero _ tag) (goes_mGo hzero _ tag)

theorem execMswap_frame {f : MOp} (h : execMswap f s = .next t) : OpFrame s.cur.core s t :=
  mIssue_frame hctx h fun tag => goes_ite trivial (goes_mGo (opFrame_modCurE (.refl _ _)) _ tag)

omit hctx in
theorem goes_drainGo (f : MOp) (kind : DrainKind) (v : BitVec 32) (ma : W64) (tag : Option (BitVec 3)) :
    Goes (OpFrame s.cur.core s) (drainGo s f kind v ma tag) :=
  goes_countT fun _ hs' => goes_mGo (opFrame_modCurE (.ite (opFrame_holdBanks hs' _ _ _) hs')) _ tag

theorem drainIssue_frame {f : MOp} {columns : Bool} (h : drainIssue s f columns = .next t) : OpFrame s.cur.core s t :=
  mIssue_frame hctx h fun tag => goes_withFm s _ fun _ => goes_mChecks _ (goes_drainGo _ _ _ _ tag)

theorem execMaccld_frame {f : MOp} (h : execMaccld f s = .next t) : OpFrame s.cur.core s t :=
  mIssue_frame hctx h fun tag => goes_mChecks _ (goes_drainGo _ _ _ _ tag)

theorem execMmask_frame {f : MOp} (h : execMmask f s = .next t) : OpFrame s.cur.core s t :=
  mIssue_frame hctx h fun tag => goes_mChecks _ (goes_countT fun _ hs' =>
    goes_mGo (opFrame_modCurE (opFrame_modCurE (.ite hs' (opFrame_holdBanks hs' _ _ _)))) _ tag)

theorem execMgang_frame {f : MOp} (h : execMgang f s = .next t) : OpFrame s.cur.core s t :=
  mIssue_frame hctx h fun tag => goes_ite trivial (goes_ite trivial (goes_mGo (opFrame_modCurE (.refl _ _)) _ tag))

theorem execMwrel_frame {f : MOp} (h : execMwrel f s = .next t) : OpFrame s.cur.core s t :=
  mIssue_frame hctx h fun tag => goes_ite trivial (goes_ite trivial (goes_mGo (opFrame_modCurE (.refl _ _)) _ tag))

/-- R177 to R194: the M ops. -/
theorem matrix_frame {i : Instr} (hi : (encodeM i).isSome = true) (h : exec i s = .next t) : OpFrame s.cur.core s t := by
  unfold encodeM at hi
  split at hi
  case h_1 => exact execMnop_frame hctx h
  case h_2 => exact latchIssue_frame hctx (transposed := false) h
  case h_3 => exact latchIssue_frame hctx (transposed := true) h
  case h_4 => exact execMacc_frame hctx h
  case h_5 => exact execMzero_frame hctx h
  case h_6 => exact execMswap_frame hctx h
  case h_7 => exact drainIssue_frame hctx (columns := false) h
  case h_8 => exact drainIssue_frame hctx (columns := true) h
  case h_9 => exact execMaccld_frame hctx h
  case h_10 => exact execMmask_frame hctx h
  case h_11 => exact execMgang_frame hctx h
  case h_12 => exact execMwrel_frame hctx h
  case h_13 => exact absurd hi Bool.false_ne_true

end

theorem arithmeticFrame : ArithmeticFrame := by
  intro s t i hi _ hctx h n
  have hframe : OpFrame n s t := by
    rcases hi with hi | hi | hi
    · exact scalar_frame hctx hi h
    · exact vector_frame hctx hi h
    · exact matrix_frame hctx hi h
  obtain ⟨hrest, hothers, hend, hscratch, hloft, hl1, hwbuf, hfw, hfiles⟩ := hframe
  refine ⟨?_, hothers, hscratch, hend, hloft, hl1, hwbuf, hfw, hfiles.user, hfiles.sameRegisters⟩
  conv_rhs => rw [← hrest]
  rw [← hrest]

end Sys2Proof.Machine
end

section
/-! O39: bytes of a memory that a write leaves. -/

namespace Sys2Proof.Machine

theorem memGet_of_above {m : Mem} {a x : Nat} (h : Memory.above a m) (hx : x ≤ a) : memGet m x = 0 := by
  cases m with
  | nil => rfl
  | cons p r =>
    have hp : a < p.1 := h p List.mem_cons_self
    rw [memGet, if_pos (by omega)]

/-- A byte read after a byte was written. -/
theorem memGet_memSet {m : Mem} (a : Nat) (b : Byte) (x : Nat) (h : Memory.wf m = true) :
    memGet (memSet m a b) x = if x = a then b else memGet m x := by
  induction m with
  | nil => grind [memSet, memGet]
  | cons p r ih =>
    obtain ⟨k, c⟩ := p
    obtain ⟨-, habove, hr⟩ := (Memory.wf_cons k c r).1 h
    have hlow (hx : x ≤ k) : memGet r x = 0 := memGet_of_above habove hx
    have hrest := ih hr
    rcases Nat.lt_trichotomy a k with hak | rfl | hak
    · -- before the first byte
      grind [memSet, memGet]
    · -- at the first byte
      grind [memSet, memGet]
    · -- among the rest
      grind [memSet, memGet]

/-- A byte read after bytes were written. -/
theorem memGet_memWrite (l : List Byte) : ∀ {m : Mem} (a x : Nat), Memory.wf m = true →
    memGet (memWrite m a l) x = if h : a ≤ x ∧ x < a + l.length then l[x - a]'(by omega) else memGet m x := by
  induction l with
  | nil =>
    intro m a x _
    rw [memWrite, dif_neg (by rw [List.length_nil]; omega)]
  | cons b r ih =>
    intro m a x h
    rw [memWrite, ih (a + 1) x (memSet_wf a b h), memGet_memSet a b x h]
    by_cases hx : x = a
    · subst hx
      rw [dif_neg (by omega), if_pos rfl, dif_pos (by rw [List.length_cons]; omega)]
      simp
    · by_cases hin : a + 1 ≤ x ∧ x < a + 1 + r.length
      · rw [dif_pos hin, dif_pos (by rw [List.length_cons]; omega), List.getElem_cons, dif_neg (by omega)]
        simp only [Nat.sub_sub]
      · rw [dif_neg hin, dif_neg (by rw [List.length_cons]; omega), if_neg hx]

/-- Bytes outside a write are left. -/
theorem memGet_memWrite_outside (l : List Byte) {m : Mem} (a x : Nat) (h : Memory.wf m = true) (hx : ¬(a ≤ x ∧ x < a + l.length)) :
    memGet (memWrite m a l) x = memGet m x := by
  rw [memGet_memWrite l a x h, dif_neg hx]

end Sys2Proof.Machine
end

section
/-! O39: what the access checks leave, and where the pieces that they answer lie. -/

namespace Sys2Proof.Machine

open Sys2Proof.Claims

/-! ### The frame of an op of the X slots -/

/-- What an op of an X slot of core `n` leaves: memory, every other core, what its own core keeps of its stores and registers, and the bytes
`kept` of its scratchpad as they stand once its cycle has ended. -/
structure XFrame (n : Nat) (kept : Nat → Prop) (s t : State) : Prop where
  mem : t.mem = s.mem
  cur : t.cur = s.cur
  others : ∀ k, k ≠ n → t.core k = s.core k
  own : SameStores (s.core n) (t.core n)
  due : ∀ x, kept x → memGet (dueScratch (t.core n)) x = memGet (dueScratch (s.core n)) x

namespace XFrame

variable {n : Nat} {kept : Nat → Prop} {s t u : State}

theorem refl (n : Nat) (kept : Nat → Prop) (s : State) : XFrame n kept s s := ⟨rfl, rfl, fun _ _ => rfl, .refl _, fun _ _ => rfl⟩

theorem trans (h : XFrame n kept s t) (h' : XFrame n kept t u) : XFrame n kept s u :=
  ⟨h'.mem.trans h.mem, h'.cur.trans h.cur, fun k hk => (h'.others k hk).trans (h.others k hk), h.own.trans h'.own,
    fun x hx => (h'.due x hx).trans (h.due x hx)⟩

theorem ite {c : Prop} [Decidable c] (h : XFrame n kept s t) (h' : XFrame n kept s u) : XFrame n kept s (if c then t else u) := by
  split
  · exact h
  · exact h'

theorem ite_fst {α : Type} {c : Prop} [Decidable c] {r r' : State × α} (h : XFrame n kept s r.1) (h' : XFrame n kept s r'.1) :
    XFrame n kept s (if c then r else r').1 := by
  split
  · exact h
  · exact h'

/-- The state of a pair with a result. -/
theorem of_pair {α : Type} {r : State × α} {a : α} (h : XFrame n kept s r.1) (hr : r = (t, a)) : XFrame n kept s t := by
  rw [hr] at h
  exact h

/-- A change beside memory, cores and the executing context. -/
theorem of_eq (hm : t.mem = s.mem) (hcur : t.cur = s.cur) (hc : t.cores = s.cores) : XFrame n kept s t := by
  have hcore (k : Nat) : t.core k = s.core k := by rw [State.core, State.core, hc]
  refine ⟨hm, hcur, fun k _ => hcore k, ?_, fun x _ => ?_⟩
  · rw [hcore]
    exact .refl _
  · rw [hcore]

theorem after (h : XFrame n kept t u) (hm : t.mem = s.mem) (hcur : t.cur = s.cur) (hc : t.cores = s.cores) : XFrame n kept s u :=
  (of_eq hm hcur hc).trans h

theorem andThen (h : XFrame n kept s t) (hm : u.mem = t.mem) (hcur : u.cur = t.cur) (hc : u.cores = t.cores) : XFrame n kept s u :=
  h.trans (of_eq hm hcur hc)

/-- A change of the core itself beside what it stores. -/
theorem modCore (s : State) (n : Nat) {f : Core → Core}
    (hf : ∀ c, SameStores c (f c) := by exact fun _ => ⟨rfl, rfl, rfl, rfl, rfl, ⟨rfl, rfl, rfl, rfl, rfl, rfl⟩⟩)
    (he : ∀ c, (f c).endStores = c.endStores := by exact fun _ => rfl) : XFrame n kept s (s.modCore n f) := by
  refine ⟨rfl, rfl, fun k hk => core_modCore_ne s n k f (Ne.symm hk), ?_, fun x _ => ?_⟩
  · rcases core_modCore_cases s n n f with h | ⟨-, h⟩ <;> rw [h]
    · exact .refl _
    · exact hf _
  · rcases core_modCore_cases s n n f with h | ⟨-, h⟩ <;> rw [h]
    rw [dueScratch, he, (hf _).scratch, dueScratch]

/-- A change of the core's own engine. -/
theorem modE (s : State) (n : Nat) {f : Engine → Engine} (hf : ∀ e, SameFiles e (f e) := by exact fun _ => ⟨rfl, rfl, rfl, rfl, rfl, rfl⟩) :
    XFrame n kept s (s.modE n f) := by
  unfold State.modE
  exact .modCore s n (fun c => ⟨rfl, rfl, rfl, rfl, rfl, hf c.e⟩)

/-- A fault of the user context. -/
theorem raise (s : State) (n : Nat) {fi : FaultInfo} (h : fi.ctx = .user) : XFrame n kept s (raise s n fi) := by
  have hrest := raise_frame s n fi h
  obtain ⟨st, nx, hd, heq, -⟩ := core_raise_user h n (s := s) (n := n)
  refine ⟨(congrArg State.mem hrest :), (congrArg State.cur hrest :), fun k hk => ?_, ?_, fun x _ => ?_⟩
  · obtain ⟨_, _, _, -, hne⟩ := core_raise_user h k (s := s) (n := n)
    exact hne (Ne.symm hk)
  · rw [heq]
    exact ⟨rfl, rfl, rfl, rfl, rfl, .refl _⟩
  · rw [heq, dueScratch, dueScratch]

theorem opFault (s : State) (n : Nat) {info : BInfo} (h : info.ctx = .user) (b : W64) (slot : Slot) (cause : BitVec 9) (a d0 d1 : W64) :
    XFrame n kept s (opFault s info b slot n cause a d0 d1) := by
  rw [Machine.opFault, dropFirmwareOp, if_pos h]
  exact raise s n h

/-- The executing core's registers. -/
theorem sReg_curE (h : XFrame s.cur.core kept s t) (r : Nat) : sReg (curE t) r = sReg (curE s) r := by
  simp only [sReg, curE, h.cur, h.own.files.s]

end XFrame

/-! ### Translation -/

section
variable {n : Nat} {kept : Nat → Prop}

theorem xframe_sendRead (s : State) (pa len : Nat) (long : Bool) : XFrame n kept s (sendRead s pa len long) := by
  unfold sendRead
  split
  · exact .refl _ _ _
  · exact .of_eq rfl rfl rfl

theorem xframe_sendWalk (va fuel : Nat) : ∀ (s : State) (t : Nat), XFrame n kept s (sendWalk s va fuel t) := by
  induction fuel with
  | zero => exact fun s _ => .refl _ _ s
  | succ fuel ih =>
    intro s t
    unfold sendWalk
    exact .ite (.refl _ _ _) (.ite (xframe_sendRead _ _ _ _) ((xframe_sendRead _ _ _ _).trans (ih _ _)))

theorem xframe_serviceWalk (s : State) (die bay va : Nat) : XFrame n kept s (serviceWalk s die bay va).1 := by
  unfold serviceWalk
  -- a walk stands for its answer here: its own steps change no state
  obtain ⟨walks, hw⟩ : ∃ walks, walks = walkFrom := ⟨_, rfl⟩
  rw [← hw]
  extract_lets b root held deepest from_
  have hfrom (t : State) (fuel a : Nat) (rp : Bool) : XFrame n kept t (from_ t fuel a rp).1 := by
    simp only [from_]
    split
    · exact xframe_sendWalk _ _ _ _
    · dsimp only
      exact (xframe_sendWalk _ _ _ _).andThen rfl rfl rfl
  have hbump : XFrame n kept s s.bump.2 := .of_eq rfl rfl rfl
  clear_value from_ deepest
  cases deepest with
  | none => exact hfrom _ _ _ _
  | some h => exact .ite_fst (hbump.trans (hfrom _ _ _ _)) (hbump.trans (hfrom _ _ _ _))

theorem xframe_translate (s : State) {core : Option Nat} (hc : core = some n) (bay va : Nat) :
    XFrame n kept s (translate s core bay va).1 := by
  unfold translate
  split
  · cases hc
  cases hc
  split
  · exact .refl _ _ s
  · extract_lets hold service
    have hhold (t : State) (x : Tlb) : XFrame n kept t (hold t x) := .modCore t n
    have hservice (t : State) : XFrame n kept t (service t).1 := by
      simp only [service]
      split
      · next h => exact ((xframe_serviceWalk _ _ _ _).of_pair h).trans ((hhold _ _).after rfl rfl rfl)
      · next h => exact (xframe_serviceWalk _ _ _ _).of_pair h
    clear_value hold service
    split
    · exact hservice s
    · have hbump : XFrame n kept s s.bump.2 := .of_eq rfl rfl rfl
      exact .ite_fst (hbump.trans (hhold _ _)) (hbump.trans (hservice _))

theorem xframe_unhold (s : State) {core : Option Nat} (hc : core = some n) (bay va : Nat) :
    XFrame n kept s (unhold s core bay va) := by
  rw [hc, unhold]
  exact (XFrame.modCore s n (f := fun c => { c with tlb := c.tlb.filter fun t => !t.hits bay va })).andThen rfl rfl rfl

/-! ### The access checks -/

variable {k : Who} (hk : k.core = some n)
include hk

theorem xframe_piece1 (s : State) (va len : Nat) (pol : Pol) : XFrame n kept s (piece1 s k va len pol).1 := by
  unfold piece1
  have htr := xframe_translate (kept := kept) s hk k.bay va
  split
  · next t f h =>
    have ht := htr.of_pair h
    split <;> exact ht
  · next t x h =>
    have ht := htr.of_pair h
    split
    · exact ht.trans (xframe_unhold _ hk _ _)
    · extract_lets pub pa ag
      split
      · exact ht.trans (xframe_unhold _ hk _ _)
      · exact ht

theorem xframe_piece0 (s : State) (va len : Nat) (pol : Pol) : XFrame n kept s (piece0 s k va len pol).1 := by
  unfold piece0
  rw [hk]
  split
  · exact .modCore s n (f := fun c => { c with ahead := c.ahead.filter fun y => !y.meets k va })
  · exact xframe_piece1 hk s va len pol

theorem xframe_pieces0 (pol : Pol) (spans : List (Nat × Nat)) : ∀ s, XFrame n kept s (pieces0 s k pol spans).1 := by
  induction spans with
  | nil => exact .refl _ _
  | cons x r ih =>
    intro s
    unfold pieces0
    split
    · next h => exact (xframe_piece0 hk s _ _ pol).of_pair h
    · next t p h =>
      have ht : XFrame n kept s t := (xframe_piece0 hk s _ _ pol).of_pair h
      split
      · next h => exact ht.trans ((ih t).of_pair h)
      · next h => exact ht.trans ((ih t).of_pair h)

theorem xframe_access (s : State) (va : W64) (len align : Nat) (pol : Pol) : XFrame n kept s (access s k va len align pol).1 := by
  unfold access
  extract_lets a err sp local_ post
  have hpost (r : State × Acc) (hr : XFrame n kept s r.1) : XFrame n kept s (post r).1 := by
    simp only [post]
    repeat' split
    all_goals exact hr
  clear_value post
  split
  · exact .refl _ _ s
  split
  · exact .refl _ _ s
  split
  · split
    · split <;> exact .refl _ _ s
    · exact .refl _ _ s
  · split <;> exact .refl _ _ s
  · split
    · exact .refl _ _ s
    · exact hpost _ (.refl _ _ s)
  · split
    · exact .refl _ _ s
    · exact hpost _ (xframe_pieces0 hk pol _ s)

theorem xframe_accessAll (align : Nat) (pol : Pol) (l : List (W64 × Nat)) : ∀ s, XFrame n kept s (accessAll s k align pol l).1 := by
  induction l with
  | nil => exact .refl _ _
  | cons x r ih =>
    intro s
    obtain ⟨va, len⟩ := x
    unfold accessAll
    dsimp only
    have h := (xframe_access (kept := kept) hk s va len align pol).trans (ih _)
    split <;> (next heq => exact h.of_pair heq)

end

/-! ### The scratchpad's pieces -/

/-- A piece lies in the scratchpad only as all of a span of space 0x1. -/
def ScratchOf (va : W64) (len : Nat) (p : Piece) : Prop :=
  ∀ off, p.loc = .scratch off → va.toNat / 2 ^ 60 = 1 ∧ off = va.toNat % 2 ^ 20 ∧ p.len = len

theorem piece1_phys {s t : State} {k : Who} {va len : Nat} {pol : Pol} {p : Piece} (h : piece1 s k va len pol = (t, .inl p)) :
    ∃ pa, p.loc = .phys pa := by
  unfold piece1 at h
  split at h
  · split at h <;> cases h
  · split at h
    · cases h
    · extract_lets pub pa ag eff long at h
      split at h
      · cases h
      · cases h
        exact ⟨_, rfl⟩

theorem piece0_phys {s t : State} {k : Who} {va len : Nat} {pol : Pol} {p : Piece} (h : piece0 s k va len pol = (t, .inl p)) :
    ∃ pa, p.loc = .phys pa := by
  unfold piece0 at h
  split at h
  · cases h
  · exact piece1_phys h

theorem pieces0_phys {k : Who} {pol : Pol} (spans : List (Nat × Nat)) :
    ∀ {s t : State} {ps : List Piece}, pieces0 s k pol spans = (t, .ok ps) → ∀ p ∈ ps, ∃ pa, p.loc = .phys pa := by
  induction spans with
  | nil =>
    intro s t ps h p hp
    cases h
    cases hp
  | cons x r ih =>
    intro s t ps h p hp
    unfold pieces0 at h
    split at h
    · cases h
    · next u q hq =>
      split at h
      · next hr =>
        cases h
        rcases List.mem_cons.1 hp with rfl | hp
        · exact piece0_phys hq
        · exact ih hr p hp
      · cases h

/-- The pieces of an access that passes its checks. -/
theorem access_scratch {s t : State} {k : Who} {va : W64} {len align : Nat} {pol : Pol} {ps : List Piece}
    (h : access s k va len align pol = (t, .ok ps)) : ∀ p ∈ ps, ScratchOf va len p := by
  unfold access at h
  extract_lets a err local_ sp post o1 o2 m2 m3 at h
  have hpost {r : State × Acc} (hr : post r = (t, .ok ps)) : r.2 = .ok ps := by
    simp only [post] at hr
    repeat' split at hr
    all_goals cases hr
    all_goals rfl
  have hloft {m off : Nat} (hl : local_ (.loft m off) = .ok ps) : ∀ p ∈ ps, ScratchOf va len p := by
    simp only [local_, Acc.ok.injEq] at hl
    subst hl
    simp [ScratchOf]
  clear_value post
  split at h
  · cases h
  split at h
  · cases h
  split at h
  · next hsp =>
    split at h
    · split at h <;> cases h
    · cases h
      intro p hp off hoff
      rw [List.mem_singleton] at hp
      subst hp
      cases hoff
      exact ⟨hsp, rfl, rfl⟩
  · split at h
    · cases h
    · exact hloft (Prod.mk.inj h).2
  · split at h
    · cases h
    · exact hloft (hpost h)
  · split at h
    · cases h
    · intro p hp off hoff
      have hr := hpost h
      obtain ⟨pa, hpa⟩ := pieces0_phys _ (Prod.ext rfl hr) p hp
      rw [hpa] at hoff
      cases hoff

theorem accessAll_scratch {k : Who} {align : Nat} {pol : Pol} (l : List (W64 × Nat)) :
    ∀ {s t : State} {ps : List Piece}, accessAll s k align pol l = (t, .ok ps) → ∀ p ∈ ps, ∃ x ∈ l, ScratchOf x.1 x.2 p := by
  induction l with
  | nil =>
    intro s t ps h p hp
    cases h
    cases hp
  | cons x r ih =>
    intro s t ps h p hp
    obtain ⟨va, len⟩ := x
    unfold accessAll at h
    dsimp only at h
    split at h
    · next hx hr =>
      cases h
      rcases List.mem_append.1 hp with hp | hp
      · exact ⟨_, List.mem_cons_self, access_scratch (Prod.ext rfl hx) p hp⟩
      · obtain ⟨y, hy, hyp⟩ := ih hr p hp
        exact ⟨y, List.mem_cons_of_mem _ hy, hyp⟩
    all_goals cases h

end Sys2Proof.Machine
end

section
/-! O39: what the ops of the X slots leave as they issue. -/

namespace Sys2Proof.Machine

open Sys2Proof.Claims

/-! ### Stores at the end of a cycle (R200) -/

/-- Bytes that none of a cycle's stores writes. -/
theorem memGet_storeAll_outside {x : Nat} (l : List (Nat × Byte)) : ∀ {m : Mem}, Memory.wf m = true → (∀ p ∈ l, p.1 ≠ x) →
    memGet (l.foldl (fun m p => memSet m p.1 p.2) m) x = memGet m x := by
  induction l with
  | nil => exact fun _ _ => rfl
  | cons p r ih =>
    intro m h hx
    rw [List.foldl_cons, ih (memSet_wf p.1 p.2 h) fun q hq => hx q (List.mem_cons_of_mem _ hq), memGet_memSet p.1 p.2 x h,
      if_neg (hx p List.mem_cons_self).symm]

/-- A store more in the core's cycle, of bytes that the frame does not keep. -/
theorem xframe_endStores {n : Nat} {kept : Nat → Prop} {s : State} (hw : Memory.wf (s.core n).scratch = true) (l : List (Nat × Byte))
    (hl : ∀ p ∈ l, ¬kept p.1) : XFrame n kept s (s.modCore n fun c => { c with endStores := c.endStores ++ l }) := by
  refine ⟨rfl, rfl, fun k hk => core_modCore_ne s n k _ (Ne.symm hk), ?_, fun x hx => ?_⟩
  · rcases core_modCore_cases s n n fun c => { c with endStores := c.endStores ++ l } with h | ⟨-, h⟩ <;> rw [h]
    · exact .refl _
    · exact ⟨rfl, rfl, rfl, rfl, rfl, .refl _⟩
  · rcases core_modCore_cases s n n fun c => { c with endStores := c.endStores ++ l } with h | ⟨-, h⟩ <;> rw [h]
    rw [dueScratch, List.foldl_append, memGet_storeAll_outside l (storeAll_wf _ hw) fun p hp hpx => hl p hp (hpx ▸ hx), dueScratch]

/-- The frame keeps no byte of the scratchpad that one of the pieces covers. -/
def Spares (kept : Nat → Prop) (ps : List Piece) : Prop := ∀ p ∈ ps, ∀ off, p.loc = .scratch off → ∀ x, kept x → ¬(off ≤ x ∧ x < off + p.len)

theorem xframe_storeAtEnd {n : Nat} {kept : Nat → Prop} (ps : List Piece) : ∀ (s : State) (data : List Byte), s.cur.core = n →
    Memory.wf (s.core n).scratch = true → Spares kept ps → XFrame n kept s (storeAtEnd s ps data) := by
  induction ps with
  | nil => exact fun s _ _ _ _ => .refl _ _ s
  | cons p r ih =>
    intro s data hn hw hps
    unfold storeAtEnd
    split
    · next off hoff =>
      have hstep := xframe_endStores (kept := kept) hw ((data.take p.len).zipIdx.map fun x => (off + x.2, x.1)) (by
        intro q hq hk
        obtain ⟨y, hy, rfl⟩ := List.mem_map.1 hq
        have hlt := (List.mem_zipIdx' hy).1
        rw [List.length_take] at hlt
        exact hps p List.mem_cons_self off hoff _ hk ⟨by omega, by dsimp only; omega⟩)
      rw [hn]
      refine hstep.trans (ih _ _ (by rw [hstep.cur, hn]) (by rw [hstep.own.scratch]; exact hw) fun q hq => hps q (List.mem_cons_of_mem _ hq))
    · exact ih s _ hn hw fun q hq => hps q (List.mem_cons_of_mem _ hq)

/-! ### The shared parts of X ops -/

section
variable {s s' : State} {kept : Nat → Prop}

theorem xframe_modCurE (h : XFrame s.cur.core kept s s') {f : Engine → Engine}
    (hf : ∀ e, SameFiles e (f e) := by exact fun _ => ⟨rfl, rfl, rfl, rfl, rfl, rfl⟩) :
    XFrame s.cur.core kept s (modCurE s' f) := by
  refine h.trans ?_
  rw [modCurE, ← h.cur]
  exact .modE _ _ hf

theorem xframe_bump (h : XFrame s.cur.core kept s s') : XFrame s.cur.core kept s s'.bump.2 := h.andThen rfl rfl rfl

theorem xframe_land (h : XFrame s.cur.core kept s s') (lat : Nat) (ws : List RegWrite) (tag : Option (BitVec 3)) :
    XFrame s.cur.core kept s (land s' lat ws tag) := by
  unfold land landAt landSince
  exact xframe_modCurE h

theorem xframe_tagOnly (h : XFrame s.cur.core kept s s') (tag : Option (BitVec 3)) : XFrame s.cur.core kept s (tagOnly s' tag) := by
  unfold tagOnly
  split
  · exact h
  · exact xframe_land h _ _ _

theorem xframe_useBanks (h : XFrame s.cur.core kept s s') (ps : List Piece) : XFrame s.cur.core kept s (useBanks s' ps) :=
  .ite h (xframe_modCurE h)

theorem xframe_enterAcc (h : XFrame s.cur.core kept s s') (kind : AccKind) (ps : List Piece) (data : List Byte) (col : BitVec 3)
    (tag : Option (BitVec 3)) : XFrame s.cur.core kept s (enterAcc s' kind ps data col tag) := by
  unfold enterAcc
  exact xframe_modCurE (xframe_bump h)

theorem xframe_enterBg (h : XFrame s.cur.core kept s s') (kind : BgKind) (cols : BitVec 8) (sys : Bool) :
    XFrame s.cur.core kept s (enterBg s' kind cols sys) := by
  unfold enterBg
  exact xframe_modCurE (xframe_bump h)

theorem xframe_noteX0 (h : XFrame s.cur.core kept s s') (names : List Nat) : XFrame s.cur.core kept s (noteX0 s' names) := by
  refine .ite ?_ h
  unfold noteStreams
  exact xframe_modCurE h

theorem xframe_forgetRead (h : XFrame s.cur.core kept s s') (names : List Nat) : XFrame s.cur.core kept s (forgetRead s' names) := by
  unfold forgetRead
  exact xframe_modCurE h

theorem xgoes_landGo (h : XFrame s.cur.core kept s s') (lat : Nat) (ws : List RegWrite) (tag : Option (BitVec 3)) :
    Goes (XFrame s.cur.core kept s) (landGo s' lat ws tag) := xframe_land h lat ws tag

theorem xgoes_countL (h : XFrame s.cur.core kept s s') {beats : Nat} {f : State → State}
    (hf : ∀ t, XFrame s.cur.core kept s t → XFrame s.cur.core kept s (f t)) : Goes (XFrame s.cur.core kept s) (countL s' beats f) :=
  goes_ite trivial (hf _ (xframe_modCurE h))

theorem xgoes_countS (h : XFrame s.cur.core kept s s') {beats : Nat} {f : State → State}
    (hf : ∀ t, XFrame s.cur.core kept s t → XFrame s.cur.core kept s (f t)) : Goes (XFrame s.cur.core kept s) (countS s' beats f) :=
  goes_ite trivial (hf _ (xframe_modCurE h))

theorem xgoes_storeIssue (h : XFrame s.cur.core kept s s') (hw : Memory.wf (s.core s.cur.core).scratch = true) {ps : List Piece}
    (hps : Spares kept ps) (beats : Nat) (data : List Byte) (col : BitVec 3) (tag : Option (BitVec 3)) :
    Goes (XFrame s.cur.core kept s) (storeIssue s' beats ps data col tag) := by
  refine goes_ite trivial (xgoes_countS h fun t ht => xframe_tagOnly (xframe_enterAcc ?_ _ _ _ _ _) tag)
  have hb := xframe_useBanks ht ps
  exact hb.trans (xframe_storeAtEnd ps _ _ (by rw [hb.cur]) (by rw [hb.own.scratch]; exact hw) hps)

theorem xgoes_fibreRun (h : XFrame s.cur.core kept s s') (i : Instr) (arg : W64) (note : Nat) (vec : V4096) (ps : List Piece) :
    Goes (XFrame s.cur.core kept s) (fibreRun s' i arg note vec ps) := by
  unfold fibreRun
  exact xframe_modCurE (xframe_useBanks h ps)

theorem xgoes_barrierOp (v : W64) (ok : Bool) {k : Iss} (h : Goes (XFrame s.cur.core kept s) k) :
    Goes (XFrame s.cur.core kept s) (barrierOp s' v ok k) := goes_ite trivial (goes_ite trivial h)

/-- The state that an access of the executing slot answers. -/
theorem xframe_ofAccess {t : State} {kind len align : Nat} {va : W64} {pol : Pol} {ps : List Piece} (h : XFrame s.cur.core kept s s')
    (ha : access s' (slotWho s' kind) va len align pol = (t, .ok ps)) : XFrame s.cur.core kept s t :=
  h.trans ((xframe_access (by rw [← h.cur]; rfl) _ _ _ _ _).of_pair ha)

theorem xframe_ofAccessAll {t : State} {kind align : Nat} {l : List (W64 × Nat)} {pol : Pol} {ps : List Piece}
    (ha : accessAll s (slotWho s kind) align pol l = (t, .ok ps)) : XFrame s.cur.core kept s t :=
  (xframe_accessAll rfl _ _ _ _).of_pair ha

theorem xframe_ofAccessAllBound {t : State} {kind align : Nat} {l : List (W64 × Nat)} {pol : Pol} {ps : List Piece}
    (ha : accessAll s (slotWhoBound s kind) align pol l = (t, .ok ps)) : XFrame s.cur.core kept s t :=
  (xframe_accessAll rfl _ _ _ _).of_pair ha

/-- The bytes of the scratchpad outside some spans. -/
def OutsideSpans (spans : List (W64 × Nat)) (x : Nat) : Prop :=
  ∀ p ∈ spans, ¬(p.1.toNat / 2 ^ 60 = 1 ∧ p.1.toNat % 2 ^ 20 ≤ x ∧ x < p.1.toNat % 2 ^ 20 + p.2)

theorem spares_of_scratch {spans : List (W64 × Nat)} {ps : List Piece} (h : ∀ p ∈ ps, ∃ x ∈ spans, ScratchOf x.1 x.2 p) :
    Spares (OutsideSpans spans) ps := by
  intro p hp off hoff x hx hin
  obtain ⟨y, hy, hyp⟩ := h p hp
  obtain ⟨hsp, rfl, hlen⟩ := hyp off hoff
  exact hx y hy ⟨hsp, hin.1, hlen ▸ hin.2⟩

end

end Sys2Proof.Machine
end

section
/-! O39: the ops of the X slots, one by one. -/

namespace Sys2Proof.Machine

open Sys2Proof.Claims

section
variable {s t : State} {kept : Nat → Prop} (hctx : s.cur.info.ctx = .user)
include hctx

/-- An op frames the state when what its body goes on with does. -/
theorem slotIssue_xframe {tagw : BitVec 8} {taga : BitVec 4} {unitOk fieldsOk : Bool} {body : State → Option (BitVec 3) → Iss}
    (h : slotIssue s tagw taga unitOk fieldsOk body = .next t)
    (hbody : fieldsOk = true → ∀ tag, Goes (XFrame s.cur.core kept s) (body s tag)) : XFrame s.cur.core kept s t := by
  have hfault (c : BitVec 9) (a d0 d1 : W64) : XFrame s.cur.core kept s (slotFault s c a d0 d1) := .opFault s _ hctx _ _ _ _ _ _
  by_cases hf : fieldsOk = true
  · rcases slotIssue_cases h with rfl | rfl | ⟨c, a, d0, d1, -, rfl⟩ | ⟨s', k, hgo, rfl⟩
    · exact .refl _ _ _
    · exact hfault _ _ _ _
    · exact hfault _ _ _ _
    · have hs' : XFrame s.cur.core kept s s' := by simpa only [hgo, Goes] using hbody hf (tagOf taga)
      unfold issued
      exact xframe_modCurE hs'
  · simp only [slotIssue, Bool.eq_false_of_not_eq_true hf, Bool.and_false, Bool.not_false, if_true] at h
    split at h <;> cases h
    · exact .refl _ _ _
    · exact hfault _ _ _ _

theorem xGated_xframe {f : XROp} {fieldsOk : Bool} {body : State → Option (BitVec 3) → Iss} (h : xGated s f fieldsOk body = .next t)
    (hbody : ∀ tag, Goes (XFrame s.cur.core kept s) (body s tag)) : XFrame s.cur.core kept s t := by
  unfold xGated at h
  exact slotIssue_xframe hctx h fun _ tag => goes_ite (hbody tag) (xframe_tagOnly (.refl _ _ _) tag)

theorem fibreIssue_xframe {f : XROp} {names : List Nat} {opc : Nat} {gated fieldsOk pairOk : Bool} {open_ : List Nat}
    {early : State → Option Iss} {body : State → Option (BitVec 3) → Iss}
    (h : fibreIssue s f names opc gated fieldsOk pairOk open_ early body = .next t)
    (hearly : ∀ x, early s = some x → Goes (XFrame s.cur.core kept s) x)
    (hbody : ∀ s' tag, XFrame s.cur.core kept s s' → Goes (XFrame s.cur.core kept s) (body s' tag)) : XFrame s.cur.core kept s t := by
  have hself := XFrame.refl s.cur.core kept s
  unfold fibreIssue at h
  refine slotIssue_xframe hctx h fun _ tag => ?_
  dsimp only
  split
  · exact goes_ite trivial (xframe_modCurE (xframe_noteX0 hself _))
  · refine goes_ite trivial (goes_ite (goes_ite trivial (xframe_tagOnly (xframe_noteX0 hself _) _)) (goes_ite trivial ?_))
    split
    · next hx => exact hearly _ hx
    · exact goes_ite trivial (hbody _ _ (xframe_forgetRead (xframe_noteX0 hself _) _))

/-! ### Loads and stores (R199 to R205) -/

omit hctx in
theorem xgoes_loadIssue (hcur : s.cur.ctx = .user) (f : XMOp) (len align : Nat) (kind : AccKind) (write : Nat → RegWrite)
    (tag : Option (BitVec 3)) : Goes (XFrame s.cur.core kept s) (loadIssue s f len align kind write tag) := by
  unfold loadIssue
  refine goes_ite trivial ?_
  split
  · trivial
  · next u ps ha =>
    have hu : XFrame s.cur.core kept s u := xframe_ofAccess (.refl _ _ _) ha
    refine goes_ite trivial (goes_ite ?_ (xgoes_countL hu fun v hv => xframe_enterAcc (xframe_useBanks hv _) _ _ _ _ _))
    split
    · exact xgoes_landGo (xframe_useBanks hu _) _ _ _
    · refine xgoes_landGo ((xframe_useBanks hu ps).trans ?_) _ _ _
      rw [replyFault, hu.cur]
      exact .raise _ _ hcur

theorem execVld_xframe (hcur : s.cur.ctx = .user) {f : XMOp} (h : execVld f s = .next t) : XFrame s.cur.core kept s t :=
  slotIssue_xframe hctx h fun _ tag => xgoes_loadIssue hcur _ _ _ _ _ tag

theorem execSld_xframe (hcur : s.cur.ctx = .user) {f : XMOp} (h : execSld f s = .next t) : XFrame s.cur.core kept s t :=
  slotIssue_xframe hctx h fun _ tag => xgoes_loadIssue hcur _ _ _ _ _ tag

theorem execVlds_xframe {f : XMOp} (h : execVlds f s = .next t) : XFrame s.cur.core kept s t := by
  refine slotIssue_xframe hctx h fun _ tag => ?_
  split
  · trivial
  · next ha =>
    exact goes_ite trivial (xgoes_countL (xframe_ofAccessAll ha) fun v hv => xframe_enterAcc (xframe_useBanks hv _) _ _ _ _ _)

theorem execXnop_xframe {f : XROp} (h : execXnop f s = .next t) : XFrame s.cur.core kept s t :=
  slotIssue_xframe hctx h fun _ tag => xframe_tagOnly (.refl _ _ _) tag

theorem lineIssue_xframe {f : XROp} {keep : Bool} (h : lineIssue s f keep = .next t) : XFrame s.cur.core kept s t :=
  xGated_xframe hctx h fun tag => goes_ite trivial (xgoes_countS (.refl _ _ _) fun _ hv => xframe_tagOnly (xframe_enterAcc hv _ _ _ _ _) tag)

theorem execGapush_xframe {f : XROp} (h : execGapush f s = .next t) : XFrame s.cur.core kept s t := by
  refine xGated_xframe hctx h fun tag => ?_
  dsimp only
  split
  · trivial
  · refine goes_ite (xframe_tagOnly (.refl _ _ _) _) (goes_ite trivial ?_)
    split
    · trivial
    · next ha => exact xgoes_countL (xframe_ofAccessAllBound ha) fun v hv => xframe_modCurE (xframe_enterAcc hv _ _ _ _ _)

/-! ### Copy channels (R206, R212) -/

omit hctx in
theorem xframe_settleChan (h : XFrame s.cur.core kept s t) (ch : Nat) : XFrame s.cur.core kept s (settleChan t s.cur.core ch) := by
  unfold settleChan modChan
  exact h.trans ((XFrame.modE _ _).trans (.modE _ _))

omit hctx in
theorem xframe_stopChan (h : XFrame s.cur.core kept s t) (ch : Nat) : XFrame s.cur.core kept s (stopChan t s.cur.core ch) := by
  unfold stopChan
  refine xframe_settleChan (h.trans ((XFrame.modCore t s.cur.core (f := fun c => { c with ahead := c.ahead.filter (·.agent != ch) })).trans ?_)) ch
  unfold modChan
  exact .modE _ _

theorem execCpgo_xframe {f : XROp} (h : execCpgo f s = .next t) : XFrame s.cur.core kept s t :=
  xGated_xframe hctx h fun tag => goes_ite trivial (goes_ite trivial
    (xframe_tagOnly (xframe_modCurE (xframe_bump (.refl _ _ _))) tag))

theorem execCpstop_xframe {f : XROp} (h : execCpstop f s = .next t) : XFrame s.cur.core kept s t :=
  xGated_xframe hctx h fun tag => xframe_tagOnly (.ite (xframe_stopChan (.refl _ _ _) _) (.refl _ _ _)) tag

theorem pointerIssue_xframe {f : XROp} {pick : Chan → W64} (h : pointerIssue s f pick = .next t) : XFrame s.cur.core kept s t :=
  slotIssue_xframe hctx h fun _ tag => xgoes_landGo (.refl _ _ _) _ _ tag

/-! ### Synchronisation (R214, R218 to R227) -/

theorem execWssub_xframe {f : XROp} (h : execWssub f s = .next t) : XFrame s.cur.core kept s t :=
  xGated_xframe hctx h fun tag => goes_ite trivial (goes_ite trivial (xframe_tagOnly (xframe_modCurE (.refl _ _ _)) tag))

theorem execWsuns_xframe {f : XROp} (h : execWsuns f s = .next t) : XFrame s.cur.core kept s t := by
  unfold execWsuns at h
  exact slotIssue_xframe hctx h fun _ tag => goes_ite trivial (xframe_tagOnly (xframe_modCurE (.refl _ _ _)) tag)

omit hctx in
theorem xframe_ofLatchAccess {u : State} {va : W64} {kind : Nat} {ps : List Piece} (h : latchAccess s va kind = (u, .ok ps)) :
    XFrame s.cur.core kept s u := by
  unfold latchAccess at h
  dsimp only at h
  split at h
  · cases h
  · split at h
    · cases h
    · next ha =>
      split at h <;> cases h
      exact xframe_ofAccess (.refl _ _ _) ha

theorem execRel_xframe {f : XROp} (h : execRel f s = .next t) : XFrame s.cur.core kept s t := by
  refine xGated_xframe hctx h fun tag => ?_
  dsimp only
  split
  · trivial
  · next ha => exact xgoes_countS (xframe_ofLatchAccess ha) fun _ hv => xframe_tagOnly (xframe_enterBg hv _ _ _) tag

theorem execBind_xframe {f : XROp} (h : execBind f s = .next t) : XFrame s.cur.core kept s t :=
  xGated_xframe hctx h fun tag => goes_ite trivial (goes_ite trivial (goes_ite trivial (xframe_tagOnly (xframe_land (.refl _ _ _) _ _ _) tag)))

theorem execUnbind_xframe {f : XROp} (h : execUnbind f s = .next t) : XFrame s.cur.core kept s t := by
  unfold execUnbind at h
  exact slotIssue_xframe hctx h fun _ tag => xframe_tagOnly (xframe_land (.refl _ _ _) _ _ _) tag

theorem execBarr_xframe {f : XROp} (h : execBarr f s = .next t) : XFrame s.cur.core kept s t :=
  xGated_xframe hctx h fun tag => xgoes_barrierOp _ _ (xgoes_countS (.refl _ _ _) fun _ hv => xframe_tagOnly (xframe_enterBg hv _ _ _) tag)

theorem execBexp_xframe {f : XROp} (h : execBexp f s = .next t) : XFrame s.cur.core kept s t :=
  xGated_xframe hctx h fun tag => xgoes_barrierOp _ _ (xgoes_countS (.refl _ _ _) fun _ hv => xframe_tagOnly (xframe_enterBg hv _ _ _) tag)

/-! ### Fibre streams (R237 to R243) -/

omit hctx in
theorem xgoes_wideOperand {r : Nat} {x : Iss} (h : wideOperand r s = some x) : Goes (XFrame s.cur.core kept s) x := by
  unfold wideOperand at h
  split at h <;> cases h
  trivial

omit hctx in
theorem xgoes_noneEarly {x : Iss} (h : noneEarly s = some x) : Goes (XFrame s.cur.core kept s) x := by cases h

omit hctx in
theorem xgoes_stateAccessBad {kind r : Nat} {x : Iss} (h : stateAccessBad kind r s = some x) : Goes (XFrame s.cur.core kept s) x := by
  unfold stateAccessBad at h
  split at h <;> cases h
  trivial

/-- A fibre op that takes its unit. -/
theorem fibreRun_xframe {f : XROp} {names : List Nat} {opc : Nat} {gated fieldsOk pairOk : Bool} {open_ : List Nat}
    {early : State → Option Iss} {i : Instr} {arg : State → W64} {note : State → Nat} {vec : State → V4096}
    (h : fibreIssue s f names opc gated fieldsOk pairOk open_ early (fun s _ => fibreRun s i (arg s) (note s) (vec s) []) = .next t)
    (hearly : ∀ x, early s = some x → Goes (XFrame s.cur.core kept s) x) : XFrame s.cur.core kept s t :=
  fibreIssue_xframe hctx h hearly fun _ _ hs' => xgoes_fibreRun hs' _ _ _ _ _

theorem execFopen_xframe {f : XROp} (h : execFopen f s = .next t) : XFrame s.cur.core kept s t :=
  fibreRun_xframe (vec := fun _ => 0) hctx h fun _ => xgoes_wideOperand

theorem execFskip_xframe {f : XROp} (h : execFskip f s = .next t) : XFrame s.cur.core kept s t :=
  fibreRun_xframe (note := fun _ => 0) (vec := fun _ => 0) hctx h fun _ => xgoes_wideOperand

theorem execFchild_xframe {f : XROp} (h : execFchild f s = .next t) : XFrame s.cur.core kept s t :=
  fibreRun_xframe (arg := fun _ => 0) (vec := fun _ => 0) hctx h fun _ => xgoes_wideOperand

theorem execFnext_xframe {f : XROp} (h : execFnext f s = .next t) : XFrame s.cur.core kept s t :=
  fibreRun_xframe (arg := fun _ => 0) (note := fun _ => 0) (vec := fun _ => 0) hctx h fun _ => xgoes_noneEarly

theorem execFint_xframe {f : XROp} (h : execFint f s = .next t) : XFrame s.cur.core kept s t :=
  fibreRun_xframe (arg := fun _ => 0) (note := fun _ => 0) (vec := fun _ => 0) hctx h fun _ => xgoes_noneEarly

theorem execFuni_xframe {f : XROp} (h : execFuni f s = .next t) : XFrame s.cur.core kept s t :=
  fibreRun_xframe (arg := fun _ => 0) (note := fun _ => 0) (vec := fun _ => 0) hctx h fun _ => xgoes_noneEarly

theorem execFclose_xframe {f : XROp} (h : execFclose f s = .next t) : XFrame s.cur.core kept s t := by
  refine fibreIssue_xframe hctx h (fun _ => xgoes_noneEarly) fun s' tag hs' => xframe_tagOnly (hs'.trans ?_) tag
  rw [modF, hs'.cur]
  exact .modE _ _

theorem execFpos_xframe {f : XROp} (h : execFpos f s = .next t) : XFrame s.cur.core kept s t :=
  fibreIssue_xframe hctx h (fun _ => xgoes_noneEarly) fun _ tag hs' => xgoes_landGo hs' _ _ tag

theorem execFend_xframe {f : XROp} (h : execFend f s = .next t) : XFrame s.cur.core kept s t :=
  fibreIssue_xframe hctx h (fun _ => xgoes_noneEarly) fun _ tag hs' => xgoes_landGo hs' _ _ tag

theorem execFload_xframe {f : XROp} (h : execFload f s = .next t) : XFrame s.cur.core kept s t := by
  refine fibreIssue_xframe hctx h (fun _ => xgoes_stateAccessBad) fun s' tag hs' => ?_
  split
  · trivial
  · next ha => exact goes_ite trivial (xgoes_fibreRun (xframe_ofAccess hs' ha) _ _ _ _ _)

theorem execFval_xframe {f : XROp} (h : execFval f s = .next t) : XFrame s.cur.core kept s t := by
  refine fibreRun_xframe (arg := fun _ => 0) hctx h fun x hx => ?_
  split at hx <;> cases hx
  trivial

/-! ### Stores (R201, R216, R243) -/

variable (hw : Memory.wf (s.core s.cur.core).scratch = true)
include hw

omit hctx in
/-- An access of the slot whose pieces are stored. -/
theorem xgoes_storeAccess {s' u : State} {kind len align beats : Nat} {va : W64} {pol : Pol} {ps : List Piece} {data : List Byte}
    {col : BitVec 3} (tag : Option (BitVec 3)) (h : XFrame s.cur.core (OutsideSpans [(va, len)]) s s')
    (ha : access s' (slotWho s' kind) va len align pol = (u, .ok ps)) :
    Goes (XFrame s.cur.core (OutsideSpans [(va, len)]) s) (storeIssue u beats ps data col tag) :=
  xgoes_storeIssue (xframe_ofAccess h ha) hw
    (spares_of_scratch fun p hp => ⟨_, List.mem_singleton_self _, access_scratch ha p hp⟩) _ _ _ _

omit hctx hw in
theorem xmAddr_eq (s : State) (f : XMOp) (z : Nat) : xmAddr s f z = xmPlace s f z := by
  simp only [xmAddr, xmPlace, sx, w64, BitVec.ofNat_toNat]

omit hctx hw in
theorem strideAddrs_eq (s : State) (f : XMOp) : strideAddrs s f = strided s f := by
  simp only [strideAddrs, strided, xmAddr_eq, w64]

theorem execVst_xframe {f : XMOp} (h : execVst f s = .next t) : XFrame s.cur.core (OutsideSpans [(xmPlace s f 512, 512)]) s t := by
  refine slotIssue_xframe hctx h fun _ tag => ?_
  rw [xmAddr_eq]
  split
  · trivial
  · next ha => exact xgoes_storeAccess hw tag (.refl _ _ _) ha

theorem execSst_xframe {f : XMOp} (h : execSst f s = .next t) : XFrame s.cur.core (OutsideSpans [(xmPlace s f 8, 8)]) s t := by
  refine slotIssue_xframe hctx h fun _ tag => ?_
  rw [xmAddr_eq]
  split
  · trivial
  · next ha => exact xgoes_storeAccess hw tag (.refl _ _ _) ha

theorem execVsts_xframe {f : XMOp} (h : execVsts f s = .next t) : XFrame s.cur.core (OutsideSpans (strided s f)) s t := by
  refine slotIssue_xframe hctx h fun _ tag => ?_
  rw [strideAddrs_eq]
  split
  · trivial
  · next ha => exact xgoes_storeIssue (xframe_ofAccessAll ha) hw (spares_of_scratch (accessAll_scratch _ ha)) _ _ _ _

/-- The spans of an SCPUSH (R216). -/
def pushSpans (s : State) (f : XROp) : List (W64 × Nat) :=
  (List.range (sReg (curE s) f.fn.toNat).toNat).map fun i =>
    (sReg (curE s) f.b.toNat + BitVec.ofNat 64 (lane (vReg (curE s) f.a.toNat).toNat 32 i), 2 ^ f.c.toNat)

omit hctx hw in
theorem laneAddrs_eq {f : XROp} (ha : f.a.toNat < 32) : laneAddrs s f (sReg (curE s) f.fn.toNat).toNat (2 ^ f.c.toNat) = pushSpans s f := by
  simp only [laneAddrs, pushSpans, Nat.mod_eq_of_lt ha, w64]

theorem execScpush_xframe {f : XROp} (h : execScpush f s = .next t) : XFrame s.cur.core (OutsideSpans (pushSpans s f)) s t := by
  refine slotIssue_xframe hctx h fun hf tag => ?_
  have ha : f.a.toNat < 32 := by
    simp only [Bool.and_eq_true, decide_eq_true_eq] at hf
    exact hf.1.2
  refine goes_ite trivial (goes_ite (xframe_tagOnly (.refl _ _ _) _) ?_)
  split
  · trivial
  · next n hn =>
    unfold laneCount at hn
    dsimp only at hn
    split at hn <;> cases hn
    refine goes_ite (xframe_tagOnly (.refl _ _ _) _) ?_
    rw [laneAddrs_eq ha]
    split
    · trivial
    · next hps => exact xgoes_storeIssue (xframe_ofAccessAllBound hps) hw (spares_of_scratch (accessAll_scratch _ hps)) _ _ _ _

theorem execFsave_xframe {f : XROp} (h : execFsave f s = .next t) : XFrame s.cur.core (OutsideSpans [(sReg (curE s) f.b.toNat, 64)]) s t := by
  refine fibreIssue_xframe hctx h (fun _ => xgoes_stateAccessBad) fun s' tag hs' => ?_
  rw [hs'.sReg_curE]
  split
  · trivial
  · next ha => exact xgoes_storeAccess hw tag hs' ha

end

/-- R197 to R206, R212, R214, R217 to R227, R237 to R243: the ops of the X slots that store to spans. -/
theorem transfer_xframe {s t : State} {i : Instr} {spans : List (W64 × Nat)} (hi : storesTo s i = some spans) (hcur : s.cur.ctx = .user)
    (hctx : s.cur.info.ctx = .user) (hw : Memory.wf (s.core s.cur.core).scratch = true) (h : exec i s = .next t) :
    XFrame s.cur.core (OutsideSpans spans) s t := by
  unfold storesTo at hi
  split at hi
  case h_35 => cases hi
  all_goals cases hi
  case h_1 => exact execVld_xframe hctx hcur h
  case h_2 => exact execSld_xframe hctx hcur h
  case h_3 => exact execVlds_xframe hctx h
  case h_4 => exact lineIssue_xframe hctx h
  case h_5 => exact lineIssue_xframe hctx h
  case h_6 => exact execGapush_xframe hctx h
  case h_7 => exact execFload_xframe hctx h
  case h_8 => exact execXnop_xframe hctx h
  case h_9 => exact execCpgo_xframe hctx h
  case h_10 => exact execCpstop_xframe hctx h
  case h_11 => exact pointerIssue_xframe hctx h
  case h_12 => exact pointerIssue_xframe hctx h
  case h_13 => exact execWssub_xframe hctx h
  case h_14 => exact execWsuns_xframe hctx h
  case h_15 => exact execRel_xframe hctx h
  case h_16 => exact execBind_xframe hctx h
  case h_17 => exact execUnbind_xframe hctx h
  case h_18 => exact execBarr_xframe hctx h
  case h_19 => exact execBexp_xframe hctx h
  case h_20 => exact execFopen_xframe hctx h
  case h_21 => exact execFclose_xframe hctx h
  case h_22 => exact execFnext_xframe hctx h
  case h_23 => exact execFint_xframe hctx h
  case h_24 => exact execFuni_xframe hctx h
  case h_25 => exact execFskip_xframe hctx h
  case h_26 => exact execFchild_xframe hctx h
  case h_27 => exact execFpos_xframe hctx h
  case h_28 => exact execFval_xframe hctx h
  case h_29 => exact execFend_xframe hctx h
  case h_30 => exact execVst_xframe hctx hw h
  case h_31 => exact execSst_xframe hctx hw h
  case h_32 => exact execVsts_xframe hctx hw h
  case h_33 => exact execScpush_xframe hctx hw h
  case h_34 => exact execFsave_xframe hctx hw h

/-- R197 to R243: the frame of the ops of the X slots. -/
theorem transferFrame : TransferFrame := by
  intro s t i spans hi hcur hctx hw h n
  have hf := transfer_xframe hi hcur hctx (hw.2.1 _).1 h
  obtain ⟨hscratch, hloft, hl1, hwbuf, hfw, hfiles⟩ := hf.own
  exact ⟨hf.mem, hf.others, hscratch, hloft, hl1, hwbuf, hfw, hfiles.user, hfiles.sameRegisters, hf.due⟩

end Sys2Proof.Machine
end

section
/-! O39: what the point of coherence keeps of the bytes that nothing writes. -/

namespace Sys2Proof.Machine

open Sys2Proof.Claims

/-! ### Bytes of numbers and of memories -/

theorem length_toBytes (n : Nat) : ∀ v, (toBytes n v).length = n := by
  induction n with
  | zero => exact fun _ => rfl
  | succ n ih => exact fun v => by rw [toBytes, List.length_cons, ih]

theorem getElem_toBytes (n : Nat) : ∀ (v i : Nat) (h : i < (toBytes n v).length), (toBytes n v)[i] = BitVec.ofNat 8 (v / 2 ^ (8 * i)) := by
  induction n with
  | zero => exact fun _ _ h => absurd h (Nat.not_lt_zero _)
  | succ n ih =>
    intro v i h
    cases i with
    | zero => simp [toBytes]
    | succ i =>
      have hpow : 2 ^ (8 * (i + 1)) = 256 * 2 ^ (8 * i) := by rw [Nat.mul_add, Nat.pow_add, Nat.mul_comm]
      simp only [toBytes, List.getElem_cons_succ, ih, Nat.div_div_eq_div_mul, hpow]

theorem ofBytes_lt (l : List Byte) : ofBytes l < 2 ^ (8 * l.length) := by
  induction l with
  | nil => exact Nat.one_pos
  | cons b r ih =>
    have hb := b.isLt
    rw [ofBytes, List.length_cons, Nat.mul_add, Nat.pow_add]
    omega

theorem toNat_ofNat_ofBytes {w : Nat} (l : List Byte) (h : w = 8 * l.length) : (BitVec.ofNat w (ofBytes l)).toNat = ofBytes l := by
  rw [BitVec.toNat_ofNat, h, Nat.mod_eq_of_lt (ofBytes_lt l)]

theorem ofBytes_byte (l : List Byte) : ∀ (i : Nat) (h : i < l.length), ofBytes l / 2 ^ (8 * i) % 256 = l[i].toNat := by
  induction l with
  | nil => exact fun _ h => absurd h (Nat.not_lt_zero _)
  | cons b r ih =>
    intro i h
    have hb : b.toNat < 256 := b.isLt
    cases i with
    | zero =>
      rw [ofBytes, List.getElem_cons_zero, Nat.mul_zero, Nat.pow_zero, Nat.div_one]
      omega
    | succ i =>
      rw [ofBytes, List.getElem_cons_succ, Nat.mul_add, Nat.pow_add, Nat.mul_comm (2 ^ (8 * i)), ← Nat.div_div_eq_div_mul,
        show (b.toNat + 256 * ofBytes r) / 2 ^ (8 * 1) = ofBytes r by omega]
      exact ih i (by rw [List.length_cons] at h; omega)

/-! ### Sectors -/

/-- The bytes of a granule as memory holds them. -/
def granuleBack (m : Mem) (g : Nat) : BitVec 512 := BitVec.ofNat 512 (ofBytes (memRead m (g * 64) 64))

theorem granuleBack_byte (m : Mem) {g x : Nat} (h : x / 64 = g) :
    (granuleBack m g).toNat / 2 ^ (8 * (x % 64)) % 256 = (memGet m x).toNat := by
  have hlen : (memRead m (g * 64) 64).length = 64 := by simp [memRead]
  rw [granuleBack, toNat_ofNat_ofBytes _ (by rw [hlen]), ofBytes_byte _ _ (by rw [hlen]; omega)]
  simp only [memRead, List.getElem_map, List.getElem_range]
  rw [show g * 64 + x % 64 = x by omega]

/-- A held sector is dirty, or what memory holds under it is its own but for the bytes `M`. -/
def SectorOk (M : Nat → Prop) (m : Mem) (g : Nat) (e : Sector) : Prop :=
  e.dirty = true ∨ ∀ x, x / 64 = g → ¬M x → e.back.toNat / 2 ^ (8 * (x % 64)) % 256 = (memGet m x).toNat

/-- Memory is canonical, and the L2 holds older copies of no bytes but `M`. -/
structure Settled (M : Nat → Prop) (s : State) : Prop where
  wf : Memory.wf s.mem = true
  sector : ∀ g e, l2Sector s g = some e → SectorOk M s.mem g e

section
variable {M : Nat → Prop} {s t u : State}

theorem SectorOk.congr {m m' : Mem} {g : Nat} {e : Sector} (h : SectorOk M m g e) (hm : ∀ x, ¬M x → memGet m' x = memGet m x) :
    SectorOk M m' g e :=
  h.imp_right fun h x hx hM => by rw [hm x hM]; exact h x hx hM

theorem sectorOk_granuleBack (m : Mem) (g : Nat) (b : Bool) : SectorOk M m g { dirty := b, back := granuleBack m g } :=
  .inr fun _ hx _ => granuleBack_byte m hx

theorem SectorOk.setDirty {m : Mem} {g : Nat} {e : Sector} (h : SectorOk M m g e) (b : Bool) :
    SectorOk M m g { e with dirty := e.dirty || b } :=
  h.imp_left fun h => by rw [h, Bool.true_or]

theorem settled_of_current (hw : Memory.wf s.mem = true) (h : ∀ x, ¬M x → current s x) : Settled M s := by
  refine ⟨hw, fun g e he => ?_⟩
  by_cases hd : e.dirty = true
  · exact .inl hd
  · exact .inr fun x hx hM => ((h x hM) e (by rw [hx]; exact he)).resolve_left hd

/-- A step of the point of coherence: it changes memory, the L2, lost bytes, what is sent and the choices made, and of memory no byte outside
`M` when the L2 holds older copies of no others. -/
structure PocStep (M : Nat → Prop) (s t : State) : Prop where
  rest : { t with mem := s.mem, l2 := s.l2, fresh := s.fresh, lost := s.lost, sent := s.sent } = s
  mem : Settled M s → Settled M t ∧ ∀ x, ¬M x → memGet t.mem x = memGet s.mem x

namespace PocStep

theorem trans (h : PocStep M s t) (h' : PocStep M t u) : PocStep M s u := by
  refine ⟨?_, fun hs => ?_⟩
  · conv_rhs => rw [← h.rest, ← h'.rest]
  · obtain ⟨ht, hm⟩ := h.mem hs
    obtain ⟨hu, hm'⟩ := h'.mem ht
    exact ⟨hu, fun x hx => (hm' x hx).trans (hm x hx)⟩

/-- A step that leaves memory and adds no sector. -/
theorem fewer (hr : { t with mem := s.mem, l2 := s.l2, fresh := s.fresh, lost := s.lost, sent := s.sent } = s) (hm : t.mem = s.mem)
    (hsec : ∀ g e, l2Sector t g = some e → l2Sector s g = some e) : PocStep M s t :=
  ⟨hr, fun hs => ⟨⟨hm ▸ hs.wf, fun g e he => hm ▸ hs.sector g e (hsec g e he)⟩, fun _ _ => by rw [hm]⟩⟩

/-- A step that leaves memory and the L2. -/
theorem same (hr : { t with mem := s.mem, l2 := s.l2, fresh := s.fresh, lost := s.lost, sent := s.sent } = s) (hm : t.mem = s.mem)
    (hl : t.l2 = s.l2) : PocStep M s t :=
  fewer hr hm fun g e he => by rwa [l2Sector, l2Line, hl] at he

theorem refl (s : State) : PocStep M s s := same rfl rfl rfl

theorem ite {c : Prop} [Decidable c] (h : PocStep M s t) (h' : PocStep M s u) : PocStep M s (if c then t else u) := by
  split
  · exact h
  · exact h'

theorem foldl {α : Type} {f : State → α → State} (hf : ∀ s x, PocStep M s (f s x)) (xs : List α) : ∀ s, PocStep M s (xs.foldl f s) := by
  induction xs with
  | nil => exact refl
  | cons x xs ih => exact fun s => (hf s x).trans (ih _)

end PocStep

/-! ### The L2 (R255 to R258, R288) -/

/-- The sectors of an L2 whose lines have changed in place. -/
theorem l2Sector_map {f : L2Line → L2Line} (hf : ∀ l, (f l).pa = l.pa) (ht : t.l2 = s.l2.map f) (g : Nat) :
    l2Sector t g = (l2Line s (g / 2)).bind fun l => (f l).sector (g % 2 == 1) := by
  have hp : ((fun l : L2Line => l.pa == g / 2) ∘ f) = fun l => l.pa == g / 2 := by
    funext l
    rw [Function.comp_apply, hf]
  rw [l2Sector, l2Line, ht, List.find?_map, hp, Option.bind_map, l2Line]
  rfl

theorem sector_setSector (l : L2Line) (b c : Bool) (x : Option Sector) : (l.setSector b x).sector c = if c = b then x else l.sector c := by
  cases b <;> cases c <;> rfl

theorem setSector_pa (l : L2Line) (b : Bool) (x : Option Sector) : (l.setSector b x).pa = l.pa := by cases b <;> rfl

theorem sector_empty (pa slice : Nat) (b : Bool) : ({ pa := pa, slice := slice } : L2Line).sector b = none := by cases b <;> rfl

theorem granule_eq_iff {g g' : Nat} (h : g' / 2 = g / 2) : (g' % 2 == 1) = (g % 2 == 1) ↔ g' = g := by
  rw [Bool.eq_iff_iff, beq_iff_eq, beq_iff_eq]
  omega

theorem l2Line_pa {ln : Nat} {l : L2Line} (h : l2Line s ln = some l) : l.pa = ln := by
  simpa using List.find?_some h

/-- A sector replaced, where its line is held. -/
theorem l2Sector_replaced {g : Nat} {x : Option Sector}
    (ht : t.l2 = s.l2.map fun l => if l.pa == g / 2 then l.setSector (g % 2 == 1) x else l) (g' : Nat) (e : Sector)
    (he : l2Sector t g' = some e) : (g' = g ∧ x = some e) ∨ (g' ≠ g ∧ l2Sector s g' = some e) := by
  rw [l2Sector_map (fun l => by split <;> simp only [setSector_pa]) ht, Option.bind_eq_some_iff] at he
  obtain ⟨l, hl, he⟩ := he
  have hpa := l2Line_pa hl
  have hsec : l2Sector s g' = l.sector (g' % 2 == 1) := by rw [l2Sector, hl, Option.bind_some]
  by_cases hline : g' / 2 = g / 2
  · rw [if_pos (by rw [beq_iff_eq, hpa, hline]), sector_setSector] at he
    by_cases hg : g' = g
    · rw [if_pos (by rw [hg])] at he
      exact .inl ⟨hg, he⟩
    · rw [if_neg fun h => hg ((granule_eq_iff hline).1 h)] at he
      exact .inr ⟨hg, hsec.trans he⟩
  · rw [if_neg (by rw [beq_iff_eq, hpa]; exact hline)] at he
    exact .inr ⟨fun h => hline (by rw [h]), hsec.trans he⟩

theorem pocStep_dropSector (s : State) (g : Nat) : PocStep M s (dropSector s g) := by
  unfold dropSector
  split
  · exact .refl s
  · next x hx =>
    refine ⟨rfl, fun hs => ?_⟩
    have hmem : ∀ y, ¬M y →
        memGet (if x.dirty then s.mem else memWrite s.mem (g * 64) (toBytes 64 x.back.toNat)) y = memGet s.mem y := by
      intro y hy
      split
      · rfl
      · next hd =>
        rw [memGet_memWrite _ _ _ hs.wf]
        split
        · next hin =>
          rw [length_toBytes] at hin
          have hbyte := (hs.sector g x hx).resolve_left hd y (by omega) hy
          rw [getElem_toBytes, show y - g * 64 = y % 64 by omega]
          exact BitVec.eq_of_toNat_eq (by rw [BitVec.toNat_ofNat]; exact hbyte)
        · rfl
    refine ⟨⟨?_, fun g' e he => ?_⟩, hmem⟩
    · dsimp only
      split
      · exact hs.wf
      · exact memWrite_wf _ _ hs.wf
    · rcases l2Sector_replaced (s := s) rfl g' e he with ⟨-, he⟩ | ⟨-, he⟩
      · cases he
      · exact (hs.sector g' e he).congr hmem

/-- The sectors of lines that stay. -/
theorem l2Sector_filter {ln g : Nat} {e : Sector} (ht : t.l2 = s.l2.filter (·.pa != ln)) (he : l2Sector t g = some e) :
    g / 2 ≠ ln ∧ l2Sector s g = some e := by
  rw [l2Sector, l2Line, ht, List.find?_filter, Option.bind_eq_some_iff] at he
  obtain ⟨l, hl, he⟩ := he
  have hl' := List.find?_some hl
  simp only [bne_iff_ne, beq_iff_eq, decide_eq_true_eq] at hl'
  have hne : g / 2 ≠ ln := fun h => hl'.1 (hl'.2.trans h)
  have hp : (fun l : L2Line => decide ((l.pa != ln) = true ∧ (l.pa == g / 2) = true)) = fun l => l.pa == g / 2 := by
    funext l
    by_cases hlg : l.pa = g / 2 <;> simp [hlg, hne]
  refine ⟨hne, ?_⟩
  rw [l2Sector, l2Line, Option.bind_eq_some_iff]
  refine ⟨l, ?_, he⟩
  rw [← hl]
  congr 1
  funext l
  by_cases hlg : l.pa = g / 2 <;> simp [hlg, hne]

theorem pocStep_l2Evict (s : State) (ln : Nat) : PocStep M s (l2Evict s ln) := by
  refine ((pocStep_dropSector s _).trans (pocStep_dropSector _ _)).trans (.fewer rfl rfl fun g e he => ?_)
  exact (l2Sector_filter rfl he).2

/-- A line put first. -/
theorem l2Sector_cons {l : L2Line} {ls : List L2Line} (ht : t.l2 = l :: ls) (g : Nat) :
    l2Sector t g = if l.pa = g / 2 then l.sector (g % 2 == 1) else l2Sector { t with l2 := ls } g := by
  rw [l2Sector, l2Line, ht, List.find?_cons]
  by_cases h : l.pa = g / 2
  · simp [h]
  · simp [beq_eq_false_iff_ne.2 h, h, l2Sector, l2Line]

theorem pocStep_pushSector (s : State) (g : Nat) : PocStep M s (pushSector s g) := by
  unfold pushSector
  split
  · exact .refl s
  · refine .ite (.refl s) ⟨rfl, fun hs => ⟨⟨hs.wf, fun g' e he => ?_⟩, fun _ _ => rfl⟩⟩
    rcases l2Sector_replaced (s := s) rfl g' e he with ⟨rfl, he⟩ | ⟨-, he⟩
    · cases he
      exact sectorOk_granuleBack s.mem g' false
    · exact hs.sector g' e he

/-- A line whose sector has come to be held: what the sectors of the L2 were, or what memory holds. -/
theorem settled_filled {g : Nat} {l : L2Line} {ls : List L2Line} {x : Sector} {dirty : Bool} (hw : Memory.wf t.mem = true)
    (ht : t.l2 = l.setSector (g % 2 == 1) (some { x with dirty := x.dirty || dirty }) :: ls) (hpa : l.pa = g / 2)
    (hx : SectorOk M t.mem g x) (hl : ∀ e, ∀ g', g' / 2 = g / 2 → l.sector (g' % 2 == 1) = some e → SectorOk M t.mem g' e)
    (hls : ∀ g' e, l2Sector { t with l2 := ls } g' = some e → SectorOk M t.mem g' e) : Settled M t := by
  refine ⟨hw, fun g' e he => ?_⟩
  rw [l2Sector_cons ht, setSector_pa, sector_setSector, hpa] at he
  by_cases hline : g' / 2 = g / 2
  · rw [if_pos hline.symm] at he
    by_cases hg : g' = g
    · subst hg
      rw [if_pos rfl] at he
      cases he
      exact hx.setDirty dirty
    · rw [if_neg fun h => hg ((granule_eq_iff hline).1 h)] at he
      exact hl e g' hline he
  · rw [if_neg (Ne.symm hline)] at he
    exact hls g' e he

theorem pocStep_l2Fill (s : State) (dirty : Bool) (g : Nat) : PocStep M s (l2Fill s dirty g) := by
  unfold l2Fill
  refine .ite (.refl s) ?_
  extract_lets hi fresh add home same u
  split
  · next l hl =>
    refine ⟨rfl, fun hs => ⟨?_, fun _ _ => rfl⟩⟩
    have hsec (g' : Nat) (hg : g' / 2 = g / 2) : l2Sector s g' = l.sector (g' % 2 == 1) := by rw [l2Sector, hg, hl, Option.bind_some]
    refine settled_filled hs.wf rfl (l2Line_pa hl) ?_ (fun e g' hg he => hs.sector g' e ((hsec g' hg).trans he)) fun g' e he =>
      hs.sector g' e (l2Sector_filter rfl he).2
    cases hx : l.sector (g % 2 == 1) with
    | none => exact sectorOk_granuleBack s.mem g false
    | some x => exact hs.sector g x ((hsec g rfl).trans hx)
  · have hu : PocStep M s u := by
      simp only [u]
      split
      · exact pocStep_l2Evict s _
      · exact .refl s
    clear_value u
    refine ⟨hu.rest, fun hs => ?_⟩
    obtain ⟨hus, hum⟩ := hu.mem hs
    refine ⟨settled_filled hus.wf rfl rfl ?_ (fun e g' _ he => ?_) hus.sector, hum⟩
    · rw [sector_empty]
      exact (sectorOk_granuleBack s.mem g false).congr hum
    · rw [sector_empty] at he
      cases he

theorem pocStep_trimSlice (s : State) (slice : Nat) : PocStep M s (trimSlice s slice) :=
  .foldl (fun s (l : L2Line) => pocStep_l2Evict s l.pa) _ s

theorem pocStep_l2Count (s : State) (core : Option Nat) (pa : Nat) : PocStep M s (l2Count s core pa) := by
  unfold l2Count
  split
  · next n l hl =>
    refine .ite (.refl s) ?_
    extract_lets cl k
    dsimp -zeta only [State.bump]
    extract_lets moves l' s2
    have hs2 : PocStep M s s2 := by
      refine .fewer rfl rfl fun g e he => ?_
      have hpa : l.pa = pa / 128 := l2Line_pa hl
      rw [l2Sector_map (s := s) (fun x => by
        split
        · next h => exact hpa.trans (beq_iff_eq.1 h).symm
        · rfl) rfl, Option.bind_eq_some_iff] at he
      obtain ⟨x, hx, he⟩ := he
      rw [l2Sector, hx, Option.bind_some]
      split at he
      · next hxp =>
        have hxl : l2Line s (pa / 128) = some x := by
          rw [← beq_iff_eq.1 hxp, l2Line_pa hx]
          exact hx
        cases hl.symm.trans hxl
        exact he
      · exact he
    exact hs2.trans (.ite (pocStep_trimSlice _ _) (.refl _))
  · exact .refl s

theorem pocStep_l2Read (s : State) (core : Option Nat) (pa len : Nat) (ca : Bool) : PocStep M s (l2Read s core pa len ca) :=
  (PocStep.ite (.refl s) (.foldl (fun s g => pocStep_l2Fill s false g) _ _)).trans (pocStep_l2Count _ _ _)

theorem pocStep_sendRead (s : State) (pa len : Nat) (long : Bool) : PocStep M s (sendRead s pa len long) := by
  unfold sendRead
  split
  · exact .refl s
  · exact .same rfl rfl rfl

theorem pocStep_heal (s : State) (mk : Nat → Granule) (a len : Nat) : PocStep M s (heal s mk a len) :=
  .ite (.refl s) (.same rfl rfl rfl)

/-! ### Writes (R255, R273, R283) -/

/-- Bytes of `M` written. -/
theorem pocStep_memWrite (s : State) (a : Nat) (data : List Byte) (h : ∀ x, a ≤ x → x < a + data.length → M x) :
    PocStep M s { s with mem := memWrite s.mem a data } := by
  refine ⟨rfl, fun hs => ?_⟩
  have hm : ∀ x, ¬M x → memGet (memWrite s.mem a data) x = memGet s.mem x := fun x hx =>
    memGet_memWrite_outside data a x hs.wf fun hin => hx (h x hin.1 hin.2)
  exact ⟨⟨memWrite_wf _ _ hs.wf, fun g e he => (hs.sector g e he).congr hm⟩, hm⟩

variable {pa : Nat} {data : List Byte} (h : ∀ x, coversPa pa data.length x → M x)
include h

omit h in
theorem coversPa_of_range {len x : Nat} (h1 : ownPa pa ≤ x) (h2 : x < ownPa pa + len) : coversPa pa len x :=
  ⟨x - ownPa pa, by omega, .inl (by omega)⟩

theorem pocStep_pocWrite (s : State) : PocStep M s (pocWrite s pa data) := by
  unfold pocWrite
  split
  · exact .same rfl rfl rfl
  · exact ((PocStep.foldl (fun s g => pocStep_l2Fill s true g) _ s).trans (pocStep_heal _ _ _ _)).trans
      (pocStep_memWrite _ _ _ fun x h1 h2 => h x (coversPa_of_range h1 h2))

theorem pocStep_uncachedWrite (s : State) : PocStep M s (uncachedWrite s pa data) := by
  unfold uncachedWrite
  split
  · exact pocStep_pocWrite h s
  · have hw := (pocStep_heal (M := M) s .phys (ownPa pa) data.length).trans
      (pocStep_memWrite _ (ownPa pa) data fun x h1 h2 => h x (coversPa_of_range h1 h2))
    rw [heal_mem] at hw
    exact hw.trans (.foldl (fun s g => pocStep_l2Fill s true g) _ _)

theorem pocStep_throughWrite (s : State) : PocStep M s (throughWrite s pa data) := by
  unfold throughWrite
  split
  · exact pocStep_uncachedWrite h s
  · exact (pocStep_uncachedWrite h s).trans (.foldl pocStep_pushSector _ _)

end

end Sys2Proof.Machine
end

section
/-! O39: what the stores of a core leave as they are performed. -/

namespace Sys2Proof.Machine

open Sys2Proof.Claims

/-! ### What stores keep -/

/-- The bytes that a store may change: of memory, of Lofts by core, of scratchpads by core. -/
structure Places where
  mem : Nat → Prop
  loft : Nat → Nat → Prop
  scratch : Nat → Nat → Prop

/-- What stores to some places leave of an earlier state: every other byte, the general registers, the tasks on the cores, and that a task has
no shadow. -/
structure Kept (P : Places) (s t : State) : Prop where
  settled : Settled P.mem t
  wf : ∀ k, (t.core k).memWf
  mem : ∀ x, ¬P.mem x → memGet t.mem x = memGet s.mem x
  loft : ∀ k y, ¬P.loft k y → memGet (t.core k).loft y = memGet (s.core k).loft y
  scratch : ∀ k y, ¬P.scratch k y → memGet (t.core k).scratch y = memGet (s.core k).scratch y
  files : ∀ k, SameFiles (s.core k).e (t.core k).e
  task : ∀ k, (t.core k).task = (s.core k).task
  plain : ∀ task, shadowTask s task = none → shadowTask t task = none

/-- A core whose L1, write buffer and counted accesses are those of another. -/
structure SameBuffers (c c' : Core) : Prop where
  l1 : c'.l1 = c.l1
  wbuf : c'.wbuf = c.wbuf
  xacc : c'.e.xacc = c.e.xacc

section
variable {P : Places} {s t u : State}

theorem SameBuffers.refl (c : Core) : SameBuffers c c := ⟨rfl, rfl, rfl⟩

theorem shadowTask_congr (ht : t.tasks = s.tasks) (hb : t.bays = s.bays) (task : Option Nat) : shadowTask t task = shadowTask s task := by
  have hat : t.taskAt = s.taskAt := by
    funext k
    rw [State.taskAt, ht, State.taskAt]
  have heff : t.eff = s.eff := by
    funext b
    rw [State.eff, State.bayAt, hb, State.eff, State.bayAt]
  simp only [shadowTask, hat, heff]

/-- A task changed beside what tells whether it has a shadow. -/
theorem shadowTask_modTask (s : State) (id : Nat) {f : Task → Task} (hf : ∀ t, (f t).id = t.id ∧ (f t).bay = t.bay ∧ (f t).unshadowed = t.unshadowed)
    {task : Option Nat} (h : shadowTask s task = none) : shadowTask (s.modTask id f) task = none := by
  cases task with
  | none => rfl
  | some k =>
    have hid : ((fun t : Task => t.id == k) ∘ fun t => if t.id == id then f t else t) = fun t => t.id == k := by
      funext t
      simp only [Function.comp_apply]
      split
      · rw [(hf t).1]
      · rfl
    have hat : (s.modTask id f).taskAt k = (s.taskAt k).map fun t => if t.id == id then f t else t := by
      rw [State.taskAt, State.modTask, List.find?_map, hid, State.taskAt]
    have heff (b : Nat) : (s.modTask id f).eff b = s.eff b := rfl
    simp only [shadowTask, Option.bind_some, hat] at h ⊢
    cases hk : s.taskAt k with
    | none => rfl
    | some t =>
      simp only [hk, Option.map_some, heff] at h ⊢
      rw [ite_eq_right_iff] at h ⊢
      split
      · rw [(hf t).2.1, (hf t).2.2]
        exact fun hc => absurd (h hc) (by simp)
      · exact h

namespace Kept

/-- A state with canonical memories keeps all when nothing else is older in the L2. -/
theorem refl (hw : s.memWf) (hc : ∀ x, ¬P.mem x → current s x) : Kept P s s :=
  ⟨settled_of_current hw.1 hc, hw.2.1, fun _ _ => rfl, fun _ _ _ => rfl, fun _ _ _ => rfl, fun _ => .refl _, fun _ => rfl, fun _ h => h⟩

variable (h : Kept P s t)
include h

/-- A step of the point of coherence. -/
theorem poc (hp : PocStep P.mem t u) : Kept P s u := by
  obtain ⟨hu, hm⟩ := hp.mem h.settled
  have hcore (k : Nat) : u.core k = t.core k := by rw [State.core, State.core, (congrArg State.cores hp.rest :)]
  have hshadow (k : Option Nat) : shadowTask u k = shadowTask t k :=
    shadowTask_congr (congrArg State.tasks hp.rest :) (congrArg State.bays hp.rest :) k
  refine ⟨hu, fun k => ?_, fun x hx => (hm x hx).trans (h.mem x hx), fun k y hy => ?_, fun k y hy => ?_, fun k => ?_, fun k => ?_, fun k hk => ?_⟩
  · rw [hcore]; exact h.wf k
  · rw [hcore]; exact h.loft k y hy
  · rw [hcore]; exact h.scratch k y hy
  · rw [hcore]; exact h.files k
  · rw [hcore]; exact h.task k
  · rw [hshadow]; exact h.plain k hk

/-- A core changed beside its task, its registers and all of its memories but bytes of the places. -/
theorem modCore (n : Nat) {f : Core → Core} (hw : (f (t.core n)).memWf)
    (hl : ∀ y, ¬P.loft n y → memGet (f (t.core n)).loft y = memGet (t.core n).loft y)
    (hs : ∀ y, ¬P.scratch n y → memGet (f (t.core n)).scratch y = memGet (t.core n).scratch y)
    (hf : SameFiles (t.core n).e (f (t.core n)).e) (ht : (f (t.core n)).task = (t.core n).task) : Kept P s (t.modCore n f) := by
  have hset : Settled P.mem (t.modCore n f) := ⟨h.settled.wf, h.settled.sector⟩
  have hcase (k : Nat) := core_modCore_cases t n k f
  refine ⟨hset, fun k => ?_, h.mem, fun k y hy => ?_, fun k y hy => ?_, fun k => ?_, fun k => ?_, h.plain⟩ <;>
    rcases hcase k with hk | ⟨rfl, hk⟩ <;> rw [hk]
  · exact h.wf k
  · exact hw
  · exact h.loft k y hy
  · exact (hl y hy).trans (h.loft _ y hy)
  · exact h.scratch k y hy
  · exact (hs y hy).trans (h.scratch _ y hy)
  · exact h.files k
  · exact (h.files _).trans hf
  · exact h.task k
  · exact ht.trans (h.task _)

/-- A core changed beside its memories, its task and its registers. -/
theorem modCore_beside (n : Nat) {f : Core → Core} (hl : ∀ c, (f c).loft = c.loft := by exact fun _ => rfl)
    (hs : ∀ c, (f c).scratch = c.scratch := by exact fun _ => rfl) (hf : ∀ c, SameFiles c.e (f c).e := by exact fun _ => .refl _)
    (ht : ∀ c, (f c).task = c.task := by exact fun _ => rfl) : Kept P s (t.modCore n f) := by
  refine h.modCore n ?_ (fun _ _ => by rw [hl]) (fun _ _ => by rw [hs]) (hf _) (ht _)
  rw [Core.memWf, hl, hs]
  exact h.wf n

theorem modE (n : Nat) {f : Engine → Engine} (hf : ∀ e, SameFiles e (f e) := by exact fun _ => ⟨rfl, rfl, rfl, rfl, rfl, rfl⟩) :
    Kept P s (t.modE n f) := by
  unfold State.modE
  exact h.modCore_beside n (hf := fun c => hf c.e)

theorem modTask (id : Nat) {f : Task → Task}
    (hf : ∀ t, (f t).id = t.id ∧ (f t).bay = t.bay ∧ (f t).unshadowed = t.unshadowed := by exact fun _ => ⟨rfl, rfl, rfl⟩) :
    Kept P s (t.modTask id f) :=
  ⟨⟨h.settled.wf, h.settled.sector⟩, h.wf, h.mem, h.loft, h.scratch, h.files, h.task, fun k hk => shadowTask_modTask t id hf (h.plain k hk)⟩

/-- A fault of the user context. -/
theorem raise (n : Nat) {fi : FaultInfo} (hfi : fi.ctx = .user) : Kept P s (Machine.raise t n fi) := by
  have hrest := raise_frame t n fi hfi
  have hmem : (Machine.raise t n fi).mem = t.mem := (congrArg State.mem hrest :)
  have hl2 : (Machine.raise t n fi).l2 = t.l2 := (congrArg State.l2 hrest :)
  have hshadow (k : Option Nat) : shadowTask (Machine.raise t n fi) k = shadowTask t k :=
    shadowTask_congr (congrArg State.tasks hrest :) (congrArg State.bays hrest :) k
  have hcore (k : Nat) := core_raise_user hfi k (s := t) (n := n)
  refine ⟨⟨?_, fun g e he => ?_⟩, fun k => ?_, fun x hx => ?_, fun k y hy => ?_, fun k y hy => ?_, fun k => ?_, fun k => ?_, fun k hk => ?_⟩
  · rw [hmem]; exact h.settled.wf
  · rw [hmem]
    rw [l2Sector, l2Line, hl2] at he
    exact h.settled.sector g e he
  · obtain ⟨_, _, _, hk, -⟩ := hcore k
    rw [hk]; exact h.wf k
  · rw [hmem]; exact h.mem x hx
  · obtain ⟨_, _, _, hk, -⟩ := hcore k
    rw [hk]; exact h.loft k y hy
  · obtain ⟨_, _, _, hk, -⟩ := hcore k
    rw [hk]; exact h.scratch k y hy
  · obtain ⟨_, _, _, hk, -⟩ := hcore k
    rw [hk]; exact h.files k
  · obtain ⟨_, _, _, hk, -⟩ := hcore k
    rw [hk]; exact h.task k
  · rw [hshadow]; exact h.plain k hk

end Kept

/-! ### Stores that are performed (R273) -/

/-- A buffered store lies in the places. -/
structure FitsStore (P : Places) (w : Buffered) : Prop where
  mem : ∀ pa, w.loc = .phys pa → ∀ x, coversPa pa w.data.length x → P.mem x
  loft : ∀ k y, coversLoft w.loc w.data.length k y → P.loft k y

theorem kept_noteOwnLoft (h : Kept P s t) (core : Option Nat) (loft : Nat) : Kept P s (noteOwnLoft t core loft) := by
  unfold noteOwnLoft
  repeat' split
  all_goals first | exact h | exact h.modTask _

theorem kept_noteWrote (h : Kept P s t) (task : Option Nat) (lines : List Nat) : Kept P s (noteWrote t task lines) := by
  unfold noteWrote
  split
  · split
    · exact h.modTask _
    · exact h
  · exact h

theorem kept_starve (h : Kept P s t) (core : Nat) : Kept P s (starve t core) := by
  unfold starve
  split
  · exact h.modTask _
  · exact h

theorem kept_performStore (h : Kept P s t) (n : Nat) {w : Buffered} (hw : FitsStore P w) : Kept P s (performStore t n w) := by
  unfold performStore
  split
  · exact h
  · next m off hloc =>
    have hh := h.poc (pocStep_heal t (.loft m) off w.data.length)
    refine hh.modCore m ⟨(hh.wf m).1, memWrite_wf _ _ (hh.wf m).2⟩ (fun y hy => ?_) (fun _ _ => rfl) (.refl _) rfl
    exact memGet_memWrite_outside _ _ _ (hh.wf m).2 fun hin => hy (hw.loft m y ⟨off, hloc, hin.1, hin.2⟩)
  · next pa hloc =>
    have hpa := hw.mem pa hloc
    exact h.poc ((PocStep.ite (pocStep_uncachedWrite hpa t) (pocStep_pocWrite hpa t)).trans (pocStep_l2Count _ _ _))

/-- The cores' L1s, write buffers and accesses as a performed store leaves them. -/
theorem sameBuffers_poc {M : Nat → Prop} (hp : PocStep M s t) (k : Nat) : SameBuffers (s.core k) (t.core k) := by
  have hc : t.cores = s.cores := (congrArg State.cores hp.rest :)
  rw [State.core, State.core, hc]
  exact .refl _

theorem sameBuffers_modCore (s : State) (n k : Nat) {f : Core → Core} (hf : ∀ c, SameBuffers c (f c) := by exact fun _ => ⟨rfl, rfl, rfl⟩) :
    SameBuffers (s.core k) ((s.modCore n f).core k) := by
  rcases core_modCore_cases s n k f with h | ⟨-, h⟩ <;> rw [h]
  · exact .refl _
  · exact hf _

theorem SameBuffers.trans {c c' c'' : Core} (h : SameBuffers c c') (h' : SameBuffers c' c'') : SameBuffers c c'' :=
  ⟨h'.l1.trans h.l1, h'.wbuf.trans h.wbuf, h'.xacc.trans h.xacc⟩

theorem sameBuffers_performStore (s : State) (n : Nat) (w : Buffered) (k : Nat) :
    SameBuffers (s.core k) ((performStore s n w).core k) := by
  have all {pa : Nat} : ∀ x, coversPa pa w.data.length x → True := fun _ _ => trivial
  unfold performStore
  split
  · exact .refl _
  · exact (sameBuffers_poc (pocStep_heal (M := fun _ => True) _ _ _ _) k).trans (sameBuffers_modCore _ _ _)
  · exact sameBuffers_poc ((PocStep.ite (pocStep_uncachedWrite all s) (pocStep_pocWrite all s)).trans (pocStep_l2Count _ _ _)) k

theorem sameBuffers_noteOwnLoft (s : State) (core : Option Nat) (loft k : Nat) : SameBuffers (s.core k) ((noteOwnLoft s core loft).core k) := by
  unfold noteOwnLoft
  repeat' split
  all_goals exact .refl _

theorem sameBuffers_noteWrote (s : State) (task : Option Nat) (lines : List Nat) (k : Nat) :
    SameBuffers (s.core k) ((noteWrote s task lines).core k) := by
  unfold noteWrote
  repeat' split
  all_goals exact .refl _

end

end Sys2Proof.Machine
end

section
/-! O39: a core's stores, through its L1 and its write buffer, as they are performed. -/

namespace Sys2Proof.Machine

open Sys2Proof.Claims

/-- The dirty bytes of a line lie in the places. -/
def FitsLine (P : Places) (l : Line) : Prop := ∀ i, i < 128 → l.dirty.getLsbD i = true → ∀ x, coversPa (l.pa * 128 + i) 1 x → P.mem x

/-- What a core has written and not yet written back lies in the places. -/
structure Pending (P : Places) (c : Core) : Prop where
  lines : ∀ l ∈ c.l1, FitsLine P l
  stores : ∀ w ∈ c.wbuf, FitsStore P w

/-- While core `n` performs stores to some places up to its store `id`: what they keep, what the core still has to write back lies in the places
too, and the store is one of the user context. -/
structure Storing (P : Places) (n id : Nat) (s t : State) : Prop where
  kept : Kept P s t
  pending : Pending P (t.core n)
  acc : ∀ a, (t.core n).e.xacc.find? (fun x => x.id = id) = some a → a.kind = .store ∧ a.info.ctx = .user

namespace Storing

variable {P : Places} {n id : Nat} {s t u : State} (h : Storing P n id s t)
include h

/-- A step that leaves what the core has still to write. -/
theorem beside (hk : Kept P s u) (hb : SameBuffers (t.core n) (u.core n)) : Storing P n id s u :=
  ⟨hk, ⟨fun l hl => h.pending.lines l (hb.l1 ▸ hl), fun w hw => h.pending.stores w (hb.wbuf ▸ hw)⟩,
    fun a ha => h.acc a (by rwa [hb.xacc] at ha)⟩

theorem poc (hp : PocStep P.mem t u) : Storing P n id s u := h.beside (h.kept.poc hp) (sameBuffers_poc hp n)

/-- A change of what the core has still to write. -/
theorem modBuffers {f : Core → Core} (hf : ∀ c, Pending P c → Pending P (f c)) (hl : ∀ c, (f c).loft = c.loft := by exact fun _ => rfl)
    (hs : ∀ c, (f c).scratch = c.scratch := by exact fun _ => rfl) (he : ∀ c, (f c).e = c.e := by exact fun _ => rfl)
    (ht : ∀ c, (f c).task = c.task := by exact fun _ => rfl) : Storing P n id s (t.modCore n f) := by
  refine ⟨h.kept.modCore_beside n hl hs (fun c => by rw [he]; exact .refl _) ht, ?_, fun a ha => ?_⟩
  · rcases core_modCore_cases t n n f with hk | ⟨-, hk⟩ <;> rw [hk]
    · exact h.pending
    · exact hf _ h.pending
  · rcases core_modCore_cases t n n f with hk | ⟨-, hk⟩ <;> rw [hk] at ha
    · exact h.acc a ha
    · exact h.acc a (by rwa [he] at ha)

/-! ### The write buffer (R273) -/

theorem performStore {w : Buffered} (hw : FitsStore P w) : Storing P n id s (performStore t n w) :=
  h.beside (kept_performStore h.kept n hw) (sameBuffers_performStore t n w n)

theorem drainBuffer (k : Nat) : Storing P n id s (drainBuffer t n k) := by
  unfold Machine.drainBuffer
  extract_lets ws
  split
  · exact h
  · have hrest : Storing P n id s (t.modCore n fun c => { c with wbuf := c.wbuf.drop k }) :=
      h.modBuffers fun c hc => ⟨hc.lines, fun w hw => hc.stores w (List.mem_of_mem_drop hw)⟩
    exact List.foldlRecOn _ _ hrest fun _ hu w hw => hu.performStore (h.pending.stores w (List.mem_of_mem_take hw))

theorem drainUpTo (which : Buffered → Bool) : Storing P n id s (drainUpTo t n which) := h.drainBuffer _

theorem sendStore {w : Buffered} (hw : FitsStore P w) : Storing P n id s (sendStore t n w) := by
  unfold Machine.sendStore
  split
  · refine h.modBuffers fun c hc => ⟨hc.lines, fun x hx => ?_⟩
    rcases List.mem_append.1 hx with hx | hx
    · exact hc.stores x hx
    · rw [List.mem_singleton.1 hx]
      exact hw
  · exact h.performStore hw

/-! ### The L1 (R203, R252, R253) -/

theorem writeDirty {l : Line} (hl : FitsLine P l) : Storing P n id s (writeDirty t l) := by
  unfold Machine.writeDirty
  refine List.foldlRecOn _ _ h fun u hu i hi => ?_
  split
  · next hd => exact hu.poc (pocStep_pocWrite (hl i (List.mem_range.1 hi) hd) u)
  · exact hu

theorem dropLine (ln : Nat) : Storing P n id s (dropLine t n ln) :=
  h.modBuffers fun _ hc => ⟨fun l hl => hc.lines l (List.mem_of_mem_filter hl), hc.stores⟩

omit h in
theorem findLine_mem {ln : Nat} {l : Line} (hl : findLine t n ln = some l) : l ∈ (t.core n).l1 ∧ l.pa = ln :=
  ⟨List.mem_of_find?_eq_some hl, by simpa using List.find?_some hl⟩

theorem flushLine (ln : Nat) : Storing P n id s (flushLine t n ln) := by
  unfold Machine.flushLine
  have hd := h.drainUpTo (·.inLine ln)
  dsimp only
  split
  · exact hd
  · next l hl => exact ((hd.writeDirty (hd.pending.lines l (findLine_mem hl).1)).poc (pocStep_l2Count _ _ _)).dropLine _

theorem putLine {l : Line} (hl : FitsLine P l) : Storing P n id s (putLine t n l) := by
  unfold Machine.putLine
  extract_lets u same v
  have hu : Storing P n id s u := h.dropLine _
  have hv : Storing P n id s v := by
    simp only [v]
    split
    · exact hu.flushLine _
    · exact hu
  refine hv.modBuffers fun c hc => ⟨fun x hx => ?_, hc.stores⟩
  rcases List.mem_cons.1 hx with rfl | hx
  · exact hl
  · exact hc.lines x hx

end Storing

/-! ### A store into a line -/

/-- A bit of a register with a field replaced, and what passes its top cut off, is one of the field or as it was. -/
theorem setBits_bit {w lo n : Nat} {b : BitVec w} {v j : Nat} (h : (setBits b lo n v).getLsbD j = true) :
    (lo ≤ j ∧ j < lo + n) ∨ b.getLsbD j = true := by
  by_cases hw : lo + n ≤ w
  · rw [getLsbD_setBits b v j hw] at h
    split at h
    · exact .inl ‹_›
    · exact .inr h
  · have hj : j < w := BitVec.lt_of_getLsbD h
    by_cases hlo : lo ≤ j
    · exact .inl ⟨hlo, by omega⟩
    · have hlow (y : Nat) (hj' : j < lo) : y.testBit j = (y % 2 ^ lo).testBit j := by
        rw [Nat.testBit_mod_two_pow, decide_eq_true hj', Bool.true_and]
      have hsub : b.toNat / 2 ^ lo % 2 ^ n * 2 ^ lo ≤ b.toNat :=
        (Nat.mul_le_mul_right _ (Nat.mod_le _ _)).trans (Nat.div_mul_le_self _ _)
      rw [setBits, BitVec.getLsbD_ofNat, Bool.and_eq_true, hlow _ (by omega), Nat.add_mul_mod_self_right, Nat.mul_comm, Nat.sub_mul_mod
        (by rwa [Nat.mul_comm]), ← hlow _ (by omega)] at h
      exact .inr h.2

variable {P : Places} {n id : Nat} {s t u : State}

theorem fitsLine_clean {l : Line} (h : l.dirty = 0) : FitsLine P l := by
  intro i _ hd
  rw [h] at hd
  simp at hd

theorem fitsLine_storeInLine {l : Line} (hl : FitsLine P l) {pa : Nat} (hpa : l.pa = pa / 128) {data : List Byte}
    (hd : ∀ x, coversPa pa data.length x → P.mem x) (col : BitVec 3) : FitsLine P (storeInLine l (pa % 128) data col) := by
  intro i hi hbit x hx
  rcases setBits_bit hbit with ⟨h1, h2⟩ | hbit
  · refine hd x ⟨i - pa % 128, by omega, .inr ?_⟩
    obtain ⟨j, hj, hx⟩ := hx
    obtain rfl : j = 0 := by omega
    have hadr : l.pa * 128 + i = pa + (i - pa % 128) := by rw [hpa]; omega
    rw [← hadr]
    exact hx.elim id id
  · exact hl i hi hbit x hx

theorem storing_l1Store (h : Storing P n id s t) {pa : Nat} {data : List Byte} (hd : ∀ x, coversPa pa data.length x → P.mem x) (pol : Pol)
    (col : BitVec 3) : Storing P n id s (l1Store t n pa data pol col) := by
  have hfit : FitsStore P { loc := .phys pa, data := data, col := col } :=
    ⟨fun _ hl => by cases hl; exact hd, fun _ _ ⟨_, hl, _⟩ => by cases hl⟩
  have hput {l : Line} (hl : findLine t n (pa / 128) = some l) : Storing P n id s (putLine t n (storeInLine l (pa % 128) data col)) :=
    h.putLine (fitsLine_storeInLine (h.pending.lines l (Storing.findLine_mem hl).1) (Storing.findLine_mem hl).2 hd col)
  unfold l1Store
  dsimp only
  split
  · exact (h.flushLine _).sendStore hfit
  · split
    · next hl => exact hput hl
    · exact h.sendStore hfit
  · split
    · next hl => exact hput hl
    · have hb : Storing P n id s t.bump.2 := h.poc (.same rfl rfl rfl)
      exact ((hb.poc (pocStep_l2Read _ _ _ _ _)).poc (pocStep_sendRead _ _ _ _)).putLine
        (fitsLine_storeInLine (fitsLine_clean rfl) rfl hd col)

/-! ### The pieces of a store (R199, R200) -/

/-- A piece of a store of core `n` lies in the places. -/
structure FitsPiece (P : Places) (n : Nat) (p : Piece) : Prop where
  mem : ∀ x, coversMem p x → P.mem x
  loft : ∀ k y, coversLoft p.loc p.len k y → P.loft k y
  scratch : ∀ off, p.loc = .scratch off → ∀ y, off ≤ y → y < off + p.len → P.scratch n y

/-- The bytes of a piece, or fewer, as a buffered store. -/
theorem FitsPiece.store {p : Piece} (h : FitsPiece P n p) {data : List Byte} (hd : data.length ≤ p.len) (col : BitVec 3) (ca : Bool) :
    FitsStore P { loc := p.loc, data := data, col := col, ca := ca } :=
  ⟨fun pa hpa x ⟨i, hi, hx⟩ => h.mem x ⟨pa, hpa, i, Nat.lt_of_lt_of_le hi hd, hx⟩,
    fun k y ⟨off, hoff, h1, h2⟩ => h.loft k y ⟨off, hoff, h1, Nat.lt_of_lt_of_le h2 (Nat.add_le_add_left hd _)⟩⟩

theorem kept_scratchWrite (h : Kept P s t) {off : Nat} {data : List Byte} (hd : ∀ y, off ≤ y → y < off + data.length → P.scratch n y) :
    Kept P s ((heal t (.scratch n) off data.length).modCore n fun c => { c with scratch := memWrite c.scratch off data }) := by
  have hh := h.poc (pocStep_heal t (.scratch n) off data.length)
  refine hh.modCore n ⟨memWrite_wf _ _ (hh.wf n).1, (hh.wf n).2⟩ (fun _ _ => rfl) (fun y hy => ?_) (.refl _) rfl
  exact memGet_memWrite_outside _ _ _ (hh.wf n).1 fun hin => hy (hd y hin.1 hin.2)

theorem sameBuffers_scratchWrite (t : State) (off : Nat) (data : List Byte) :
    SameBuffers (t.core n) (((heal t (.scratch n) off data.length).modCore n fun c => { c with scratch := memWrite c.scratch off data }).core n) :=
  (sameBuffers_poc (pocStep_heal (M := fun _ => True) _ _ _ _) n).trans (sameBuffers_modCore _ _ _)

theorem storing_writePiece (h : Storing P n id s t) {task : Option Nat} (htask : shadowTask t task = none) (col : BitVec 3) {p : Piece}
    (hp : FitsPiece P n p) {data : List Byte} (hd : data.length ≤ p.len) : Storing P n id s (writePiece t (some n) true task col p data) := by
  have hfit := hp.store hd col
  unfold writePiece
  split
  · next off hoff =>
    exact h.beside (kept_scratchWrite h.kept fun y h1 h2 => hp.scratch off hoff y h1 (by omega)) (sameBuffers_scratchWrite t off data)
  · next m off hoff =>
    dsimp only
    split
    · exact h.sendStore (hfit false)
    · exact (h.beside (kept_noteOwnLoft h.kept _ _) (sameBuffers_noteOwnLoft t _ _ n)).performStore (hfit false)
  · next pa hpa =>
    rw [htask]
    dsimp only
    have hn : Storing P n id s (noteWrote t task (granules pa data.length)) :=
      h.beside (kept_noteWrote h.kept _ _) (sameBuffers_noteWrote t _ _ n)
    split
    · exact storing_l1Store hn ((hfit false).mem pa hpa) _ _
    · exact (hn.flushLine _).sendStore (hpa ▸ hfit true)

theorem storing_writePieces {task : Option Nat} (htask : shadowTask s task = none) (col : BitVec 3) (ps : List Piece) :
    ∀ {t : State} (data : List Byte), Storing P n id s t → (∀ p ∈ ps, FitsPiece P n p) →
      Storing P n id s (writePieces t (some n) true task col ps data) := by
  induction ps with
  | nil => exact fun _ h _ => h
  | cons p r ih =>
    intro t data h hps
    rw [writePieces]
    have hlen : (data.take p.len).length ≤ p.len := by rw [List.length_take]; omega
    exact ih _ (storing_writePiece h (h.kept.plain task htask) col (hps p List.mem_cons_self) hlen)
      fun q hq => hps q (List.mem_cons_of_mem _ hq)

/-! ### Performing a store -/

/-- An access of the core marked. -/
theorem storing_mark (h : Storing P n id s t) {f : XAcc → XAcc}
    (hf : ∀ x, (f x).id = x.id ∧ (f x).kind = x.kind ∧ (f x).info = x.info) :
    Storing P n id s (t.modE n fun e => { e with xacc := e.xacc.map f }) := by
  have hk : Kept P s (t.modE n fun e => { e with xacc := e.xacc.map f }) := h.kept.modE n
  refine ⟨hk, ?_, fun a ha => ?_⟩
  · rcases core_modCore_cases t n n fun c => { c with e := { c.e with xacc := c.e.xacc.map f } } with hc | ⟨-, hc⟩ <;> rw [State.modE, hc]
    · exact h.pending
    · exact ⟨h.pending.lines, h.pending.stores⟩
  · rcases core_modCore_cases t n n fun c => { c with e := { c.e with xacc := c.e.xacc.map f } } with hc | ⟨-, hc⟩ <;> rw [State.modE, hc] at ha
    · exact h.acc a ha
    · have hid : ((fun x : XAcc => decide (x.id = id)) ∘ f) = fun x => decide (x.id = id) := by
        funext x
        rw [Function.comp_apply, (hf x).1]
      rw [List.find?_map, hid, Option.map_eq_some_iff] at ha
      obtain ⟨b, hb, rfl⟩ := ha
      rw [(hf b).2.1, (hf b).2.2]
      exact h.acc b hb

theorem storing_performAcc (h : Storing P n id s t) (htask : shadowTask s (s.core n).task = none) {a : XAcc} (hkind : a.kind = .store)
    (hps : ∀ p ∈ a.pieces, FitsPiece P n p) : Storing P n id s (performAcc t n a) := by
  unfold performAcc
  dsimp only
  rw [hkind]
  split
  · exact h
  · split
    · refine storing_mark h fun x => ?_
      split <;> exact ⟨rfl, rfl, rfl⟩
    · refine storing_mark (storing_writePieces ?_ _ _ _ h hps) fun x => ?_
      · rw [h.kept.task]
        exact htask
      · split <;> exact ⟨rfl, rfl, rfl⟩

theorem storing_performUpTo (h : Storing P n id s t) (htask : shadowTask s (s.core n).task = none) {a : XAcc} (hkind : a.kind = .store)
    (hps : ∀ p ∈ a.pieces, FitsPiece P n p) (hold : ∀ x ∈ (t.core n).e.xacc, x.slot = a.slot → x.id ≤ a.id → x = a ∨ x.done = true) :
    Storing P n id s (performUpTo t n a) := by
  refine List.foldlRecOn _ _ h fun u hu x hx => ?_
  obtain ⟨hx, hslot⟩ := List.mem_filter.1 hx
  obtain ⟨hslot, hid⟩ := of_decide_eq_true hslot
  rcases hold x hx hslot hid with rfl | hdone
  · exact storing_performAcc hu htask hkind hps
  · unfold performAcc
    rw [if_pos hdone]
    exact hu

end Sys2Proof.Machine
end

section
/-! O39: the frame of a counted store and of a copy's granule as they are performed, and the whole frame. -/

namespace Sys2Proof.Machine

open Sys2Proof.Claims

variable {s t : State}

/-! ### A counted store (R199, R200, R273) -/

/-- What a core's counted store may change: its own places, what the core has written and not yet written back, and the bytes of which the L2
holds an older copy. -/
def storePlaces (s : State) (core : Nat) (a : XAcc) : Places where
  mem x := (∃ p ∈ a.pieces, coversMem p x) ∨ unwritten (s.core core) x ∨ ¬current s x
  loft k y := (∃ p ∈ a.pieces, coversLoft p.loc p.len k y) ∨ ∃ w ∈ (s.core core).wbuf, coversLoft w.loc w.data.length k y
  scratch k y := ∃ p ∈ a.pieces, ∃ off, p.loc = .scratch off ∧ k = core ∧ off ≤ y ∧ y < off + p.len

/-- Its own pieces lie in those places. -/
theorem fitsPiece_storePlaces (s : State) (core : Nat) {a : XAcc} {p : Piece} (hp : p ∈ a.pieces) : FitsPiece (storePlaces s core a) core p :=
  ⟨fun _ hx => .inl ⟨p, hp, hx⟩, fun _ _ hy => .inl ⟨p, hp, hy⟩, fun off hoff _ h1 h2 => ⟨p, hp, off, hoff, rfl, h1, h2⟩⟩

/-- So does what the core has written and not yet written back. -/
theorem pending_storePlaces (s : State) (core : Nat) (a : XAcc) : Pending (storePlaces s core a) (s.core core) :=
  ⟨fun l hl i hi hd _ hx => .inr (.inl (.inl ⟨l, hl, i, hi, hd, hx⟩)),
    fun w hw => ⟨fun pa hpa _ hx => .inr (.inl (.inr ⟨w, hw, pa, hpa, hx⟩)), fun _ _ hy => .inr ⟨w, hw, hy⟩⟩⟩

theorem storing_start {core id : Nat} {a : XAcc} (hw : s.memWf) (hfind : (s.core core).e.xacc.find? (fun x => x.id = id) = some a)
    (hkind : a.kind = .store) (hctx : a.info.ctx = .user) : Storing (storePlaces s core a) core id s s :=
  ⟨.refl hw fun _ hx => not_not.1 fun hc => hx (.inr (.inr hc)), pending_storePlaces s core a, fun b hb => by
    cases hfind.symm.trans hb
    exact ⟨hkind, hctx⟩⟩

/-- The reply of a store of the user context keeps what the store keeps. -/
theorem kept_accReport {P : Places} (h : Kept P s t) (core : Nat) {a : XAcc} (hkind : a.kind = .store) (hctx : a.info.ctx = .user) :
    Kept P s (accReport t core a) := by
  unfold accReport
  split
  · have hreads : accReads a = false := by simp only [accReads, accClass, hkind, bne_self_eq_false]
    simp only [accFault, hreads, Bool.false_eq_true, if_false, replyFault]
    exact h.raise core hctx
  · exact h

theorem kept_storePerformed {core id : Nat} {a : XAcc} (hw : s.memWf) (htask : shadowTask s (s.core core).task = none)
    (hfind : (s.core core).e.xacc.find? (fun x => x.id = id) = some a) (hkind : a.kind = .store) (hctx : a.info.ctx = .user)
    (hold : ∀ x ∈ (s.core core).e.xacc, x.slot = a.slot → x.id ≤ a.id → x = a ∨ x.done = true)
    (h : exec (.storePerformed core id) s = .next t) : Kept (storePlaces s core a) s t := by
  have hstart := storing_start hw hfind hkind hctx
  have hperf := storing_performUpTo hstart htask hkind (fun _ hp => fitsPiece_storePlaces s core hp) hold
  rw [exec_storePerformed] at h
  unfold execStorePerformed at h
  split at h
  · cases h
    exact hstart.kept
  next b hb =>
  obtain rfl : b = a := by
    simp only [accReady, hfind] at hb
    split at hb <;> cases hb
    rfl
  simp only [hkind, Bool.not_true, Bool.false_eq_true, if_false] at h
  split at h
  · cases h
    exact kept_starve hstart.kept core
  split at h
  · cases h
    exact hperf.kept
  split at h
  · cases h
    exact hperf.kept
  · next c hc =>
    cases h
    obtain ⟨hck, hcc⟩ := hperf.acc c hc
    have hdrop : Kept (storePlaces s core b) s (dropAcc (performUpTo s core b) core id) := by
      unfold dropAcc
      exact hperf.kept.modE core
    exact kept_accReport (hdrop.modE core) core hck hcc

/-! ### A granule of a copy (R209, R283) -/

/-- What a granule's write may change. -/
def granPlaces (s : State) (core : Nat) (l : Loc) : Places where
  mem x := coversMem { va := 0, loc := l, len := 4, pol := .uc, group := 0 } x ∨ ¬current s x
  loft k y := coversLoft l 4 k y
  scratch k y := ∃ off, l = .scratch off ∧ k = core ∧ off ≤ y ∧ y < off + 4

/-- A state that keeps all but a granule's bytes, and the buffers of every core. -/
structure Delivers (core : Nat) (l : Loc) (s t : State) : Prop where
  kept : Kept (granPlaces s core l) s t
  buffers : ∀ k, SameBuffers (s.core k) (t.core k)

theorem delivers_modE {core : Nat} {l : Loc} (h : Delivers core l s t) (n : Nat) {f : Engine → Engine}
    (hf : ∀ e, SameFiles e (f e) := by exact fun _ => ⟨rfl, rfl, rfl, rfl, rfl, rfl⟩) (hx : ∀ e, (f e).xacc = e.xacc := by exact fun _ => rfl) :
    Delivers core l s (t.modE n f) := by
  refine ⟨h.kept.modE n hf, fun k => (h.buffers k).trans ?_⟩
  unfold State.modE
  exact sameBuffers_modCore t n k fun c => ⟨rfl, rfl, hx c.e⟩

theorem delivers_granLeft {core : Nat} {l : Loc} (h : Delivers core l s t) (ch k n : Nat) : Delivers core l s (granLeft t core ch k n) := by
  unfold granLeft modChan
  exact delivers_modE h core

theorem delivers_granDone {core : Nat} {l : Loc} (h : Delivers core l s t) (ch k n : Nat) (g : Loc × BitVec 32 × Bool) :
    Delivers core l s (granDone t core ch k n g) := by
  unfold granDone settleChan modChan
  exact delivers_modE (delivers_modE (delivers_modE h core) core) core

theorem delivers_write {core : Nat} {l : Loc} {task : Option Nat} (hk : Kept (granPlaces s core l) s s) (htask : shadowTask s task = none)
    (v : Nat) : Delivers core l s
      (writePiece s (some core) false task 0 { va := 0, loc := l, len := 4, pol := .uc, group := 0, sys := true } (toBytes 4 v)) := by
  have hlen : (toBytes 4 v).length = 4 := length_toBytes 4 v
  have hfit : FitsStore (granPlaces s core l) { loc := l, data := toBytes 4 v, col := 0 } :=
    ⟨fun pa hpa x hx => .inl ⟨pa, hpa, hlen ▸ hx⟩, fun k y hy => by rwa [hlen] at hy⟩
  unfold writePiece
  dsimp only
  split
  · next off =>
    refine ⟨kept_scratchWrite hk fun y h1 h2 => ⟨off, rfl, rfl, h1, hlen ▸ h2⟩, fun k => ?_⟩
    exact (sameBuffers_poc (pocStep_heal (M := fun _ => True) _ _ _ _) k).trans (sameBuffers_modCore _ _ _)
  · simp only [Bool.false_and, Bool.false_eq_true, if_false]
    exact ⟨kept_performStore (kept_noteOwnLoft hk _ _) core hfit,
      fun k => (sameBuffers_noteOwnLoft s _ _ k).trans (sameBuffers_performStore _ core _ k)⟩
  · next pa =>
    rw [htask]
    have hpoc (u : State) := (pocStep_throughWrite (hfit.mem pa rfl) u).trans (pocStep_l2Count _ (some core) pa)
    exact ⟨(kept_noteWrote hk _ _).poc (hpoc _), fun k => (sameBuffers_noteWrote s _ _ k).trans (sameBuffers_poc (hpoc _) k)⟩

theorem delivers_copyDelivery {core ch id n : Nat} {x : Copy} {g : Loc × BitVec 32 × Bool} (hw : s.memWf)
    (htask : shadowTask s (s.core core).task = none) (hfind : (chanOf s core ch).copies.find? (fun y => y.k = id) = some x)
    (hg : x.gran[n]? = some g) (h : exec (.copyDelivery core ch id n) s = .next t) : Delivers core g.1 s t := by
  have hk : Kept (granPlaces s core g.1) s s := .refl hw fun _ hx => not_not.1 fun hc => hx (.inr hc)
  have hself : Delivers core g.1 s s := ⟨hk, fun _ => .refl _⟩
  rw [exec_copyDelivery] at h
  simp only [execCopyDelivery, hfind, hg] at h
  split at h
  · cases h
    exact hself
  split at h
  · cases h
    exact delivers_granDone hself _ _ _ _
  have hwrite := delivers_write hk htask g.2.1.toNat
  split_ifs at h <;> cases h
  · refine ⟨kept_starve hk core, fun k => ?_⟩
    unfold starve
    split <;> exact .refl _
  · exact delivers_granLeft hwrite _ _ _
  · exact delivers_granDone hwrite _ _ _ _

/-! ### The frame -/

theorem storeFrame : StoreFrame := by
  constructor
  · intro s t core id a _ hw htask hfind hkind hctx hold h
    have hk := kept_storePerformed hw htask hfind hkind hctx hold h
    refine ⟨fun x hp hu hc => hk.mem x ?_, fun k y _ hp hb => hk.loft k y ?_, fun k y _ hp => hk.scratch k y ?_,
      fun k _ => (hk.files k).sameRegisters⟩
    · rintro (⟨p, hmem, hx⟩ | hx | hx)
      · exact hp p hmem hx
      · exact hu hx
      · exact hx hc
    · rintro (⟨p, hmem, hy⟩ | ⟨w, hmem, hy⟩)
      · exact hp p hmem hy
      · exact hb w hmem hy
    · rintro ⟨p, hmem, off, hoff, hcore, hy⟩
      exact hp p hmem off hoff hcore hy
  · intro s t core ch id n x g _ hw htask hfind hg h at_
    obtain ⟨hk, hb⟩ := delivers_copyDelivery hw htask hfind hg h
    refine ⟨fun y hp hc => hk.mem y ?_, fun k y _ hp => hk.loft k y hp, fun k y _ hp => hk.scratch k y ?_,
      fun k _ => ⟨(hb k).l1, (hk.files k).sameRegisters⟩⟩
    · rintro (hy | hy)
      · exact hp hy
      · exact hy hc
    · rintro ⟨off, hoff, hcore, hy⟩
      exact hp off hoff hcore hy

end Sys2Proof.Machine

open Sys2Proof Sys2Proof.Machine Sys2Proof.Claims

/-- Settles O39: an op of the S, V and M slots, and one of the X slots, changes its core beside what the frame names, part by part of its issue;
a store and a copy's granule keep, step by step to the point of coherence, every byte outside the places that they may change. -/
theorem slotFrame : Obligations.SlotFrame := ⟨arithmeticFrame, transferFrame, storeFrame⟩

end
